-- ==== Sys2Proof/Word.lean ====
section
/-! DEFINITION. The two widths of data the spec names everywhere: the byte and the 64-bit scalar (R15, R16). -/

namespace Sys2Proof

/-- One byte of memory or of a register file. -/
abbrev Byte := BitVec 8

/-- A 64-bit scalar, engine scalar or system register. -/
abbrev Word := BitVec 64

/-- A 32-bit slot word or literal word (R26). -/
abbrev Slotword := BitVec 32

/-- A mask of sixteen lanes (R14). -/
abbrev Lanes := BitVec 16

end Sys2Proof
end

