-- ==== Sys2Proof/Config.lean ====
section
/-! DEFINITION. What an implementation fixes, and the values the spec leaves open: constants with no body, so that no
proof can see what they are. Each is named in the assumption log. -/

namespace Sys2Proof

/-- The length of the read lease a home slice grants, as a surplus over the least of 16 units (R160). The argument is a
plain counter of the state. -/
opaque Config.leaseRaw : Nat → BitVec 8

/-- A lease is 16 to 256 logical units (R160). -/
def Config.lease (n : Nat) : Nat := 16 + min (Config.leaseRaw n).toNat 240

/-- A byte whose value the spec leaves undetermined: the destination of a copy that also covers its source, or that two
of its own elements write (R182, R185). -/
opaque Config.freeByte : Nat → BitVec 8

/-- Which contents a reader obtains of an 8-byte unit that another agent has written and not published: 0 the new ones, else
one of the old ones in turn (R165, R168, R274). The argument is a plain counter of the state, or is made of it and of the
unit. -/
opaque Config.oldPick : Nat → Nat

/-- Which of two values of an 8-byte unit a GST stores that was written between its issue and its completion (R150): the
later one when true. The argument is a plain counter of the state. -/
opaque Config.gstLate : Nat → Bool

/-- Whether a GLD comes to its point before it completes, and which of its 8-byte units a local read then finds written
already (R150). The argument is a plain counter of the state. -/
opaque Config.gldAhead : Nat → Bool

/-- Whether an engine path keeps a line it has read under its lease (R160). The argument is a plain counter of the state. -/
opaque Config.pathKeeps : Nat → Bool

/-- How many 8-byte units of a COPY packet are moved at a time, 0 for all that are left (R164, R281). The argument is a plain
counter of the state. -/
opaque Config.copyPart : Nat → Nat

/-- What an encoded special function returns when the bounds computed for it never decide its rounding (R205). The
arguments are the function's number, the format code, the rounding mode and the element's bits. -/
opaque Config.specialRest : Nat → Nat → Nat → Nat → Nat

/-- TRAPSLOT of a SOFT trap, which the spec does not state (R322, R323). The argument is a plain counter of the state. -/
opaque Config.softSlot : Nat → BitVec 3

/-- Whether a write at a watched signal shares its message with the writes of the same microsecond (R364). The argument is
a plain counter of the state. -/
opaque Config.sharesNotify : Nat → Bool

/-- The cycles that a die on which no context runs stretches while some time passes under a droop or the power limit, taken modulo
one more than a clock of 3.3 GHz has in that time (R362, R367). The argument is a plain counter of the state. -/
opaque Config.stretched : Nat → Nat

/-- The cycles between a detection and the first stretched cycle, of which there are at most 2: taken modulo 3 (R367). The
argument is a plain counter of the state. -/
opaque Config.stretchLead : Nat → Nat

/-- Whether an SLH-DSA-SHA2-128s signature verifies under the fused root key: die, message, signature (R369). -/
opaque Config.slhVerify : Nat → List (BitVec 8) → List (BitVec 8) → Bool

/-- The identity public key of a die, 32 bytes, derived from its fused secret and the hash of MEAS0 (R370). -/
opaque Config.identityKey : Nat → List (BitVec 8) → List (BitVec 8)

/-- The 7,856-byte SLH-DSA-SHA2-128s signature of a message under a die's identity (R370). -/
opaque Config.slhSign : Nat → List (BitVec 8) → List (BitVec 8) → List (BitVec 8)

/-- The measurement of a die's boot ROM configuration and fuses (R369, stage 0). -/
opaque Config.fuseMeasure : Nat → List (BitVec 8)

/-- The supply margin a die finds at boot, in mV (R366). -/
opaque Config.bootMargin : Nat → BitVec 64

/-- The firmware's floor for the path-delay margin, in ps (R367). -/
opaque Config.ageFloor : Nat

/-- Whether the supply voltage that a re-planning of a die sets, with the margin it gives in mV, is the highest permitted
(R367). -/
opaque Config.topVoltage : Nat → Nat → Bool

/-- The installed capacity of each die's DDR-5 channels in bytes (R133): the full terabyte of a die's range. -/
def Config.ddrBytes : Nat := 2 ^ 40

end Sys2Proof
end

