-- ==== Sys2Proof/Syntax.lean ====
section
/-! DEFINITION. The instructions of the S480: one constructor for each row of the opcode table. The 218 slot
instructions carry the fields of their slot-word form (R30, R32, R33, R34) as the bit vectors the form has; the 70
events carry who they happen to and what the outside world chooses. -/

namespace Sys2Proof

/-- The SR form of the S slot (R30). -/
structure SR where
  d : BitVec 6
  a : BitVec 6
  b : BitVec 6
  f : BitVec 3
  p : BitVec 3
  deriving DecidableEq, Repr

/-- The SI form of the S slot (R30). -/
structure SI where
  d : BitVec 6
  a : BitVec 6
  imm : BitVec 9
  p : BitVec 3
  deriving DecidableEq, Repr

/-- The SB form of the S slot (R30). -/
structure SB where
  p : BitVec 3
  n : BitVec 1
  disp : BitVec 20
  deriving DecidableEq, Repr

/-- The SM form of the S slot (R30); `b` is also imm6. -/
structure SM where
  d : BitVec 6
  a : BitVec 6
  b : BitVec 6
  size : BitVec 2
  tok : BitVec 3
  sign : BitVec 1
  deriving DecidableEq, Repr

/-- The VT form of the V slots (R32). -/
structure VT where
  td : BitVec 4
  ta : BitVec 4
  tb : BitVec 4
  fs : BitVec 3
  k : BitVec 3
  stage : BitVec 2
  mod : BitVec 4
  deriving DecidableEq, Repr

/-- The VS form of the V slots (R32). -/
structure VS where
  td : BitVec 4
  ta : BitVec 4
  s : BitVec 6
  fs : BitVec 3
  k : BitVec 3
  stage : BitVec 2
  mod : BitVec 2
  deriving DecidableEq, Repr

/-- The form of the M slot (R33). -/
structure MF where
  acc : BitVec 2
  ta : BitVec 4
  tb : BitVec 4
  fsA : BitVec 3
  fsB : BitVec 3
  k : BitVec 3
  stage : BitVec 2
  mod : BitVec 3
  deriving DecidableEq, Repr

/-- The form of the X slots (R34). -/
structure XF where
  tok : BitVec 3
  bar : BitVec 5
  a : BitVec 6
  b : BitVec 6
  stage : BitVec 2
  mod : BitVec 2
  deriving DecidableEq, Repr

/-- The four spaces of opcodes: one for the S slot, one for both V slots, one for M and one for both X slots (R27). -/
inductive SlotKind where
  | S | V | M | X
  deriving DecidableEq, Repr

/-- How an access of a sequencer is performed (R44, R146, R160, R161, R142): at the line's home; from a lease held in
the L0 cache; at the home, but ahead of older stores, to be confirmed; at the home, with the value in the register before
the token clears; or not at all, because the data carries an uncorrectable error of the kind given (R323). -/
inductive AccHow where
  | home
  | lease
  | early
  | valueFirst
  | error (kind : Nat)
  deriving DecidableEq, Repr

/-- A PTP event or general message as the time unit sees it (R301): its domain, its sender, its sequence number, the
timestamp it carries, the local time of its arrival, its correctionField in ns, and whether a Sync is two-step. -/
structure PtpMsg where
  domain : Nat
  source : Nat
  seqId : Nat
  stamp : Int
  arrival : Int
  correction : Int
  twoStep : Bool
  deriving DecidableEq, Repr

/-- The dataset of an Announce message that the comparison of R301 reads, with currentUtcOffset and the announce interval. -/
structure PtpDataset where
  priority1 : Nat
  clockClass : Nat
  accuracy : Nat
  variance : Nat
  priority2 : Nat
  identity : Nat
  stepsRemoved : Nat
  utcOffset : Int
  interval : Nat
  deriving DecidableEq, Repr

/-- The instructions: rows of spec/opcode_table.json. -/
inductive Instr where
  /-- NOP (S slot, R111). -/
  | nop (x : SR)
  /-- ADD (S slot, R112). -/
  | add (x : SR)
  /-- SUB (S slot, R112). -/
  | sub (x : SR)
  /-- ADDI (S slot, R112). -/
  | addi (x : SI)
  /-- MUL (S slot, R112). -/
  | mul (x : SR)
  /-- MULH (S slot, R112). -/
  | mulh (x : SR)
  /-- DIV (S slot, R113). -/
  | div (x : SR)
  /-- REM (S slot, R113). -/
  | rem (x : SR)
  /-- AND (S slot, R114). -/
  | andS (x : SR)
  /-- OR (S slot, R114). -/
  | orS (x : SR)
  /-- XOR (S slot, R114). -/
  | xorS (x : SR)
  /-- ANDN (S slot, R114). -/
  | andn (x : SR)
  /-- ANDI (S slot, R114). -/
  | andi (x : SI)
  /-- ORI (S slot, R114). -/
  | ori (x : SI)
  /-- XORI (S slot, R114). -/
  | xori (x : SI)
  /-- SHL (S slot, R115). -/
  | shl (x : SR)
  /-- SHR (S slot, R115). -/
  | shr (x : SR)
  /-- SAR (S slot, R115). -/
  | sar (x : SR)
  /-- SHLI (S slot, R115). -/
  | shli (x : SI)
  /-- SHRI (S slot, R115). -/
  | shri (x : SI)
  /-- SARI (S slot, R115). -/
  | sari (x : SI)
  /-- MIN (S slot, R112). -/
  | minS (x : SR)
  /-- MAX (S slot, R112). -/
  | maxS (x : SR)
  /-- CMP (S slot, R116). -/
  | cmp (x : SR)
  /-- CMPI (S slot, R116). -/
  | cmpi (x : SI)
  /-- SEL (S slot, R118). -/
  | sel (x : SR)
  /-- MOV (S slot, R119). -/
  | mov (x : SR)
  /-- MOVI (S slot, R119). -/
  | movi (x : SI)
  /-- MOVHI (S slot, R119). -/
  | movhi (x : SI)
  /-- CLZ (S slot, R120). -/
  | clz (x : SR)
  /-- POPC (S slot, R120). -/
  | popc (x : SR)
  /-- BFX (S slot, R121). -/
  | bfx (x : SR)
  /-- BFI (S slot, R121). -/
  | bfi (x : SR)
  /-- ADDSH (S slot, R112). -/
  | addsh (x : SR)
  /-- PLOG (S slot, R117). -/
  | plog (x : SR)
  /-- QPOP (S slot, R123). -/
  | qpop (x : SR)
  /-- QPEEK (S slot, R123). -/
  | qpeek (x : SR)
  /-- QCNT (S slot, R123). -/
  | qcnt (x : SR)
  /-- MOVS (S slot, R124). -/
  | movs (x : SR)
  /-- MOVSW (S slot, R126). -/
  | movsw (x : SR)
  /-- EGET (S slot, R127). -/
  | eget (x : SR)
  /-- ESET (S slot, R128). -/
  | eset (x : SR)
  /-- BR (S slot, R82). -/
  | br (x : SB)
  /-- JMP (S slot, R82). -/
  | jmp (x : SB)
  /-- JR (S slot, R82). -/
  | jr (x : SR)
  /-- CALL (S slot, R82). -/
  | call (x : SB)
  /-- CALLR (S slot, R82). -/
  | callr (x : SR)
  /-- RET (S slot, R82). -/
  | ret (x : SR)
  /-- LOOP (S slot, R85). -/
  | loop (x : SR)
  /-- LOOPI (S slot, R85). -/
  | loopi (x : SI)
  /-- LBRK (S slot, R87). -/
  | lbrk (x : SB)
  /-- IF (S slot, R92). -/
  | ifD (x : SB)
  /-- SPLIT (S slot, R95). -/
  | split (x : SB)
  /-- ELSE (S slot, R93). -/
  | elseD (x : SB)
  /-- JOIN (S slot, R94). -/
  | join (x : SR)
  /-- EXIT (S slot, R94). -/
  | exit (x : SR)
  /-- HALT (S slot, R99). -/
  | halt (x : SR)
  /-- WAIT (S slot, R100). -/
  | wait (x : SR)
  /-- IDLE (S slot, R101). -/
  | idle (x : SR)
  /-- FCHK (S slot, R102). -/
  | fchk (x : SR)
  /-- SEGLD (S slot, R106). -/
  | segld (x : SI)
  /-- LD (S slot, R145). -/
  | ld (x : SM)
  /-- ST (S slot, R145). -/
  | st (x : SM)
  /-- LDX (S slot, R145). -/
  | ldx (x : SM)
  /-- STX (S slot, R145). -/
  | stx (x : SM)
  /-- AMO (S slot, R145). -/
  | amo (x : SM)
  /-- SWAP (S slot, R145). -/
  | swap (x : SM)
  /-- CAS (S slot, R145). -/
  | cas (x : SM)
  /-- INCB (S slot, R145). -/
  | incb (x : SM)
  /-- FENCE (S slot, R148). -/
  | fence (x : SR)
  /-- PREF (S slot, R147). -/
  | pref (x : SM)
  /-- BAR_INIT (S slot, R248). -/
  | barInit (x : SR)
  /-- BAR_ARRIVE (S slot, R248). -/
  | barArrive (x : SR)
  /-- BAR_WAIT (S slot, R249). -/
  | barWait (x : SR)
  /-- BAR_SYNC (S slot, R249). -/
  | barSync (x : SR)
  /-- BAR_EXPECT (S slot, R248). -/
  | barExpect (x : SR)
  /-- BAR_TEST (S slot, R248). -/
  | barTest (x : SR)
  /-- SSTEP (S slot, R251). -/
  | sstep (x : SR)
  /-- GBALLOT (S slot, R243). -/
  | gballot (x : SR)
  /-- GSCAN (S slot, R243). -/
  | gscan (x : SR)
  /-- GREDS (S slot, R243). -/
  | greds (x : SR)
  /-- QPUSH (S slot, R295). -/
  | qpush (x : SR)
  /-- QRES (S slot, R295). -/
  | qres (x : SR)
  /-- SIG (S slot, R297). -/
  | sig (x : SR)
  /-- SIGW (S slot, R298). -/
  | sigw (x : SR)
  /-- NEXT (S slot, R299). -/
  | next (x : SR)
  /-- TIME (S slot, R312). -/
  | time (x : SR)
  /-- SLACK (S slot, R312). -/
  | slack (x : SR)
  /-- PROG (S slot, R313). -/
  | prog (x : SR)
  /-- VSET (S slot, R314). -/
  | vset (x : SR)
  /-- ECOMMIT (S slot, R315). -/
  | ecommit (x : SR)
  /-- ENDG (S slot, R316). -/
  | endg (x : SR)
  /-- RFAM (S slot, R255). -/
  | rfam (x : SR)
  /-- RSTAT (S slot, R268). -/
  | rstat (x : SR)
  /-- RCUR (S slot, R268). -/
  | rcur (x : SR)
  /-- TRAP (S slot, R328). -/
  | trap (x : SI)
  /-- TRET (S slot, R329). -/
  | tret (x : SR)
  /-- SYSR (S slot, R326). -/
  | sysr (x : SR)
  /-- SYSW (S slot, R326). -/
  | sysw (x : SR)
  /-- TLBINV (S slot, R336). -/
  | tlbinv (x : SR)
  /-- PGSHARE (S slot, R338). -/
  | pgshare (x : SR)
  /-- PGUNMAP (S slot, R338). -/
  | pgunmap (x : SR)
  /-- PGCOW (S slot, R338). -/
  | pgcow (x : SR)
  /-- CONT (S slot, R334). -/
  | cont (x : SR)
  /-- CRESUME (S slot, R335). -/
  | cresume (x : SR)
  /-- PARKRD (S slot, R331). -/
  | parkrd (x : SR)
  /-- UNPARK (S slot, R333). -/
  | unpark (x : SR)
  /-- SUSPEND (S slot, R343). -/
  | suspend (x : SR)
  /-- TADD (V slot, R202). -/
  | tadd (x : VT)
  /-- TSUB (V slot, R202). -/
  | tsub (x : VT)
  /-- TMUL (V slot, R202). -/
  | tmul (x : VT)
  /-- TFMA (V slot, R202). -/
  | tfma (x : VT)
  /-- TFMS (V slot, R202). -/
  | tfms (x : VT)
  /-- TMIN (V slot, R204). -/
  | tmin (x : VT)
  /-- TMAX (V slot, R204). -/
  | tmax (x : VT)
  /-- TABS (V slot, R202). -/
  | tabs (x : VT)
  /-- TNEG (V slot, R202). -/
  | tneg (x : VT)
  /-- TSCL (V slot, R203). -/
  | tscl (x : VS)
  /-- TADDS (V slot, R203). -/
  | tadds (x : VS)
  /-- TEXP2 (V slot, R205). -/
  | texp2 (x : VT)
  /-- TLOG2 (V slot, R205). -/
  | tlog2 (x : VT)
  /-- TRCP (V slot, R205). -/
  | trcp (x : VT)
  /-- TRSQ (V slot, R205). -/
  | trsq (x : VT)
  /-- TSQRT (V slot, R205). -/
  | tsqrt (x : VT)
  /-- TTANH (V slot, R205). -/
  | ttanh (x : VT)
  /-- TSIGM (V slot, R205). -/
  | tsigm (x : VT)
  /-- TCMP (V slot, R204). -/
  | tcmp (x : VT)
  /-- TSEL (V slot, R204). -/
  | tsel (x : VT)
  /-- TCLAMP (V slot, R204). -/
  | tclamp (x : VT)
  /-- TIADD (V slot, R206). -/
  | tiadd (x : VT)
  /-- TISUB (V slot, R206). -/
  | tisub (x : VT)
  /-- TIMUL (V slot, R206). -/
  | timul (x : VT)
  /-- TAND (V slot, R206). -/
  | tand (x : VT)
  /-- TOR (V slot, R206). -/
  | tor (x : VT)
  /-- TXOR (V slot, R206). -/
  | txor (x : VT)
  /-- TSHL (V slot, R206). -/
  | tshl (x : VT)
  /-- TSHR (V slot, R206). -/
  | tshr (x : VT)
  /-- TSAR (V slot, R206). -/
  | tsar (x : VT)
  /-- TIMIN (V slot, R206). -/
  | timin (x : VT)
  /-- TIMAX (V slot, R206). -/
  | timax (x : VT)
  /-- TCVT (V slot, R207). -/
  | tcvt (x : VT)
  /-- TMOV (V slot, R208). -/
  | tmov (x : VT)
  /-- TZERO (V slot, R208). -/
  | tzero (x : VT)
  /-- TIOTA (V slot, R208). -/
  | tiota (x : VT)
  /-- TTRN (V slot, R209). -/
  | ttrn (x : VT)
  /-- SHAPE (V slot, R210). -/
  | shape (x : VS)
  /-- SHGET (V slot, R210). -/
  | shget (x : VT)
  /-- RROT (V slot, R212). -/
  | rrot (x : VS)
  /-- RBC (V slot, R213). -/
  | rbc (x : VT)
  /-- RRED (V slot, R214). -/
  | rred (x : VT)
  /-- CROT (V slot, R212). -/
  | crot (x : VS)
  /-- CBC (V slot, R213). -/
  | cbc (x : VT)
  /-- CRED (V slot, R214). -/
  | cred (x : VT)
  /-- KCMP (V slot, R215). -/
  | kcmp (x : VT)
  /-- KOP (V slot, R215). -/
  | kop (x : VT)
  /-- KSET (V slot, R215). -/
  | kset (x : VS)
  /-- KCNT (V slot, R215). -/
  | kcnt (x : VT)
  /-- EADD (V slot, R217). -/
  | eadd (x : VT)
  /-- ESUB (V slot, R217). -/
  | esub (x : VT)
  /-- EMUL (V slot, R217). -/
  | emul (x : VT)
  /-- EAND (V slot, R217). -/
  | eand (x : VT)
  /-- EOR (V slot, R217). -/
  | eor (x : VT)
  /-- ESHL (V slot, R217). -/
  | eshl (x : VT)
  /-- ESHR (V slot, R217). -/
  | eshr (x : VT)
  /-- EMIN (V slot, R217). -/
  | emin (x : VT)
  /-- EMAX (V slot, R217). -/
  | emax (x : VT)
  /-- ECMP (V slot, R217). -/
  | ecmp (x : VT)
  /-- ESEL (V slot, R217). -/
  | esel (x : VT)
  /-- EID (V slot, R217). -/
  | eid (x : VT)
  /-- EMOVT (V slot, R218). -/
  | emovt (x : VT)
  /-- ETMOV (V slot, R218). -/
  | etmov (x : VT)
  /-- GSHUF (V slot, R239). -/
  | gshuf (x : VT)
  /-- GBC (V slot, R239). -/
  | gbc (x : VS)
  /-- GROT (V slot, R239). -/
  | grot (x : VS)
  /-- GRED (V slot, R240). -/
  | gred (x : VT)
  /-- GCOMP (V slot, R241). -/
  | gcomp (x : VT)
  /-- TLD (V slot, R152). -/
  | tld (x : VS)
  /-- TST (V slot, R152). -/
  | tst (x : VS)
  /-- TLDK (V slot, R152). -/
  | tldk (x : VS)
  /-- LDE (V slot, R152). -/
  | lde (x : VS)
  /-- STE (V slot, R152). -/
  | ste (x : VS)
  /-- MMA (M slot, R225). -/
  | mma (x : MF)
  /-- MMAZ (M slot, R225). -/
  | mmaz (x : MF)
  /-- MMAT (M slot, R225). -/
  | mmat (x : MF)
  /-- MMAS (M slot, R227). -/
  | mmas (x : MF)
  /-- PRUNE (M slot, R228). -/
  | prune (x : MF)
  /-- SQD (M slot, R229). -/
  | sqd (x : MF)
  /-- TOPK (M slot, R230). -/
  | topk (x : MF)
  /-- ACCRD (M slot, R231). -/
  | accrd (x : MF)
  /-- ACCWR (M slot, R232). -/
  | accwr (x : MF)
  /-- ACCZ (M slot, R233). -/
  | accz (x : MF)
  /-- ACCSC_SCALE (M slot, R234). -/
  | accscScale (x : MF)
  /-- ACCSC_LOAD (M slot, R234). -/
  | accscLoad (x : MF)
  /-- ACCSC_STORE (M slot, R234). -/
  | accscStore (x : MF)
  /-- HSIGN (M slot, R257). -/
  | hsign (x : MF)
  /-- HIDX (M slot, R258). -/
  | hidx (x : MF)
  /-- COPY (X slot, R182). -/
  | copy (x : XF)
  /-- GATHER (X slot, R185). -/
  | gather (x : XF)
  /-- SCATTER (X slot, R185). -/
  | scatter (x : XF)
  /-- PUT (X slot, R186). -/
  | put (x : XF)
  /-- GET (X slot, R186). -/
  | get (x : XF)
  /-- RGATH (X slot, R189). -/
  | rgath (x : XF)
  /-- FILL (X slot, R183). -/
  | fill (x : XF)
  /-- SEAL (X slot, R190). -/
  | seal (x : XF)
  /-- BWAIT (X slot, R191). -/
  | bwait (x : XF)
  /-- PREFT (X slot, R184). -/
  | preft (x : XF)
  /-- PIN (X slot, R194). -/
  | pin (x : XF)
  /-- UNPIN (X slot, R194). -/
  | unpin (x : XF)
  /-- GLD (X slot, R149). -/
  | gld (x : XF)
  /-- GST (X slot, R149). -/
  | gst (x : XF)
  /-- GLDE (X slot, R149). -/
  | glde (x : XF)
  /-- GSTE (X slot, R149). -/
  | gste (x : XF)
  /-- GAMO (X slot, R149). -/
  | gamo (x : XF)
  /-- RPROBE (X slot, R263). -/
  | rprobe (x : XF)
  /-- RINS (X slot, R264). -/
  | rins (x : XF)
  /-- RDEL (X slot, R264). -/
  | rdel (x : XF)
  /-- RMIG (X slot, R265). -/
  | rmig (x : XF)
  /-- RRET (X slot, R266). -/
  | rret (x : XF)
  /-- R26: a bundle with no slot word issues. -/
  | emptyBundle
  /-- R100: the count of a WAIT has run out. -/
  | waitCountExpiry (gid q : Nat)
  /-- R371: the first deferred cause held is taken before the next bundle. -/
  | deferredTrap (gid : Nat)
  /-- R80, R107: the address fetched has no bundle. -/
  | fetchFault (gid q : Nat)
  /-- R40, R41: the bundle fetched is not an instruction. -/
  | reservedEncoding (gid q : Nat)
  /-- R96: the fragment that has stopped issuing, with its tokens clear and its stores performed, is gone. -/
  | fragmentEnd (gid : Nat)
  /-- R105: a frame of instruction memory holds its segment in full; ecc is the kind of an uncorrectable error, 0 for none. -/
  | segmentFetchComplete (die slot frame ecc : Nat)
  /-- R145, R146, R160: an access of a sequencer is performed. -/
  | seqAccessComplete (gid tkt : Nat) (how : AccHow)
  /-- R161: a load performed early is confirmed, or performed again. -/
  | loadConfirm (gid tkt : Nat)
  /-- R162: a gang's program time moves on by itself. -/
  | ptsAdvance (gid n : Nat)
  /-- R139, R140: a page walk ends and fills the shared TLB; acc 0 read, 1 write, 2 atomic, 3 fetch. -/
  | tlbWalkComplete (die part va acc : Nat)
  /-- R299: a block of items reaches a die's reserve. -/
  | dispenserRefill (die lid : Nat)
  /-- R325: a handler has run for 50 us. -/
  | watchdogExpiry (gid : Nat)
  /-- R175, R195: a channel starts a part and makes its checks. -/
  | copyPartStart (gid pid : Nat)
  /-- R177, R195: a part performs what is left of it and completes, or stops at a fault. -/
  | copyPartComplete (gid pid : Nat)
  /-- R164, R192: a part reads the units rd, writes the units wr and credits their bytes. -/
  | copyCredit (gid pid : Nat) (rd wr : List Nat)
  /-- R187, R188: a peer package answers a part; data is what a GET brings. -/
  | peerAck (gid pid : Nat) (ok : Bool) (data : List (BitVec 8))
  /-- R150, R142: one engine's part of a global access is performed; ecc 0 for no error. -/
  | engineAccessComplete (gid tkt lane ecc : Nat)
  /-- R262: the Retrieval Unit performs a part, or the next step of it. -/
  | retrievalPartComplete (gid pid : Nat)
  /-- R45, R46: the results whose count has run out land. -/
  | resultLanding (gid : Nat)
  /-- R272, R273: a Referee polls run-list entry n. -/
  | queuePoll (die n : Nat)
  /-- R276, R283: a LAUNCH packet is read. -/
  | launchPacket (die : Nat) (qd : Nat)
  /-- R283: a checked launch takes its window and claims and is admitted. -/
  | launchAdmit (die : Nat)
  /-- R287: the tensors a launch or a prefetch claimed are resident. -/
  | adaptationLoadComplete (lid : Nat)
  /-- R278: a WAITSIG packet is read. -/
  | waitsigPacket (die qd : Nat)
  /-- R278, R279: a WAITSIG completes, or aborts its queue. -/
  | waitsigComplete (die qd : Nat)
  /-- R279: a packet of an aborted queue is released. -/
  | abortedPacket (die qd : Nat)
  /-- R280: a COND packet compares and skips. -/
  | condPacket (die qd : Nat)
  /-- R281: a SIGNAL packet is performed. -/
  | signalPacket (die qd : Nat)
  /-- R281: a COPY packet moves its bytes. -/
  | copyPacket (die qd : Nat)
  /-- R277: a NOP packet, or a skipped packet, is released. -/
  | nopPacket (die qd : Nat)
  /-- R281: a PREFETCH packet asks for its adaptations. -/
  | prefetchPacket (die qd : Nat)
  /-- R277: a packet completes and its CSIG is decremented. -/
  | packetComplete (die qd idx : Nat)
  /-- R20, R21, R289, R291: a Referee places the next instance. -/
  | instancePlace (die : Nat)
  /-- R339, R341, R343: a drained context is written to its image. -/
  | contextSave (gid : Nat)
  /-- R340: a victim whose drain is too slow is frozen. -/
  | preemptFreeze (gid : Nat)
  /-- R342: a saved context resumes on a die. -/
  | contextRestore (gid die : Nat)
  /-- R99, R285: an instance ends, and with the last one its launch. -/
  | instanceEnd (gid : Nat)
  /-- R293: an idle die asks for a queue. -/
  | stealRequest (die : Nat)
  /-- R293: a Referee hands a queue to the die that asked. -/
  | stealHandover (die : Nat)
  /-- R306: a die's time unit reaches a launch's trigger. -/
  | deadlineTrigger (die lid : Nat)
  /-- R307 to R309: a drained gang enters its endgame. -/
  | endgameEntry (gid : Nat)
  /-- R310: a die's time unit reaches a launch's deadline. -/
  | deadlineStop (die lid : Nat)
  /-- R301: a Sync message. -/
  | sync (m : PtpMsg)
  /-- R301: a Follow_Up message. -/
  | followUp (m : PtpMsg)
  /-- R301: the time unit sends a Delay_Req at time t3. -/
  | delayReq (t3 : Nat)
  /-- R301, R302: a Delay_Resp message, and the offset it completes. -/
  | delayResp (m : PtpMsg)
  /-- R301, R302: an Announce message. -/
  | announce (m : PtpMsg) (d : PtpDataset)
  /-- R301: a message the profile ignores. -/
  | ignoredPtpMessage (kind : Nat)
  /-- R302: no Announce of a master within its timeout. -/
  | announceReceiptTimeout (src : Nat)
  /-- R304: a write of TCFG through the register window. -/
  | tcfgWrite (die : Nat) (v : BitVec 64)
  /-- R344: a write of KILL through the register window. -/
  | kill (die : Nat) (v : BitVec 64)
  /-- R364: a NOTIFY entry of a die is written through the register window. -/
  | notifyWrite (die n : Nat) (v : BitVec 64)
  /-- R326, R363: the control node writes a system register. -/
  | registerWrite (die num : Nat) (v : BitVec 64)
  /-- R363: the control node writes n bytes of memory. -/
  | physicalWindowWrite (pa n : Nat) (v : BitVec 64)
  /-- R363: the control node reads n bytes of memory. -/
  | physicalWindowRead (pa n : Nat)
  /-- R365: a peer writes here, or reads as many bytes as data has. -/
  | fabricInbound (port addr : Nat) (put : Bool) (data : List (BitVec 8))
  /-- R365: a link is trained. -/
  | fabricLinkUp (port : Nat)
  /-- R365: a port leaves service. -/
  | fabricPortDown (port : Nat)
  /-- R367: a droop is detected. -/
  | droopDetect (die : Nat)
  /-- R362: the power limiter starts or stops stretching. -/
  | powerLimit (on : Bool)
  /-- R367: the ageing sensors are sampled. -/
  | ageingSample (die khz : Nat) (ps : Nat)
  /-- R367, R368: firmware re-plans the voltage, or retires a slot. -/
  | voltageReplan (die mv : Nat) (retire : Option Nat)
  /-- R322: an uncorrectable soft error in register state. -/
  | soft (gid sub lane : Nat)
  /-- R322, R366: a corrected soft or data error. -/
  | correctedError (die : Nat) (data : Bool)
  /-- R369: a boot stage is measured and verified. -/
  | dieBoot (die : Nat) (image signature : List (BitVec 8)) (k : Nat)
  /-- R369: a measurement register is extended. -/
  | measExtend (die k : Nat) (h : List (BitVec 8))
  /-- R370: an attestation request and the dies' replies. -/
  | attestationRequest (nonce : List (BitVec 8))
  /-- R42, R44: a tokened operation of the S slot takes effect. -/
  | tokenedOperationComplete (gid oid : Nat)
  /-- R367: the supply recovers. -/
  | supplyRecovery (die : Nat)
  deriving DecidableEq, Repr

end Sys2Proof
end

