-- ==== Sys2Proof/WellFormed.lean ====
section
/-! DEFINITION. Which instructions are encodings the class chapters allow, by what the instruction itself holds: its
reserved fields and the values of its modifiers (R40, second row), and the ranges of its register codes (R35, R40, third
row). What depends on the bundle (the literal) or on the launch (the formats) is checked where it is known, at decode in
the machine. -/

namespace Sys2Proof

/-- The fields the spec fixes hold what it fixes, and every modifier, function and size is one the class statement
assigns (R40, second row; R109 to R110 and the encoding tables of each class). -/
def Instr.fieldsOk : Instr → Bool
  | .nop x => x.d == 0 && x.a == 0 && x.b == 0 && x.f == 0
  | .add x => x.f == 0
  | .sub x => x.f == 0
  | .addi _ => true
  | .mul x => x.f == 0
  | .mulh x => x.f.toNat ≤ 2
  | .div x => x.f.toNat ≤ 1
  | .rem x => x.f.toNat ≤ 1
  | .andS x => x.f == 0
  | .orS x => x.f == 0
  | .xorS x => x.f == 0
  | .andn x => x.f == 0
  | .andi _ => true
  | .ori _ => true
  | .xori _ => true
  | .shl x => x.f == 0
  | .shr x => x.f == 0
  | .sar x => x.f == 0
  | .shli x => (x.imm &&& 0x1c0 == 0)
  | .shri x => (x.imm &&& 0x1c0 == 0)
  | .sari x => (x.imm &&& 0x1c0 == 0)
  | .minS x => x.f.toNat ≤ 1
  | .maxS x => x.f.toNat ≤ 1
  | .cmp x => x.f == 0
  | .cmpi _ => true
  | .sel _ => true
  | .mov x => x.b == 0 && x.f == 0
  | .movi x => x.a == 0
  | .movhi _ => true
  | .clz x => x.b == 0 && x.f == 0
  | .popc x => x.b == 0 && x.f == 0
  | .bfx x => x.f.toNat ≤ 1
  | .bfi x => x.f == 0
  | .addsh _ => true
  | .plog _ => true
  | .qpop x => x.b == 0 && x.f == 0
  | .qpeek x => x.b == 0 && x.f == 0
  | .qcnt x => x.b == 0 && x.f == 0
  | .movs x => x.b == 0 && x.f == 0
  | .movsw x => x.b == 0 && x.f == 0
  | .eget x => (x.b &&& 0x30 == 0) && x.f == 0
  | .eset x => x.d == 0 && (x.b &&& 0x30 == 0) && x.f == 0
  | .br _ => true
  | .jmp x => x.p == 0 && x.n == 0
  | .jr x => x.d == 0 && x.b == 0 && x.f == 0
  | .call _ => true
  | .callr x => x.b == 0 && x.f == 0
  | .ret x => x.d == 0 && x.b == 0 && x.f == 0
  | .loop x => (x.d &&& 0x3c == 0) && x.f == 0
  | .loopi x => (x.d &&& 0x3c == 0)
  | .lbrk _ => true
  | .ifD x => x.p.toNat ≤ 4
  | .split x => x.p.toNat ≤ 4
  | .elseD x => x.p == 0 && x.n == 0 && x.disp == 0
  | .join x => x.d == 0 && x.a == 0 && x.b == 0 && x.f == 0 && x.p == 0
  | .exit x => x.d == 0 && x.a == 0 && x.b == 0 && x.f == 0
  | .halt x => x.d == 0 && x.a == 0 && x.b == 0 && x.f == 0
  | .wait x => x.d == 0 && x.b == 0 && x.f == 0
  | .idle x => x.d == 0 && x.b == 0 && x.f == 0
  | .fchk x => x.d == 0 && x.a == 0 && x.b == 0 && x.f == 0
  | .segld x => x.d == 0
  | .ld _ => true
  | .st x => x.sign == 0
  | .ldx _ => true
  | .stx x => x.sign == 0
  | .amo x => 2 ≤ x.size.toNat && x.b.toNat ≤ 7
  | .swap x => 2 ≤ x.size.toNat
  | .cas x => 2 ≤ x.size.toNat
  | .incb x => 2 ≤ x.size.toNat
  | .fence x => x.d == 0 && x.a == 0 && x.b == 0 && x.f.toNat ≤ 3
  | .pref x => x.d == 0 && x.size == 0 && x.sign == 0
  | .barInit _ => true
  | .barArrive _ => true
  | .barWait x => x.d == 0 && x.f == 0
  | .barSync x => x.d == 0 && x.f == 0
  | .barExpect x => x.d == 0
  | .barTest x => x.b == 0
  | .sstep x => x.d == 0 && x.a == 0 && x.b == 0 && x.f == 0
  | .gballot x => x.b == 0 && x.f.toNat ≤ 1
  | .gscan x => (x.a &&& 0x30 == 0) && (x.b &&& 0x30 == 0) && x.f.toNat ≤ 2
  | .greds x => (x.a &&& 0x30 == 0) && x.b == 0
  | .qpush _ => true
  | .qres _ => true
  | .sig x => x.d.toNat ≤ 1
  | .sigw x => x.f.toNat ≤ 5
  | .next x => x.a == 0 && x.b == 0 && x.f == 0
  | .time x => x.a == 0 && x.b == 0 && x.f == 0
  | .slack x => x.a == 0 && x.b == 0 && x.f.toNat ≤ 1
  | .prog x => x.d == 0 && x.b == 0
  | .vset _ => true
  | .ecommit x => x.a == 0 && x.b == 0
  | .endg x => x.d == 0 && x.a == 0 && x.b == 0 && x.f.toNat ≤ 1
  | .rfam x => x.d == 0
  | .rstat _ => true
  | .rcur x => x.b == 0
  | .trap x => x.d == 0
  | .tret x => x.d == 0 && x.a == 0 && x.b == 0 && x.f == 0
  | .sysr x => x.b == 0 && x.f == 0
  | .sysw x => x.d == 0 && x.f == 0
  | .tlbinv x => x.d == 0
  | .pgshare x => x.d == 0 && x.b == 0
  | .pgunmap x => x.d == 0 && x.b == 0
  | .pgcow x => x.d == 0 && x.b == 0
  | .cont x => x.d == 0 && x.b == 0 && x.f == 0
  | .cresume x => x.d == 0 && x.b == 0 && x.f == 0
  | .parkrd x => x.b == 0 && x.f == 0
  | .unpark x => x.d == 0 && x.b == 0 && x.f == 0
  | .suspend x => x.d == 0
  | .tadd x => x.mod == 0
  | .tsub x => x.mod == 0
  | .tmul x => x.mod == 0
  | .tfma x => x.mod == 0
  | .tfms x => x.mod == 0
  | .tmin x => x.mod == 0
  | .tmax x => x.mod == 0
  | .tabs x => x.tb == 0 && x.mod == 0
  | .tneg x => x.tb == 0 && x.mod == 0
  | .tscl x => x.mod == 0
  | .tadds x => x.mod == 0
  | .texp2 x => x.tb == 0 && x.mod == 0
  | .tlog2 x => x.tb == 0 && x.mod == 0
  | .trcp x => x.tb == 0 && x.mod == 0
  | .trsq x => x.tb == 0 && x.mod == 0
  | .tsqrt x => x.tb == 0 && x.mod == 0
  | .ttanh x => x.tb == 0 && x.mod == 0
  | .tsigm x => x.tb == 0 && x.mod == 0
  | .tcmp x => x.mod.toNat ≤ 7
  | .tsel x => x.mod == 0
  | .tclamp x => x.mod == 0
  | .tiadd x => x.mod == 0
  | .tisub x => x.mod == 0
  | .timul x => x.mod == 0
  | .tand x => x.mod == 0
  | .tor x => x.mod == 0
  | .txor x => x.mod == 0
  | .tshl x => x.mod == 0
  | .tshr x => x.mod == 0
  | .tsar x => x.mod == 0
  | .timin x => x.mod == 0
  | .timax x => x.mod == 0
  | .tcvt x => (x.tb &&& 0x8 == 0) && (x.mod &&& 0x8 == 0)
  | .tmov x => x.tb == 0 && x.fs == 0 && x.mod == 0
  | .tzero x => x.ta == 0 && x.tb == 0 && x.fs == 0 && x.mod == 0
  | .tiota x => x.ta == 0 && x.tb == 0 && x.mod.toNat ≤ 2
  | .ttrn x => x.tb == 0 && x.mod == 0
  | .shape x => x.fs == 0 && x.k == 0 && (x.mod.toNat ≤ 1 && (x.mod == 1 || x.ta == 0) && (x.mod != 1 || x.s == 0))
  | .shget x => x.tb == 0 && x.fs == 0 && x.k == 0 && x.mod == 0
  | .rrot x => x.mod.toNat ≤ 1
  | .rbc x => x.mod == 0
  | .rred x => x.tb == 0 && x.mod.toNat ≤ 3
  | .crot x => x.fs == 0 && x.mod.toNat ≤ 1
  | .cbc x => x.fs == 0 && x.mod == 0
  | .cred x => x.tb == 0 && x.mod.toNat ≤ 3
  | .kcmp x => (x.td &&& 0x8 == 0) && x.mod.toNat ≤ 7
  | .kop x => (x.td &&& 0x8 == 0) && (x.ta &&& 0x8 == 0) && (x.tb &&& 0x8 == 0) && x.fs == 0 && x.k == 0 && x.mod.toNat ≤ 7
  | .kset x => (x.td &&& 0x8 == 0) && x.fs == 0 && x.k == 0 && (x.mod.toNat ≤ 2 && (x.mod == 2 || x.ta == 0) && (x.mod != 2 || x.s == 0))
  | .kcnt x => (x.ta &&& 0x8 == 0) && x.tb == 0 && x.fs == 0 && x.k == 0 && x.mod == 0
  | .eadd x => x.fs == 0 && x.k == 0 && x.mod == 0
  | .esub x => x.fs == 0 && x.k == 0 && x.mod == 0
  | .emul x => x.fs == 0 && x.k == 0 && x.mod == 0
  | .eand x => x.fs == 0 && x.k == 0 && x.mod == 0
  | .eor x => x.fs == 0 && x.k == 0 && x.mod == 0
  | .eshl x => x.fs == 0 && x.k == 0 && x.mod == 0
  | .eshr x => x.fs == 0 && x.k == 0 && x.mod.toNat ≤ 1
  | .emin x => x.fs == 0 && x.k == 0 && x.mod.toNat ≤ 1
  | .emax x => x.fs == 0 && x.k == 0 && x.mod.toNat ≤ 1
  | .ecmp x => (x.td &&& 0xc == 0) && x.fs == 0 && x.k == 0 && x.mod.toNat ≤ 7
  | .esel x => x.fs == 0 && x.k == 0 && (x.mod &&& 0xc == 0)
  | .eid x => x.ta == 0 && x.tb == 0 && x.fs == 0 && x.k == 0 && x.mod.toNat ≤ 1
  | .emovt x => x.k == 0 && x.mod.toNat ≤ 1
  | .etmov x => x.k == 0 && x.mod == 0
  | .gshuf x => x.mod == 0
  | .gbc x => x.mod == 0
  | .grot x => x.mod.toNat ≤ 1
  | .gred x => x.tb == 0 && x.mod.toNat ≤ 3
  | .gcomp x => x.fs == 0 && x.mod == 0
  | .tld x => x.fs == 0 && x.mod.toNat ≤ 1
  | .tst x => x.fs == 0 && x.mod.toNat ≤ 1
  | .tldk x => x.fs == 0 && x.mod.toNat ≤ 1
  | .lde x => (x.fs &&& 0x6 == 0) && x.k == 0
  | .ste x => x.fs == 0 && x.k == 0
  | .mma x => (x.mod &&& 0x6 == 0)
  | .mmaz x => (x.mod &&& 0x6 == 0)
  | .mmat x => (x.mod &&& 0x6 == 0)
  | .mmas x => (x.mod &&& 0x4 == 0)
  | .prune x => x.acc == 0 && x.fsB == 0 && (x.mod &&& 0x4 == 0)
  | .sqd x => (x.mod &&& 0x6 == 0)
  | .topk x => x.fsA == 0 && x.fsB == 0
  | .accrd x => x.ta == 0
  | .accwr x => x.tb == 0
  | .accz x => x.ta == 0 && x.tb == 0 && x.fsA == 0 && x.fsB == 0 && x.mod == 0
  | .accscScale x => x.ta == 0 && x.tb == 0 && x.fsB == 0 && (x.mod &&& 0x4 == 0)
  | .accscLoad x => x.acc == 0 && x.tb == 0 && x.fsA == 0 && x.fsB == 1 && x.k == 0 && (x.mod &&& 0x4 == 0)
  | .accscStore x => x.acc == 0 && x.ta == 0 && x.fsA == 0 && x.fsB == 2 && x.k == 0 && (x.mod &&& 0x4 == 0)
  | .hsign x => x.fsA == 0 && x.fsB == 0 && x.mod == 0
  | .hidx x => x.acc == 0 && x.fsA == 0 && x.fsB == 0 && (x.mod &&& 0x4 == 0)
  | .copy x => (x.b &&& 0x30 == 0) && x.mod == 0
  | .gather x => (x.b &&& 0x30 == 0) && x.mod == 0
  | .scatter x => (x.b &&& 0x30 == 0) && x.mod == 0
  | .put x => (x.b &&& 0x30 == 0) && x.mod == 0
  | .get x => (x.b &&& 0x30 == 0) && x.mod == 0
  | .rgath x => (x.b &&& 0x30 == 0) && x.mod == 0
  | .fill x => (x.b &&& 0x30 == 0) && x.mod == 0
  | .seal x => x.bar == 31 && x.a == 0 && x.b == 0 && x.mod == 0
  | .bwait x => x.bar == 31 && x.b == 0 && (x.mod &&& 0x2 == 0)
  | .preft x => x.bar == 31 && (x.b &&& 0x30 == 0) && x.mod == 0
  | .pin x => x.bar == 31 && (x.b &&& 0x30 == 0) && x.mod == 0
  | .unpin x => x.bar == 31 && (x.b &&& 0x30 == 0) && x.mod == 0
  | .gld x => x.bar == 31 && (x.b &&& 0x30 == 0)
  | .gst x => x.bar == 31 && (x.b &&& 0x30 == 0)
  | .glde x => x.bar == 31 && (x.b &&& 0x30 == 0)
  | .gste x => x.bar == 31 && (x.b &&& 0x30 == 0)
  | .gamo x => x.bar == 31 && (x.b &&& 0x30 == 0)
  | .rprobe x => x.bar == 31 && (x.b &&& 0x30 == 0) && x.mod == 0
  | .rins x => x.bar == 31 && (x.b &&& 0x30 == 0) && x.mod == 0
  | .rdel x => x.bar == 31 && (x.b &&& 0x30 == 0) && x.mod == 0
  | .rmig x => x.bar == 31 && (x.b &&& 0x30 == 0) && x.mod == 0
  | .rret x => x.bar == 31 && (x.b &&& 0x30 == 0) && x.mod == 0
  | _ => true

/-- Every register code is one its field allows (R35, R40 third row): a predicate, queue register, condition bit,
special register, barrier number, row-mask destination or even engine scalar. A special register that is never writable
counts here (R323, subcode 0x03). -/
def Instr.codesOk : Instr → Bool
  | .plog x => x.d.toNat ≤ 7 && x.a.toNat ≤ 7 && x.b.toNat ≤ 7
  | .qpop x => x.a.toNat ≤ 7
  | .qpeek x => x.a.toNat ≤ 7
  | .qcnt x => x.a.toNat ≤ 7
  | .movs x => x.a.toNat ≤ 0x1B
  | .movsw x => x.d == 0x15 || x.d == 0x19
  | .barInit x => x.d.toNat ≤ 31
  | .barArrive x => x.a.toNat ≤ 31
  | .barWait x => x.a.toNat ≤ 31
  | .barSync x => x.a.toNat ≤ 31
  | .barExpect x => x.a.toNat ≤ 31
  | .barTest x => x.a.toNat ≤ 31
  | .gballot x => x.a.toNat ≤ 3
  | .next x => x.d.toNat ≤ 7
  | .kcmp x => x.td &&& 7 != 0
  | .kop x => x.td &&& 7 != 0
  | .kset x => x.td &&& 7 != 0
  | .gste x => x.b &&& 1 == 0
  | .gamo x => x.b &&& 1 == 0
  | _ => true

/-- The 6-bit fields read as sequencer scalars through operand() (R29, R54). -/
def Instr.scalarSources : Instr → List (BitVec 6)
  | .add x => [x.a, x.b]
  | .sub x => [x.a, x.b]
  | .addi x => [x.a]
  | .mul x => [x.a, x.b]
  | .mulh x => [x.a, x.b]
  | .div x => [x.a, x.b]
  | .rem x => [x.a, x.b]
  | .andS x => [x.a, x.b]
  | .orS x => [x.a, x.b]
  | .xorS x => [x.a, x.b]
  | .andn x => [x.a, x.b]
  | .andi x => [x.a]
  | .ori x => [x.a]
  | .xori x => [x.a]
  | .shl x => [x.a, x.b]
  | .shr x => [x.a, x.b]
  | .sar x => [x.a, x.b]
  | .shli x => [x.a]
  | .shri x => [x.a]
  | .sari x => [x.a]
  | .minS x => [x.a, x.b]
  | .maxS x => [x.a, x.b]
  | .cmp x => [x.a, x.b]
  | .cmpi x => [x.a]
  | .sel x => [x.a, x.b]
  | .mov x => [x.a]
  | .movhi x => [x.a]
  | .clz x => [x.a]
  | .popc x => [x.a]
  | .bfx x => [x.a, x.b]
  | .bfi x => [x.a, x.b]
  | .addsh x => [x.a, x.b]
  | .movsw x => [x.a]
  | .eget x => [x.a]
  | .eset x => [x.a]
  | .jr x => [x.a]
  | .callr x => [x.a]
  | .ret x => [x.a]
  | .loop x => [x.a, x.b]
  | .loopi x => [x.a]
  | .wait x => [x.a]
  | .idle x => [x.a]
  | .segld x => [x.a]
  | .ld x => [x.a]
  | .st x => [x.d, x.a]
  | .ldx x => [x.a, x.b]
  | .stx x => [x.d, x.a, x.b]
  | .amo x => [x.a]
  | .swap x => [x.a, x.b]
  | .cas x => [x.a, x.b]
  | .incb x => [x.a, x.b]
  | .pref x => [x.a]
  | .barInit x => [x.a, x.b]
  | .barArrive x => [x.b]
  | .barWait x => [x.b]
  | .barSync x => [x.b]
  | .barExpect x => [x.b]
  | .qpush x => [x.a, x.b]
  | .qres x => [x.a, x.b]
  | .sig x => [x.a, x.b]
  | .sigw x => [x.a, x.b]
  | .prog x => [x.a]
  | .vset x => [x.a, x.b]
  | .rfam x => [x.a, x.b]
  | .rstat x => [x.a, x.b]
  | .rcur x => [x.a]
  | .trap x => [x.a]
  | .sysr x => [x.a]
  | .sysw x => [x.a, x.b]
  | .tlbinv x => [x.a, x.b]
  | .pgshare x => [x.a]
  | .pgunmap x => [x.a]
  | .pgcow x => [x.a]
  | .cont x => [x.a]
  | .cresume x => [x.a]
  | .parkrd x => [x.a]
  | .unpark x => [x.a]
  | .suspend x => [x.a, x.b]
  | .tscl x => [x.s]
  | .tadds x => [x.s]
  | .shape x => [x.s]
  | .rrot x => [x.s]
  | .crot x => [x.s]
  | .kset x => [x.s]
  | .gbc x => [x.s]
  | .grot x => [x.s]
  | .tld x => [x.s]
  | .tst x => [x.s]
  | .tldk x => [x.s]
  | .lde x => [x.s]
  | .ste x => [x.s]
  | .copy x => [x.a]
  | .gather x => [x.a]
  | .scatter x => [x.a]
  | .put x => [x.a]
  | .get x => [x.a]
  | .rgath x => [x.a]
  | .fill x => [x.a]
  | .bwait x => [x.a]
  | .preft x => [x.a]
  | .pin x => [x.a]
  | .unpin x => [x.a]
  | .gld x => [x.a]
  | .gst x => [x.a]
  | .glde x => [x.a]
  | .gste x => [x.a]
  | .gamo x => [x.a]
  | .rprobe x => [x.a]
  | .rins x => [x.a]
  | .rdel x => [x.a]
  | .rmig x => [x.a]
  | .rret x => [x.a]
  | _ => []

/-- The 6-bit fields that name a destination, in which code 63 is never allowed (R29). -/
def Instr.scalarDests : Instr → List (BitVec 6)
  | .add x => [x.d]
  | .sub x => [x.d]
  | .addi x => [x.d]
  | .mul x => [x.d]
  | .mulh x => [x.d]
  | .div x => [x.d]
  | .rem x => [x.d]
  | .andS x => [x.d]
  | .orS x => [x.d]
  | .xorS x => [x.d]
  | .andn x => [x.d]
  | .andi x => [x.d]
  | .ori x => [x.d]
  | .xori x => [x.d]
  | .shl x => [x.d]
  | .shr x => [x.d]
  | .sar x => [x.d]
  | .shli x => [x.d]
  | .shri x => [x.d]
  | .sari x => [x.d]
  | .minS x => [x.d]
  | .maxS x => [x.d]
  | .sel x => [x.d]
  | .mov x => [x.d]
  | .movi x => [x.d]
  | .movhi x => [x.d]
  | .clz x => [x.d]
  | .popc x => [x.d]
  | .bfx x => [x.d]
  | .bfi x => [x.d]
  | .addsh x => [x.d]
  | .qpop x => [x.d]
  | .qpeek x => [x.d]
  | .qcnt x => [x.d]
  | .movs x => [x.d]
  | .eget x => [x.d]
  | .callr x => [x.d]
  | .ld x => [x.d]
  | .ldx x => [x.d]
  | .amo x => [x.d]
  | .swap x => [x.d]
  | .cas x => [x.d]
  | .incb x => [x.d]
  | .barArrive x => [x.d]
  | .barTest x => [x.d]
  | .gballot x => [x.d]
  | .gscan x => [x.d]
  | .greds x => [x.d]
  | .qpush x => [x.d]
  | .qres x => [x.d]
  | .sigw x => [x.d]
  | .time x => [x.d]
  | .slack x => [x.d]
  | .vset x => [x.d]
  | .ecommit x => [x.d]
  | .rstat x => [x.d]
  | .rcur x => [x.d]
  | .sysr x => [x.d]
  | .parkrd x => [x.d]
  | _ => []

/-- An SB form with p = 0 and n = 1 (R31, R40). -/
def Instr.sbOk : Instr → Bool
  | .br x | .call x | .lbrk x | .ifD x | .split x => !(x.p == 0 && x.n == 1)
  | _ => true

/-- Well formed: no row of R40's table that looks at the instruction alone refuses it. Events have no encoding. -/
def Instr.wf (i : Instr) : Bool :=
  i.fieldsOk && i.codesOk && i.scalarDests.all (· != 63) && i.sbOk

end Sys2Proof
end

