-- ==== Sys2Proof/Decode.lean ====
section
/-! DEFINITION. Encodings (R25 to R30, R32 to R34, R37 to R39): the fields of the eight slot-word forms, the four
opcode maps, the bundle with its head and literal, decoding and its inverse. -/

namespace Sys2Proof

/-- The word of the SR form with its opcode in bits [31:24]. -/
def SR.pack (op : Nat) (x : SR) : BitVec 32 := (BitVec.ofNat 8 op ++ x.d ++ x.a ++ x.b ++ x.f ++ x.p).cast (by decide)

/-- The fields of a word read in the SR form. -/
def SR.unpack (w : BitVec 32) : SR := ⟨w.extractLsb' 18 6, w.extractLsb' 12 6, w.extractLsb' 6 6, w.extractLsb' 3 3, w.extractLsb' 0 3⟩

/-- The word of the SI form with its opcode in bits [31:24]. -/
def SI.pack (op : Nat) (x : SI) : BitVec 32 := (BitVec.ofNat 8 op ++ x.d ++ x.a ++ x.imm ++ x.p).cast (by decide)

/-- The fields of a word read in the SI form. -/
def SI.unpack (w : BitVec 32) : SI := ⟨w.extractLsb' 18 6, w.extractLsb' 12 6, w.extractLsb' 3 9, w.extractLsb' 0 3⟩

/-- The word of the SB form with its opcode in bits [31:24]. -/
def SB.pack (op : Nat) (x : SB) : BitVec 32 := (BitVec.ofNat 8 op ++ x.p ++ x.n ++ x.disp).cast (by decide)

/-- The fields of a word read in the SB form. -/
def SB.unpack (w : BitVec 32) : SB := ⟨w.extractLsb' 21 3, w.extractLsb' 20 1, w.extractLsb' 0 20⟩

/-- The word of the SM form with its opcode in bits [31:24]. -/
def SM.pack (op : Nat) (x : SM) : BitVec 32 := (BitVec.ofNat 8 op ++ x.d ++ x.a ++ x.b ++ x.size ++ x.tok ++ x.sign).cast (by decide)

/-- The fields of a word read in the SM form. -/
def SM.unpack (w : BitVec 32) : SM := ⟨w.extractLsb' 18 6, w.extractLsb' 12 6, w.extractLsb' 6 6, w.extractLsb' 4 2, w.extractLsb' 1 3, w.extractLsb' 0 1⟩

/-- The word of the VT form with its opcode in bits [31:24]. -/
def VT.pack (op : Nat) (x : VT) : BitVec 32 := (BitVec.ofNat 8 op ++ x.td ++ x.ta ++ x.tb ++ x.fs ++ x.k ++ x.stage ++ x.mod).cast (by decide)

/-- The fields of a word read in the VT form. -/
def VT.unpack (w : BitVec 32) : VT := ⟨w.extractLsb' 20 4, w.extractLsb' 16 4, w.extractLsb' 12 4, w.extractLsb' 9 3, w.extractLsb' 6 3, w.extractLsb' 4 2, w.extractLsb' 0 4⟩

/-- The word of the VS form with its opcode in bits [31:24]. -/
def VS.pack (op : Nat) (x : VS) : BitVec 32 := (BitVec.ofNat 8 op ++ x.td ++ x.ta ++ x.s ++ x.fs ++ x.k ++ x.stage ++ x.mod).cast (by decide)

/-- The fields of a word read in the VS form. -/
def VS.unpack (w : BitVec 32) : VS := ⟨w.extractLsb' 20 4, w.extractLsb' 16 4, w.extractLsb' 10 6, w.extractLsb' 7 3, w.extractLsb' 4 3, w.extractLsb' 2 2, w.extractLsb' 0 2⟩

/-- The word of the MF form with its opcode in bits [31:24]. -/
def MF.pack (op : Nat) (x : MF) : BitVec 32 := (BitVec.ofNat 8 op ++ x.acc ++ x.ta ++ x.tb ++ x.fsA ++ x.fsB ++ x.k ++ x.stage ++ x.mod).cast (by decide)

/-- The fields of a word read in the MF form. -/
def MF.unpack (w : BitVec 32) : MF := ⟨w.extractLsb' 22 2, w.extractLsb' 18 4, w.extractLsb' 14 4, w.extractLsb' 11 3, w.extractLsb' 8 3, w.extractLsb' 5 3, w.extractLsb' 3 2, w.extractLsb' 0 3⟩

/-- The word of the XF form with its opcode in bits [31:24]. -/
def XF.pack (op : Nat) (x : XF) : BitVec 32 := (BitVec.ofNat 8 op ++ x.tok ++ x.bar ++ x.a ++ x.b ++ x.stage ++ x.mod).cast (by decide)

/-- The fields of a word read in the XF form. -/
def XF.unpack (w : BitVec 32) : XF := ⟨w.extractLsb' 21 3, w.extractLsb' 16 5, w.extractLsb' 10 6, w.extractLsb' 4 6, w.extractLsb' 2 2, w.extractLsb' 0 2⟩

/-- The S-slot opcode map (R37): the instruction of a word, or none for a reserved opcode. -/
def decodeS (w : BitVec 32) : Option Instr :=
  match (w.extractLsb' 24 8).toNat with
  | 0x00 => some (.nop (SR.unpack w))
  | 0x01 => some (.add (SR.unpack w))
  | 0x02 => some (.sub (SR.unpack w))
  | 0x03 => some (.addi (SI.unpack w))
  | 0x04 => some (.mul (SR.unpack w))
  | 0x05 => some (.mulh (SR.unpack w))
  | 0x06 => some (.div (SR.unpack w))
  | 0x07 => some (.rem (SR.unpack w))
  | 0x08 => some (.andS (SR.unpack w))
  | 0x09 => some (.orS (SR.unpack w))
  | 0x0A => some (.xorS (SR.unpack w))
  | 0x0B => some (.andn (SR.unpack w))
  | 0x0C => some (.andi (SI.unpack w))
  | 0x0D => some (.ori (SI.unpack w))
  | 0x0E => some (.xori (SI.unpack w))
  | 0x0F => some (.shl (SR.unpack w))
  | 0x10 => some (.shr (SR.unpack w))
  | 0x11 => some (.sar (SR.unpack w))
  | 0x12 => some (.shli (SI.unpack w))
  | 0x13 => some (.shri (SI.unpack w))
  | 0x14 => some (.sari (SI.unpack w))
  | 0x15 => some (.minS (SR.unpack w))
  | 0x16 => some (.maxS (SR.unpack w))
  | 0x17 => some (.cmp (SR.unpack w))
  | 0x18 => some (.cmpi (SI.unpack w))
  | 0x19 => some (.sel (SR.unpack w))
  | 0x1A => some (.mov (SR.unpack w))
  | 0x1B => some (.movi (SI.unpack w))
  | 0x1C => some (.movhi (SI.unpack w))
  | 0x1D => some (.clz (SR.unpack w))
  | 0x1E => some (.popc (SR.unpack w))
  | 0x1F => some (.bfx (SR.unpack w))
  | 0x20 => some (.bfi (SR.unpack w))
  | 0x21 => some (.addsh (SR.unpack w))
  | 0x22 => some (.plog (SR.unpack w))
  | 0x23 => some (.qpop (SR.unpack w))
  | 0x24 => some (.qpeek (SR.unpack w))
  | 0x25 => some (.qcnt (SR.unpack w))
  | 0x26 => some (.movs (SR.unpack w))
  | 0x27 => some (.movsw (SR.unpack w))
  | 0x28 => some (.eget (SR.unpack w))
  | 0x29 => some (.eset (SR.unpack w))
  | 0x30 => some (.br (SB.unpack w))
  | 0x31 => some (.jmp (SB.unpack w))
  | 0x32 => some (.jr (SR.unpack w))
  | 0x33 => some (.call (SB.unpack w))
  | 0x34 => some (.callr (SR.unpack w))
  | 0x35 => some (.ret (SR.unpack w))
  | 0x36 => some (.loop (SR.unpack w))
  | 0x37 => some (.loopi (SI.unpack w))
  | 0x38 => some (.lbrk (SB.unpack w))
  | 0x39 => some (.ifD (SB.unpack w))
  | 0x3A => some (.split (SB.unpack w))
  | 0x3B => some (.elseD (SB.unpack w))
  | 0x3C => some (.join (SR.unpack w))
  | 0x3D => some (.exit (SR.unpack w))
  | 0x3E => some (.halt (SR.unpack w))
  | 0x3F => some (.wait (SR.unpack w))
  | 0x40 => some (.idle (SR.unpack w))
  | 0x41 => some (.fchk (SR.unpack w))
  | 0x42 => some (.segld (SI.unpack w))
  | 0x50 => some (.ld (SM.unpack w))
  | 0x51 => some (.st (SM.unpack w))
  | 0x52 => some (.ldx (SM.unpack w))
  | 0x53 => some (.stx (SM.unpack w))
  | 0x54 => some (.amo (SM.unpack w))
  | 0x55 => some (.swap (SM.unpack w))
  | 0x56 => some (.cas (SM.unpack w))
  | 0x57 => some (.incb (SM.unpack w))
  | 0x58 => some (.fence (SR.unpack w))
  | 0x59 => some (.pref (SM.unpack w))
  | 0x60 => some (.barInit (SR.unpack w))
  | 0x61 => some (.barArrive (SR.unpack w))
  | 0x62 => some (.barWait (SR.unpack w))
  | 0x63 => some (.barSync (SR.unpack w))
  | 0x64 => some (.barExpect (SR.unpack w))
  | 0x65 => some (.barTest (SR.unpack w))
  | 0x66 => some (.sstep (SR.unpack w))
  | 0x67 => some (.gballot (SR.unpack w))
  | 0x68 => some (.gscan (SR.unpack w))
  | 0x69 => some (.greds (SR.unpack w))
  | 0x70 => some (.qpush (SR.unpack w))
  | 0x71 => some (.qres (SR.unpack w))
  | 0x72 => some (.sig (SR.unpack w))
  | 0x73 => some (.sigw (SR.unpack w))
  | 0x74 => some (.next (SR.unpack w))
  | 0x78 => some (.time (SR.unpack w))
  | 0x79 => some (.slack (SR.unpack w))
  | 0x7A => some (.prog (SR.unpack w))
  | 0x7B => some (.vset (SR.unpack w))
  | 0x7C => some (.ecommit (SR.unpack w))
  | 0x7D => some (.endg (SR.unpack w))
  | 0x80 => some (.rfam (SR.unpack w))
  | 0x81 => some (.rstat (SR.unpack w))
  | 0x82 => some (.rcur (SR.unpack w))
  | 0xC0 => some (.trap (SI.unpack w))
  | 0xC1 => some (.tret (SR.unpack w))
  | 0xC2 => some (.sysr (SR.unpack w))
  | 0xC3 => some (.sysw (SR.unpack w))
  | 0xC4 => some (.tlbinv (SR.unpack w))
  | 0xC5 => some (.pgshare (SR.unpack w))
  | 0xC6 => some (.pgunmap (SR.unpack w))
  | 0xC7 => some (.pgcow (SR.unpack w))
  | 0xC8 => some (.cont (SR.unpack w))
  | 0xC9 => some (.cresume (SR.unpack w))
  | 0xCA => some (.parkrd (SR.unpack w))
  | 0xCB => some (.unpark (SR.unpack w))
  | 0xCC => some (.suspend (SR.unpack w))
  | _ => none

/-- The V-slot opcode map (R38): the instruction of a word, or none for a reserved opcode. -/
def decodeV (w : BitVec 32) : Option Instr :=
  match (w.extractLsb' 24 8).toNat with
  | 0x00 => some (.tadd (VT.unpack w))
  | 0x01 => some (.tsub (VT.unpack w))
  | 0x02 => some (.tmul (VT.unpack w))
  | 0x03 => some (.tfma (VT.unpack w))
  | 0x04 => some (.tfms (VT.unpack w))
  | 0x05 => some (.tmin (VT.unpack w))
  | 0x06 => some (.tmax (VT.unpack w))
  | 0x07 => some (.tabs (VT.unpack w))
  | 0x08 => some (.tneg (VT.unpack w))
  | 0x09 => some (.tscl (VS.unpack w))
  | 0x0A => some (.tadds (VS.unpack w))
  | 0x0B => some (.texp2 (VT.unpack w))
  | 0x0C => some (.tlog2 (VT.unpack w))
  | 0x0D => some (.trcp (VT.unpack w))
  | 0x0E => some (.trsq (VT.unpack w))
  | 0x0F => some (.tsqrt (VT.unpack w))
  | 0x10 => some (.ttanh (VT.unpack w))
  | 0x11 => some (.tsigm (VT.unpack w))
  | 0x12 => some (.tcmp (VT.unpack w))
  | 0x13 => some (.tsel (VT.unpack w))
  | 0x14 => some (.tclamp (VT.unpack w))
  | 0x40 => some (.tiadd (VT.unpack w))
  | 0x41 => some (.tisub (VT.unpack w))
  | 0x42 => some (.timul (VT.unpack w))
  | 0x43 => some (.tand (VT.unpack w))
  | 0x44 => some (.tor (VT.unpack w))
  | 0x45 => some (.txor (VT.unpack w))
  | 0x46 => some (.tshl (VT.unpack w))
  | 0x47 => some (.tshr (VT.unpack w))
  | 0x48 => some (.tsar (VT.unpack w))
  | 0x49 => some (.timin (VT.unpack w))
  | 0x4A => some (.timax (VT.unpack w))
  | 0x60 => some (.tcvt (VT.unpack w))
  | 0x61 => some (.tmov (VT.unpack w))
  | 0x62 => some (.tzero (VT.unpack w))
  | 0x63 => some (.tiota (VT.unpack w))
  | 0x64 => some (.ttrn (VT.unpack w))
  | 0x65 => some (.shape (VS.unpack w))
  | 0x66 => some (.shget (VT.unpack w))
  | 0x70 => some (.rrot (VS.unpack w))
  | 0x71 => some (.rbc (VT.unpack w))
  | 0x72 => some (.rred (VT.unpack w))
  | 0x73 => some (.crot (VS.unpack w))
  | 0x74 => some (.cbc (VT.unpack w))
  | 0x75 => some (.cred (VT.unpack w))
  | 0x80 => some (.kcmp (VT.unpack w))
  | 0x81 => some (.kop (VT.unpack w))
  | 0x82 => some (.kset (VS.unpack w))
  | 0x83 => some (.kcnt (VT.unpack w))
  | 0x90 => some (.eadd (VT.unpack w))
  | 0x91 => some (.esub (VT.unpack w))
  | 0x92 => some (.emul (VT.unpack w))
  | 0x93 => some (.eand (VT.unpack w))
  | 0x94 => some (.eor (VT.unpack w))
  | 0x95 => some (.eshl (VT.unpack w))
  | 0x96 => some (.eshr (VT.unpack w))
  | 0x97 => some (.emin (VT.unpack w))
  | 0x98 => some (.emax (VT.unpack w))
  | 0x99 => some (.ecmp (VT.unpack w))
  | 0x9A => some (.esel (VT.unpack w))
  | 0x9B => some (.eid (VT.unpack w))
  | 0x9C => some (.emovt (VT.unpack w))
  | 0x9D => some (.etmov (VT.unpack w))
  | 0xA0 => some (.gshuf (VT.unpack w))
  | 0xA1 => some (.gbc (VS.unpack w))
  | 0xA2 => some (.grot (VS.unpack w))
  | 0xA3 => some (.gred (VT.unpack w))
  | 0xA4 => some (.gcomp (VT.unpack w))
  | 0xB0 => some (.tld (VS.unpack w))
  | 0xB1 => some (.tst (VS.unpack w))
  | 0xB2 => some (.tldk (VS.unpack w))
  | 0xB3 => some (.lde (VS.unpack w))
  | 0xB4 => some (.ste (VS.unpack w))
  | _ => none

/-- The M-slot opcode map (R39): the instruction of a word, or none for a reserved opcode. -/
def decodeM (w : BitVec 32) : Option Instr :=
  match (w.extractLsb' 24 8).toNat with
  | 0x00 => some (.mma (MF.unpack w))
  | 0x01 => some (.mmaz (MF.unpack w))
  | 0x02 => some (.mmat (MF.unpack w))
  | 0x03 => some (.mmas (MF.unpack w))
  | 0x04 => some (.prune (MF.unpack w))
  | 0x05 => some (.sqd (MF.unpack w))
  | 0x06 => some (.topk (MF.unpack w))
  | 0x07 => some (.accrd (MF.unpack w))
  | 0x08 => some (.accwr (MF.unpack w))
  | 0x09 => some (.accz (MF.unpack w))
  | 0x0A => match (MF.unpack w).fsB with
    | 0 => some (.accscScale (MF.unpack w))
    | 1 => some (.accscLoad (MF.unpack w))
    | 2 => some (.accscStore (MF.unpack w))
    | _ => none
  | 0x20 => some (.hsign (MF.unpack w))
  | 0x21 => some (.hidx (MF.unpack w))
  | _ => none

/-- The X-slot opcode map (R39): the instruction of a word, or none for a reserved opcode. -/
def decodeX (w : BitVec 32) : Option Instr :=
  match (w.extractLsb' 24 8).toNat with
  | 0x00 => some (.copy (XF.unpack w))
  | 0x01 => some (.gather (XF.unpack w))
  | 0x02 => some (.scatter (XF.unpack w))
  | 0x03 => some (.put (XF.unpack w))
  | 0x04 => some (.get (XF.unpack w))
  | 0x05 => some (.rgath (XF.unpack w))
  | 0x06 => some (.fill (XF.unpack w))
  | 0x07 => some (.seal (XF.unpack w))
  | 0x08 => some (.bwait (XF.unpack w))
  | 0x09 => some (.preft (XF.unpack w))
  | 0x0A => some (.pin (XF.unpack w))
  | 0x0B => some (.unpin (XF.unpack w))
  | 0x20 => some (.gld (XF.unpack w))
  | 0x21 => some (.gst (XF.unpack w))
  | 0x22 => some (.glde (XF.unpack w))
  | 0x23 => some (.gste (XF.unpack w))
  | 0x24 => some (.gamo (XF.unpack w))
  | 0x30 => some (.rprobe (XF.unpack w))
  | 0x31 => some (.rins (XF.unpack w))
  | 0x32 => some (.rdel (XF.unpack w))
  | 0x33 => some (.rmig (XF.unpack w))
  | 0x34 => some (.rret (XF.unpack w))
  | _ => none

/-- Why a slot word is not an instruction, by name (R40): the opcode is reserved, or a field the spec fixes is not what
it fixes. -/
inductive Reject where
  | reservedOpcode
  | reservedField
  deriving DecidableEq, Repr

/-- The instruction whose opcode a slot word carries. -/
def opcodeOf (k : SlotKind) (w : BitVec 32) : Option Instr :=
  match k with
  | .S => decodeS w
  | .V => decodeV w
  | .M => decodeM w
  | .X => decodeX w

/-- Decoding a slot word: total, refusing by name. Register codes out of range and literals are checked with the bundle
(R40, R41). ACCSC with a function of 3 to 7 has no row of its own: it counts as a reserved field (R223). -/
def decodeWord (k : SlotKind) (w : BitVec 32) : Except Reject Instr :=
  match opcodeOf k w with
  | none => if k = .M ∧ w.extractLsb' 24 8 = 0x0A then .error .reservedField else .error .reservedOpcode
  | some i => if i.fieldsOk then .ok i else .error .reservedField

/-- The slot kind and word of an instruction (R30, R32, R33, R34, R37 to R39); none for an event. -/
def Instr.encode : Instr → Option (SlotKind × BitVec 32)
  | .nop x => some (.S, x.pack 0x00)
  | .add x => some (.S, x.pack 0x01)
  | .sub x => some (.S, x.pack 0x02)
  | .addi x => some (.S, x.pack 0x03)
  | .mul x => some (.S, x.pack 0x04)
  | .mulh x => some (.S, x.pack 0x05)
  | .div x => some (.S, x.pack 0x06)
  | .rem x => some (.S, x.pack 0x07)
  | .andS x => some (.S, x.pack 0x08)
  | .orS x => some (.S, x.pack 0x09)
  | .xorS x => some (.S, x.pack 0x0A)
  | .andn x => some (.S, x.pack 0x0B)
  | .andi x => some (.S, x.pack 0x0C)
  | .ori x => some (.S, x.pack 0x0D)
  | .xori x => some (.S, x.pack 0x0E)
  | .shl x => some (.S, x.pack 0x0F)
  | .shr x => some (.S, x.pack 0x10)
  | .sar x => some (.S, x.pack 0x11)
  | .shli x => some (.S, x.pack 0x12)
  | .shri x => some (.S, x.pack 0x13)
  | .sari x => some (.S, x.pack 0x14)
  | .minS x => some (.S, x.pack 0x15)
  | .maxS x => some (.S, x.pack 0x16)
  | .cmp x => some (.S, x.pack 0x17)
  | .cmpi x => some (.S, x.pack 0x18)
  | .sel x => some (.S, x.pack 0x19)
  | .mov x => some (.S, x.pack 0x1A)
  | .movi x => some (.S, x.pack 0x1B)
  | .movhi x => some (.S, x.pack 0x1C)
  | .clz x => some (.S, x.pack 0x1D)
  | .popc x => some (.S, x.pack 0x1E)
  | .bfx x => some (.S, x.pack 0x1F)
  | .bfi x => some (.S, x.pack 0x20)
  | .addsh x => some (.S, x.pack 0x21)
  | .plog x => some (.S, x.pack 0x22)
  | .qpop x => some (.S, x.pack 0x23)
  | .qpeek x => some (.S, x.pack 0x24)
  | .qcnt x => some (.S, x.pack 0x25)
  | .movs x => some (.S, x.pack 0x26)
  | .movsw x => some (.S, x.pack 0x27)
  | .eget x => some (.S, x.pack 0x28)
  | .eset x => some (.S, x.pack 0x29)
  | .br x => some (.S, x.pack 0x30)
  | .jmp x => some (.S, x.pack 0x31)
  | .jr x => some (.S, x.pack 0x32)
  | .call x => some (.S, x.pack 0x33)
  | .callr x => some (.S, x.pack 0x34)
  | .ret x => some (.S, x.pack 0x35)
  | .loop x => some (.S, x.pack 0x36)
  | .loopi x => some (.S, x.pack 0x37)
  | .lbrk x => some (.S, x.pack 0x38)
  | .ifD x => some (.S, x.pack 0x39)
  | .split x => some (.S, x.pack 0x3A)
  | .elseD x => some (.S, x.pack 0x3B)
  | .join x => some (.S, x.pack 0x3C)
  | .exit x => some (.S, x.pack 0x3D)
  | .halt x => some (.S, x.pack 0x3E)
  | .wait x => some (.S, x.pack 0x3F)
  | .idle x => some (.S, x.pack 0x40)
  | .fchk x => some (.S, x.pack 0x41)
  | .segld x => some (.S, x.pack 0x42)
  | .ld x => some (.S, x.pack 0x50)
  | .st x => some (.S, x.pack 0x51)
  | .ldx x => some (.S, x.pack 0x52)
  | .stx x => some (.S, x.pack 0x53)
  | .amo x => some (.S, x.pack 0x54)
  | .swap x => some (.S, x.pack 0x55)
  | .cas x => some (.S, x.pack 0x56)
  | .incb x => some (.S, x.pack 0x57)
  | .fence x => some (.S, x.pack 0x58)
  | .pref x => some (.S, x.pack 0x59)
  | .barInit x => some (.S, x.pack 0x60)
  | .barArrive x => some (.S, x.pack 0x61)
  | .barWait x => some (.S, x.pack 0x62)
  | .barSync x => some (.S, x.pack 0x63)
  | .barExpect x => some (.S, x.pack 0x64)
  | .barTest x => some (.S, x.pack 0x65)
  | .sstep x => some (.S, x.pack 0x66)
  | .gballot x => some (.S, x.pack 0x67)
  | .gscan x => some (.S, x.pack 0x68)
  | .greds x => some (.S, x.pack 0x69)
  | .qpush x => some (.S, x.pack 0x70)
  | .qres x => some (.S, x.pack 0x71)
  | .sig x => some (.S, x.pack 0x72)
  | .sigw x => some (.S, x.pack 0x73)
  | .next x => some (.S, x.pack 0x74)
  | .time x => some (.S, x.pack 0x78)
  | .slack x => some (.S, x.pack 0x79)
  | .prog x => some (.S, x.pack 0x7A)
  | .vset x => some (.S, x.pack 0x7B)
  | .ecommit x => some (.S, x.pack 0x7C)
  | .endg x => some (.S, x.pack 0x7D)
  | .rfam x => some (.S, x.pack 0x80)
  | .rstat x => some (.S, x.pack 0x81)
  | .rcur x => some (.S, x.pack 0x82)
  | .trap x => some (.S, x.pack 0xC0)
  | .tret x => some (.S, x.pack 0xC1)
  | .sysr x => some (.S, x.pack 0xC2)
  | .sysw x => some (.S, x.pack 0xC3)
  | .tlbinv x => some (.S, x.pack 0xC4)
  | .pgshare x => some (.S, x.pack 0xC5)
  | .pgunmap x => some (.S, x.pack 0xC6)
  | .pgcow x => some (.S, x.pack 0xC7)
  | .cont x => some (.S, x.pack 0xC8)
  | .cresume x => some (.S, x.pack 0xC9)
  | .parkrd x => some (.S, x.pack 0xCA)
  | .unpark x => some (.S, x.pack 0xCB)
  | .suspend x => some (.S, x.pack 0xCC)
  | .tadd x => some (.V, x.pack 0x00)
  | .tsub x => some (.V, x.pack 0x01)
  | .tmul x => some (.V, x.pack 0x02)
  | .tfma x => some (.V, x.pack 0x03)
  | .tfms x => some (.V, x.pack 0x04)
  | .tmin x => some (.V, x.pack 0x05)
  | .tmax x => some (.V, x.pack 0x06)
  | .tabs x => some (.V, x.pack 0x07)
  | .tneg x => some (.V, x.pack 0x08)
  | .tscl x => some (.V, x.pack 0x09)
  | .tadds x => some (.V, x.pack 0x0A)
  | .texp2 x => some (.V, x.pack 0x0B)
  | .tlog2 x => some (.V, x.pack 0x0C)
  | .trcp x => some (.V, x.pack 0x0D)
  | .trsq x => some (.V, x.pack 0x0E)
  | .tsqrt x => some (.V, x.pack 0x0F)
  | .ttanh x => some (.V, x.pack 0x10)
  | .tsigm x => some (.V, x.pack 0x11)
  | .tcmp x => some (.V, x.pack 0x12)
  | .tsel x => some (.V, x.pack 0x13)
  | .tclamp x => some (.V, x.pack 0x14)
  | .tiadd x => some (.V, x.pack 0x40)
  | .tisub x => some (.V, x.pack 0x41)
  | .timul x => some (.V, x.pack 0x42)
  | .tand x => some (.V, x.pack 0x43)
  | .tor x => some (.V, x.pack 0x44)
  | .txor x => some (.V, x.pack 0x45)
  | .tshl x => some (.V, x.pack 0x46)
  | .tshr x => some (.V, x.pack 0x47)
  | .tsar x => some (.V, x.pack 0x48)
  | .timin x => some (.V, x.pack 0x49)
  | .timax x => some (.V, x.pack 0x4A)
  | .tcvt x => some (.V, x.pack 0x60)
  | .tmov x => some (.V, x.pack 0x61)
  | .tzero x => some (.V, x.pack 0x62)
  | .tiota x => some (.V, x.pack 0x63)
  | .ttrn x => some (.V, x.pack 0x64)
  | .shape x => some (.V, x.pack 0x65)
  | .shget x => some (.V, x.pack 0x66)
  | .rrot x => some (.V, x.pack 0x70)
  | .rbc x => some (.V, x.pack 0x71)
  | .rred x => some (.V, x.pack 0x72)
  | .crot x => some (.V, x.pack 0x73)
  | .cbc x => some (.V, x.pack 0x74)
  | .cred x => some (.V, x.pack 0x75)
  | .kcmp x => some (.V, x.pack 0x80)
  | .kop x => some (.V, x.pack 0x81)
  | .kset x => some (.V, x.pack 0x82)
  | .kcnt x => some (.V, x.pack 0x83)
  | .eadd x => some (.V, x.pack 0x90)
  | .esub x => some (.V, x.pack 0x91)
  | .emul x => some (.V, x.pack 0x92)
  | .eand x => some (.V, x.pack 0x93)
  | .eor x => some (.V, x.pack 0x94)
  | .eshl x => some (.V, x.pack 0x95)
  | .eshr x => some (.V, x.pack 0x96)
  | .emin x => some (.V, x.pack 0x97)
  | .emax x => some (.V, x.pack 0x98)
  | .ecmp x => some (.V, x.pack 0x99)
  | .esel x => some (.V, x.pack 0x9A)
  | .eid x => some (.V, x.pack 0x9B)
  | .emovt x => some (.V, x.pack 0x9C)
  | .etmov x => some (.V, x.pack 0x9D)
  | .gshuf x => some (.V, x.pack 0xA0)
  | .gbc x => some (.V, x.pack 0xA1)
  | .grot x => some (.V, x.pack 0xA2)
  | .gred x => some (.V, x.pack 0xA3)
  | .gcomp x => some (.V, x.pack 0xA4)
  | .tld x => some (.V, x.pack 0xB0)
  | .tst x => some (.V, x.pack 0xB1)
  | .tldk x => some (.V, x.pack 0xB2)
  | .lde x => some (.V, x.pack 0xB3)
  | .ste x => some (.V, x.pack 0xB4)
  | .mma x => some (.M, x.pack 0x00)
  | .mmaz x => some (.M, x.pack 0x01)
  | .mmat x => some (.M, x.pack 0x02)
  | .mmas x => some (.M, x.pack 0x03)
  | .prune x => some (.M, x.pack 0x04)
  | .sqd x => some (.M, x.pack 0x05)
  | .topk x => some (.M, x.pack 0x06)
  | .accrd x => some (.M, x.pack 0x07)
  | .accwr x => some (.M, x.pack 0x08)
  | .accz x => some (.M, x.pack 0x09)
  | .accscScale x => some (.M, x.pack 0x0A)
  | .accscLoad x => some (.M, x.pack 0x0A)
  | .accscStore x => some (.M, x.pack 0x0A)
  | .hsign x => some (.M, x.pack 0x20)
  | .hidx x => some (.M, x.pack 0x21)
  | .copy x => some (.X, x.pack 0x00)
  | .gather x => some (.X, x.pack 0x01)
  | .scatter x => some (.X, x.pack 0x02)
  | .put x => some (.X, x.pack 0x03)
  | .get x => some (.X, x.pack 0x04)
  | .rgath x => some (.X, x.pack 0x05)
  | .fill x => some (.X, x.pack 0x06)
  | .seal x => some (.X, x.pack 0x07)
  | .bwait x => some (.X, x.pack 0x08)
  | .preft x => some (.X, x.pack 0x09)
  | .pin x => some (.X, x.pack 0x0A)
  | .unpin x => some (.X, x.pack 0x0B)
  | .gld x => some (.X, x.pack 0x20)
  | .gst x => some (.X, x.pack 0x21)
  | .glde x => some (.X, x.pack 0x22)
  | .gste x => some (.X, x.pack 0x23)
  | .gamo x => some (.X, x.pack 0x24)
  | .rprobe x => some (.X, x.pack 0x30)
  | .rins x => some (.X, x.pack 0x31)
  | .rdel x => some (.X, x.pack 0x32)
  | .rmig x => some (.X, x.pack 0x33)
  | .rret x => some (.X, x.pack 0x34)
  | _ => none

/-- The slots in the order their words follow the head (R26), numbered as TRAPSLOT numbers them (R41). -/
def slotKindOf : Nat → SlotKind
  | 0 => .S
  | 1 => .V
  | 2 => .V
  | 3 => .M
  | _ => .X

/-- A bundle's head (R25). -/
structure Head where
  bits : BitVec 16
  deriving DecidableEq, Repr

/-- The wait mask: bit n names tk_n. -/
def Head.wait (h : Head) : BitVec 8 := h.bits.extractLsb' 8 8

/-- The overlay mark. -/
def Head.k (h : Head) : Bool := h.bits.getLsbD 7

/-- A literal word follows the slot words. -/
def Head.l (h : Head) : Bool := h.bits.getLsbD 6

/-- Whether the word of slot n is present. -/
def Head.has (h : Head) (n : Nat) : Bool := n < 6 && h.bits.getLsbD n

/-- The slots present, in order. -/
def Head.slots (h : Head) : List Nat := (List.range 6).filter h.has

/-- The bytes of the bundle: 2 + 4n + 4L (R26). -/
def Head.len (h : Head) : Nat := 2 + 4 * h.slots.length + (if h.l then 4 else 0)

/-- A little-endian value of bytes (R25, R26). -/
def leValue : List Byte → Nat
  | [] => 0
  | b :: bs => b.toNat + 256 * leValue bs

/-- The little-endian bytes of a value. -/
def leBytes (n : Nat) (v : Nat) : List Byte :=
  match n with
  | 0 => []
  | n + 1 => BitVec.ofNat 8 v :: leBytes n (v / 256)

/-- A bundle as it stands in a fetch line: its head, the words of its slots and its literal. -/
structure Bundle where
  head : Head
  words : List (Nat × BitVec 32)
  lit : Option (BitVec 32)
  deriving DecidableEq, Repr

/-- What the bytes from a fetch address to the end of its line hold (R28, R40): the line-end head, a bundle, or one that is
refused (no slot with L set, or past the end of the line), with the slot words that stand in the line whole; the place of a
literal holds 0 then. -/
inductive LineRead where
  | lineEnd
  | bundle (b : Bundle)
  | bad (b : Bundle)
  deriving DecidableEq, Repr

/-- The slot words of a bundle, read in order. -/
def readWords : List Nat → List Byte → List (Nat × BitVec 32)
  | [], _ => []
  | n :: ns, bs => (n, BitVec.ofNat 32 (leValue (bs.take 4))) :: readWords ns (bs.drop 4)

/-- Read the bundle at the start of what is left of a 64-byte fetch line (R25 to R28). -/
def readLine (bs : List Byte) : LineRead :=
  let h : Head := ⟨BitVec.ofNat 16 (leValue (bs.take 2))⟩
  if h.bits = 0 then .lineEnd
  else if (h.slots.isEmpty && h.l) || bs.length < h.len then
    .bad ⟨h, readWords (h.slots.take ((bs.length - 2) / 4)) (bs.drop 2), if h.l then some 0 else none⟩
  else
    let ws := readWords h.slots (bs.drop 2)
    let rest := bs.drop (2 + 4 * h.slots.length)
    .bundle ⟨h, ws, if h.l then some (BitVec.ofNat 32 (leValue (rest.take 4))) else none⟩

/-- The bytes of a bundle (R26). -/
def Bundle.bytes (b : Bundle) : List Byte :=
  leBytes 2 b.head.bits.toNat ++ (b.words.map fun (_, w) => leBytes 4 w.toNat).flatten
    ++ (match b.lit with | some l => leBytes 4 l.toNat | none => [])

/-- The instruction a bare word stands for. The opcode table gives a row no slot and the four slots have opcode spaces of
their own, so the spaces are tried in the order of the slots: S, V, M, X. -/
def decodeBare (w : BitVec 32) : Option (SlotKind × Instr) :=
  [SlotKind.S, .V, .M, .X].findSome? fun k =>
    match decodeWord k w with
    | .ok i => some (k, i)
    | .error _ => none

/-- What the decoder reads from a word numbered as the opcode table numbers it, its little-endian bytes laid out as the
hardware stores them (R26). -/
def decodeTableWord (nbits w : Nat) : Option Instr :=
  let bs := leBytes 4 (w % 2 ^ nbits)
  (decodeBare (BitVec.ofNat 32 (leValue bs))).map (·.2)

end Sys2Proof
end

