-- ==== Sys2Proof/Machine/State.lean ====
section
/-! DEFINITION. The state of the S480 as plain data: one gang in focus and every other gang context, the launches, the
four dies with their shared services, memory, and the instruction that issues at the moment. -/

namespace Sys2Proof.Machine

/-- Memory in one canonical form: addresses strictly rising, no entry equal to what an unlisted address reads as, which
is 0. Physical bytes have their 52-bit address (R133); scratchpad bytes have their window address, with bit 55 set
(R130). -/
abbrev Memory := List Host.Cell

/-- What a byte that nothing is listed for reads as. -/
def Memory.rest : Byte := 0

/-- The canonical form holds from address `lo` on. -/
def Memory.wfFrom (lo : Nat) : Memory → Bool
  | [] => true
  | c :: m => decide (lo ≤ c.1) && decide (c.2 ≠ Memory.rest) && Memory.wfFrom (c.1 + 1) m

/-- The canonical form. -/
def Memory.wf (m : Memory) : Bool := Memory.wfFrom 0 m

/-- The cause codes (R322). -/
inductive Cause where
  | ill | delayctl | slotuse | qund | qovf | dstk | align | page | prot | cow | spmeta | qscope | barerr | shape | soft
  | seg | ecc | rtab | trap
  deriving DecidableEq, Repr

/-- A cause with its detail as TRAPINFO or word 1 of a fault-ring record holds it, and its slot (R323, R41). -/
structure Exc where
  cause : Cause
  info : Word
  slot : Nat
  deriving DecidableEq, Repr

/-- Why the machine stops: an act on memory of an agent other than a gang at an address the spec says is no memory. -/
inductive Fault where
  /-- The control node reads or writes, through the physical window, an address R133 does not back. Raised by
  PHYSICAL_WINDOW_READ and PHYSICAL_WINDOW_WRITE. Safe: the spec gives the access no effect (R363). -/
  | windowUnbacked (pa : Nat)
  /-- A Referee's run list, or a queue descriptor it names, lies at an address R133 does not back. Raised by QUEUE_POLL.
  Safe: the spec gives the Referee's read of a run list at such an address no effect (R272). -/
  | runListUnbacked (pa : Nat)
  deriving DecidableEq, Repr

/-- Why an instruction has no meaning. -/
inductive Refusal where
  /-- The model gives this mnemonic no meaning yet. Raised by Dispatch only. Safe: nothing is said about it. -/
  | notModelled (mnemonic : String)
  deriving DecidableEq, Repr

/-- A place a result lands in (R45, R46). `q` is a sequencer, `l` a lane. -/
inductive Landed where
  | sreg (q : Nat) (r : BitVec 6) (v : Word)
  | pred (q : Nat) (n : BitVec 3) (v : Bool)
  | queue (q : Nat) (n : Nat) (v : Word)
  | tile (l : Nat) (t : BitVec 4) (rows : List (Nat × List Byte)) (shape : Option (Nat × Nat))
  | nibble (l : Nat) (t : BitVec 4) (off : Nat) (high : Bool) (v : Nat)
  | scale (l : Nat) (n : BitVec 2) (cells : List (Nat × List Byte))
  | acc (l : Nat) (a : BitVec 2) (rows : List (Nat × List Byte))
  | kmask (l : Nat) (n : BitVec 3) (v : Word)
  | esc (l : Nat) (n : BitVec 4) (v : Word)
  | cond (l : Nat) (n : BitVec 2) (v : Bool)
  | flags (l : Nat) (f : BitVec 5)
  | clearFlags (l : Nat) (f : BitVec 5)
  | lastBatch (n : BitVec 16)
  | contpc (v : Word)
  | trappc (v : Word)
  | unpark (m : Lanes)
  | sysreg (q : Nat) (sel : Word) (v : Word)
  | sysread (q : Nat) (r : BitVec 6) (sel : Word)
  | token (q : Nat) (sys : Bool) (n : BitVec 3)
  deriving DecidableEq, Repr

/-- Results in flight: the cycles left, what lands, and whether they are those of an M-slot instruction (R236). -/
structure Landing where
  left : Nat
  what : List Landed
  matrix : Bool
  deriving DecidableEq, Repr

/-- A hardware loop frame (R85). `copied` marks the read-only frames of a fragment (R95). -/
structure Frame where
  start : Nat
  fin : Nat
  n : Nat
  neff : Nat
  j : Nat
  s : Nat
  copied : Bool
  deriving DecidableEq, Repr

/-- An entry of the divergence stack (R91). -/
structure DsEntry where
  elsePc : Nat
  joinPc : Nat
  emask : Lanes
  rmask : Lanes
  phase : Bool
  kind : Nat
  deriving DecidableEq, Repr

/-- What a pending transfer does besides at its destination (R87, R94 to R96, R99). `popLoop` holds how many frames were open
when LBRK issued, the last of which it leaves. -/
inductive After where
  | nothing
  | popLoop (depth : Nat)
  | dropFrames
  | startFragment (elseSide : Bool) (m : Lanes)
  | endInstance
  | endFragment
  deriving DecidableEq, Repr

/-- The state of a pending transfer (R83): where fetch goes, or none when it is not taken; the delay bundles left; the
mask at the destination. -/
structure Xfer where
  dst : Option Nat
  left : Nat
  mask : Option Lanes
  after : After
  deriving DecidableEq, Repr

/-- What a sequencer is blocked in (R98 to R101, R148, R249 to R251, R298). -/
inductive Block where
  | none
  | wait (left : Nat)
  | idle (mask : BitVec 8)
  | fence (scope : Nat) (batch : BitVec 16) (tkt : Nat)
  | barWait (b : Nat) (phase : Bool) (seen : Option Nat)
  | barSync (b cnt : Nat) (batch : BitVec 16) (seen : Option Nat)
  | sstep (arrived : Option Nat)
  | sigw (key : Nat) (d : BitVec 6) (cond : Nat) (cmp : Word)
  | tret
  | halted
  | fragmentOver
  | starting
  | dead
  deriving DecidableEq, Repr

/-- A store-buffer entry (R146). `tokened` says that a token stands for it: software that adds one to a context image gives it
none (R343). -/
structure StoreEnt where
  tkt : Nat
  tok : BitVec 3
  sys : Bool
  va : Word
  key : Nat
  data : List Byte
  tokened : Bool
  deriving DecidableEq, Repr

/-- What a sequencer access does at its point (R145, R147, R314). -/
inductive AccKind where
  | load
  | amo (f : Nat) (x : Word)
  | swap (x : Word)
  | cas (expect new : Word)
  | incb (bound : Word)
  | vset (bit : Nat) (v : Bool)
  | pref
  deriving DecidableEq, Repr

/-- A sequencer access that has issued and has not completed. -/
structure SeqAcc where
  tkt : Nat
  q : Nat
  tok : BitVec 3
  sys : Bool
  kind : AccKind
  d : BitVec 6
  va : Word
  key : Nat
  size : Nat
  sign : Bool
  got : Option (Word × Nat)
  shown : Bool
  deriving DecidableEq, Repr

/-- What one engine's part of a global access does (R149). -/
inductive EngKind where
  | gld (len off : Nat)
  | gst (len off : Nat) (src : List Byte)
  | glde (n : BitVec 4) (size : Nat)
  | gste (size : Nat) (v : Word)
  | gamo (n : BitVec 4) (f : Nat) (v : Word)
  deriving DecidableEq, Repr

/-- One engine's part of a global access that has not completed. `got` holds the bytes of a GLD that has had its point. -/
structure EngAcc where
  tkt : Nat
  q : Nat
  tok : BitVec 3
  lane : Nat
  slot : Nat
  head : Nat
  kind : EngKind
  va : Word
  got : List Byte
  deriving DecidableEq, Repr

/-- A line held under a read lease in an L0 cache or by an engine path: line, lease end, the bytes read and the write time
they had (R146, R160), and the cycle of the gang at which the line was found written since (R162). -/
structure LeaseEnt where
  line : Nat
  until_ : Nat
  data : Memory
  wts : Nat
  stale : Option Nat
  deriving DecidableEq, Repr

/-- A cached translation (R140): partition, page number, page of 1 GiB or not, frame base, permissions, G, and whether it
was filled for a write. -/
structure TlbEnt where
  part : Nat
  page : Nat
  big : Bool
  base : Nat
  r : Bool
  w : Bool
  x : Bool
  glob : Bool
  forWrite : Bool
  deriving DecidableEq, Repr

/-- A sequencer (R15). `p` holds the ordinary predicates. A token is set while its count of operations is not 0. `atDrain`
says that a drain request has stopped it at its drain point (R88). `atEnd` says that sequential fetch has come to the end of
a 64 KiB segment, where the offset has no bit left to show it (R80). `pastEnd` says that fetch stands after the END bundle of
the innermost frame, which a drain has left with nothing to restart (R89). `ends` says what becomes of a sequencer whose last
delay bundle has issued once the block that this bundle has set is over (R53, R96, R99). -/
structure Seq where
  s : Vector Word 64
  p : BitVec 8
  q : List (List Word)
  toks : List Nat
  systoks : List Nat
  pc : Nat
  atEnd : Bool
  frames : List Frame
  ds : List DsEntry
  exec : Lanes
  xfer : Option Xfer
  block : Block
  atDrain : Bool
  pastEnd : Bool
  ends : Option Block
  sb : List StoreEnt
  acc : List SeqAcc
  div : Nat
  pts : Nat
  l0 : List LeaseEnt
  utlb : List TlbEnt
  deriving DecidableEq, Repr

/-- An engine (R16). `store` holds t0 to t15 at 0, acc0 to acc3 at 0x2_0000 and sc0 to sc3 at 0x3_0000, as the image lays
them out (R346). The counters are the cycles each unit stays busy (R48). -/
structure Lane where
  store : Memory
  shapes : List (Nat × Nat)
  km : List Word
  e : List Word
  c : BitVec 4
  status : BitVec 5
  v0 : Nat
  v1 : Nat
  m : Nat
  port : Nat
  deriving DecidableEq, Repr

/-- A record of the fault ring (R330). -/
structure RingRec where
  pc : Nat
  slot : Nat
  lane : Nat
  cause : Cause
  info : Word
  deriving DecidableEq, Repr

/-- PGSHARE, PGUNMAP or PGCOW (R338). -/
inductive PageKind where
  | share | unmap | cow
  deriving DecidableEq, Repr

/-- What the S-slot tokened operations do when they take effect (R49). Page operations count the pages they have done
(R337). -/
inductive OpKind where
  | barInit (b e sc : Nat) (pend : Word)
  | barArrive (b cnt : Nat) (batch : BitVec 16)
  | barExpect (b : Nat) (bytes : Word)
  | barTest (b : Nat)
  | qpush (desc pk : Nat)
  | qres (desc : Nat) (n : Word)
  | sig (key : Nat) (set : Bool) (v : Word) (batch : BitVec 16)
  | prog (u : Nat)
  | vsetNone
  | ecommit (batch : BitVec 16)
  | rfam (n addr : Word)
  | rstat (t c : Word)
  | rcur (t : Word)
  | tlbinv (va : Word) (c : Word) (batch : BitVec 16)
  | pages (kind : PageKind) (block done : Nat)
  | suspend (gid : Nat) (addr : Nat)
  | segld (seg : Nat)
  | bwait (ms : List (BitVec 16))
  | soon
  deriving DecidableEq, Repr

/-- A tokened operation that has issued and has not taken effect. -/
structure TokOp where
  oid : Nat
  q : Nat
  sys : Bool
  tok : BitVec 3
  d : BitVec 6
  slot : Nat
  kind : OpKind
  deriving DecidableEq, Repr

/-- The copies and retrieval operations a part can be (R178, R262). -/
inductive PartKind where
  | copy | gather | scatter | put | get | rgath | fill | preft | pin | unpin
  | rprobe | rins | rdel | rmig | rret
  deriving DecidableEq, Repr

/-- One lane's part of an X-slot operation (R175): its command block as read at issue, its barrier, its batch, whether a
channel has started it, the units read ahead, the units performed and the retrieval steps done, and whether the port of its
peer has left service while it was outstanding (R365); `of` is the number of parts of its instruction. -/
structure Part where
  pid : Nat
  q : Nat
  tok : BitVec 3
  slot : Nat
  head : Nat
  lane : Nat
  kind : PartKind
  bar : Option Nat
  block : List Byte
  off : Nat
  batch : Option (BitVec 16)
  started : Bool
  got : List (Nat × List Byte)
  done : List Nat
  phase : Nat
  done2 : List Nat
  lost : Bool
  of : Nat
  deriving DecidableEq, Repr

/-- A line that a copy part has written and that has not been published to every agent (R165, R171), with its batch, its
barrier, and the time at which a publication of narrower scope has published it. -/
structure Wrote where
  pid : Nat
  batch : Option (BitVec 16)
  bar : Option Nat
  line : Nat
  time : Option Nat
  deriving DecidableEq, Repr

/-- What aligned 8-byte units held before a write of a gang that is not published: a part's, or a local write of its engines
(R165, R168); or, for `ring`, a packet slot that the gang has reserved and not fenced, which a Referee alone may still find so
(R274). The records of one unit stand newest first. `reach` holds the places the write has been published to, each with the
time of that publication: a die by its number (R172). -/
structure Unseen where
  gid : Nat
  pid : Option Nat
  key : Nat
  old : List Byte
  reach : List (Nat × Nat)
  ring : Bool
  deriving DecidableEq, Repr

/-- Where a context is (R339 to R343). -/
inductive Place where
  | nowhere
  | run (die slot half : Nat)
  | shadow (die slot half : Nat)
  | spill (die entry : Nat)
  | image (addr : Nat)
  deriving DecidableEq, Repr

/-- What an active continuation holds aside (R334), with the transfer that was pending (R83). -/
structure Held where
  ds : List DsEntry
  frames : List Frame
  exec : Lanes
  xfer : Option Xfer
  deriving DecidableEq, Repr

/-- The handler's state while a gang is in SYS mode, and what it froze: the sequencer it runs on, when it began, the
results in flight, transfer, block and divider of the gang (R321, R329). `atEnd` is the sequencer's own, which TRAPPC does
not show (R80). `owed` says that a bundle had issued in the cycle the freeze stopped, so that this cycle of the gang's
clock is still to be counted (R45). -/
structure Handler where
  q : Nat
  since : Nat
  fl : List Landing
  xfer : Option Xfer
  block : Block
  div : Nat
  atEnd : Bool
  owed : Bool
  deriving DecidableEq, Repr

/-- USER or SYS (R319). -/
inductive Mode where
  | user
  | sys (h : Handler)
  deriving DecidableEq, Repr

/-- A drain a gang has been asked for (R88, R307, R339, R343), or a stop that waits for TRET (R310). A suspension has the
address of the image of each SUSPEND that asked for it, with the partition it is translated in above its 64 bits. -/
inductive Drain where
  | none
  | preempt (since : Nat) (live : Bool)
  | suspend (since : Nat) (addrs : List Nat)
  | endgame (reason : Nat)
  | stop
  deriving DecidableEq, Repr

/-- What a launch record fixes for every instance (R282), with the queue's partition. -/
structure LInfo where
  lid : Nat
  home : Nat
  part : Nat
  cls : Nat
  width : Nat
  nx : Nat
  ny : Nat
  nz : Nat
  stages : Nat
  prog : Nat
  segTab : Nat
  spBytes : Nat
  fmts : List Word
  dline : Bool
  deadline : Nat
  budget : Nat
  egEntry : Nat
  lrec : Word
  args : Word
  tabList : Word
  bmAddr : Word
  bmLen : Nat
  deriving DecidableEq, Repr

/-- A gang instance: a context with its two sequencers, its lanes and everything of it that is outstanding (R15, R16, R90,
R125, R330 to R335). A deferred cause has its sequencer and its lane, and `found` counts those the present cycle found
(R371). `loaded` says that a load has issued since pts last advanced (R162), and `paths` holds the lines its engine paths
hold under a lease (R160). `fences` holds the scope and batch of each FENCE that the endgame's drain has abandoned, whose
publication is owed (R307). `closed` is the number from which accesses to its scratchpads are new ones that fault, while it
moves away (R341). `wake` counts the cycles by which its slot, restarted after gating, still delays its first bundle (R252), and
`slowed` those of its clock that its die's present stretching has taken in (R367). -/
structure Gang where
  gid : Nat
  info : LInfo
  place : Place
  gx : Nat
  gy : Nat
  gz : Nat
  stage : Nat
  epres : Lanes
  xmask : Lanes
  pmask : Lanes
  cycle : Nat
  lastBatch : BitVec 16
  sealed : BitVec 16
  contpc : Word
  trapCause : Word
  trapPc : Word
  trapInfo : Word
  trapSlot : Word
  egReason : Nat
  egMark : Option Nat
  q0 : Seq
  q1 : Seq
  split : Bool
  splitTkt : Nat
  lanes : List Lane
  ring : List RingRec
  ovf : Bool
  held : Option Held
  mode : Mode
  fl : List Landing
  xbar : Nat
  ops : List TokOp
  eng : List EngAcc
  parts : List Part
  deferred : List (Nat × Nat × Exc)
  found : Nat
  wrote : List Wrote
  drain : Drain
  frozen : Bool
  stopping : Bool
  loaded : Bool
  paths : List LeaseEnt
  fences : List (Nat × BitVec 16)
  closed : Option Nat
  wake : Nat
  slowed : Nat
  deriving DecidableEq, Repr

/-- The completion facts of a launch (R284, R315, R318). -/
structure Tally where
  ended : Nat
  never : Nat
  killed : Option (Nat × Word)
  missed : Bool
  inEndgame : Bool
  committed : Bool
  aborted : Bool
  deriving DecidableEq, Repr

/-- How far an admitted or waiting launch has come (R283, R287). -/
inductive LStage where
  | waiting
  | loading
  | ready
  deriving DecidableEq, Repr

/-- A launch from its packet to its completion (R20, R244, R251, R283 to R290, R299, R313). -/
structure Launch where
  info : LInfo
  stage : LStage
  qd : Nat
  pkt : Nat
  crec : Nat
  csig : Nat
  est : Nat
  unitNs : Nat
  progress : Nat
  t0 : Option Nat
  admitted : Nat
  order : Nat
  rlIndex : Nat
  handles : List Nat
  taken : Nat
  trig : List Nat
  trigAll : Bool
  window : Nat
  step : Nat
  stime : Nat
  arrived : List Nat
  cx : Nat
  cy : Nat
  drawn : Nat
  returned : List Nat
  reserve : List (Nat × List Nat)
  tally : Tally
  deriving DecidableEq, Repr

/-- A queue's work in hand: a packet read and not yet released or completed (R273, R277). `moved` counts the bytes that a COPY
has moved (R164, R281). -/
structure Pkt where
  qd : Nat
  idx : Nat
  bytes : List Byte
  aborted : Bool
  waiting : Bool
  moved : Nat
  deriving DecidableEq, Repr

/-- What the Referee keeps of a queue it serves (R273, R277, R280). -/
structure QState where
  qd : Nat
  rl : Nat
  skip : Nat
  inHand : Option Pkt
  open_ : List Pkt
  deriving DecidableEq, Repr

/-- A residency slot of a die (R287): the handle it holds, the claims on it, when it was last claimed, and the launch for which
its lines are held pinned: the one that made the copy (R288). -/
structure ResSlot where
  handle : Nat
  count : Nat
  claimed : Nat
  pinned : Option Nat
  deriving DecidableEq, Repr

/-- A die's Referee (R272 to R293). -/
structure Referee where
  queues : List QState
  res : List ResSlot
  idleSince : Option Nat
  request : Option Nat
  deriving DecidableEq, Repr

/-- A Barrier File entry (R245), with the count of its completed phases that tells a waiter which one released it
(R249), and whose publications it carries: gang, die and program time (R169). -/
structure Barrier where
  initd : Bool
  scope : Nat
  phase : Bool
  pend : Nat
  arr : Nat
  exp : Nat
  phases : Nat
  times : List (Nat × Nat × Nat)
  deriving DecidableEq, Repr

/-- The state of a frame of instruction memory (R104, R105): empty, being filled, holding its segment, or holding the
failure its filling met. -/
inductive FrameFill where
  | empty
  | filling
  | resident
  | failed (e : Exc)
  deriving DecidableEq, Repr

/-- A frame of instruction memory (R103, R104): of which launch, none (0) for a handler's image, segment table and partition, which segment, the bytes, when it
was last fetched from, and the context and sequencer that asked for it. -/
structure SegFrame where
  lid : Nat
  tab : Nat
  part : Nat
  seg : Nat
  base : Nat
  len : Nat
  next : Nat
  fill : FrameFill
  data : Memory
  used : Nat
  gid : Nat
  q : Nat
  deriving DecidableEq, Repr

/-- A gang slot's own state: its instruction memory, the fetches that wait until a frame can be taken, and the handler
scratch registers of its two sequencers (R104, R326). -/
structure GSlot where
  frames : List SegFrame
  wants : List SegFrame
  sscr : List Word
  retired : Bool
  deriving DecidableEq, Repr

/-- The registers of a partition (R326). -/
structure PartReg where
  root : Word
  hseg : Word
  hentry : Word
  deriving DecidableEq, Repr

/-- A die's time unit (R300 to R304). `slew` is the offset that is still to be removed; the masters are kept with the time
of their last Announce. `reqSeq` is the sequence number of the last Delay_Req. -/
structure TimeUnit where
  now : Nat
  synced : Bool
  hold : Bool
  selected : Option Nat
  offset : Int
  slew : Int
  twoStep : Bool
  annto : Nat
  domain : Nat
  utcOff : Int
  syncMsg : Option PtpMsg
  t1 : Option Int
  t2 : Option Int
  t3 : Option Nat
  reqSeq : Nat
  masters : List (Nat × Nat × PtpDataset)
  deriving DecidableEq, Repr

/-- The health registers of a die (R366), and whether its clock is stretched for a droop or for the power limit (R362,
R367). `span` counts the cycles of the present stretching, the first `lead` of which come before the detector has acted. -/
structure Health where
  droop : Nat
  stretch : Nat
  softC : Nat
  eccC : Nat
  softU : Nat
  ageO : Nat
  ageP : Nat
  vmarg : Word
  drooping : Bool
  limiting : Bool
  span : Nat
  lead : Nat
  deriving DecidableEq, Repr

/-- A die (R10, R253, R272, R287, R326, R364 to R370). `bootStage` counts the boot stages that have been accepted. -/
structure Die where
  bootStage : Nat
  booted : Bool
  failed : Bool
  ftbase : Word
  ftlen : Word
  rlbase : Word
  atbase : Word
  atlen : Word
  adbase : Word
  adsize : Word
  spillbase : Word
  spilln : Word
  tu : TimeUnit
  invslot : BitVec 12
  inveng : List Lanes
  invmem : Byte
  parts : List PartReg
  windows : List (Option Nat)
  barriers : List Barrier
  fams : List (BitVec 32 × Nat)
  slots : List GSlot
  tlb : List TlbEnt
  ref : Referee
  notify : List Word
  meas : List (List Byte)
  health : Health
  deriving DecidableEq, Repr

/-- A line's logical times and its pin count at its home (R160, R194). -/
structure LineInfo where
  line : Nat
  wts : Nat
  rts : Nat
  pins : Nat
  deriving DecidableEq, Repr

/-- A Trisum fabric port (R365). -/
structure Port where
  up : Bool
  en : Bool
  inpart : Nat
  deriving DecidableEq, Repr

/-- What leaves the package through PlithLink or a fabric port (R301, R363 to R365, R370). -/
inductive Msg where
  | notify (die entry time : Nat) (v : Word)
  | windowRead (pa : Nat) (bytes : List Byte)
  | registerRead (die num : Nat) (v : Word)
  | delayReq (t3 seq : Nat)
  | attest (die : Nat) (reply : List Byte)
  | peerPut (port addr : Nat) (bytes : List Byte)
  | peerGet (port addr n : Nat)
  | fabricReply (port addr : Nat) (ok : Bool) (bytes : List Byte)
  deriving DecidableEq, Repr

/-- The bundle that issues (R41, R54): the sequencer, the slot of the instruction, the literal, the head and
the address after the bundle, the head's bits, the active lanes and stage predicates at issue, whether it is a
delay bundle, whether the whole bundle
has been found free to issue, whether its finishing has been done, the ticket the bundle began with, whether a bundle
of the gang has issued in this cycle, and whether the cycle has been counted as one of a restart (R252). -/
structure Issue where
  q : Nat
  slot : Nat
  lit : Option Slotword
  head : Nat
  next : Nat
  bits : BitVec 16
  act : Lanes
  sp : Option (BitVec 4)
  delay : Bool
  ready : Bool
  done : Bool
  tkt0 : Nat
  issued : Bool
  woke : Bool
  deriving DecidableEq, Repr

/-- What the outside decides to happen next, where the spec leaves the time or the order of things open: an event, a
cycle of a gang, a cycle in which a gang waits, time passing, or the control node's reading of a system register (R363). -/
inductive Move where
  | event (i : Instr)
  | cycle (gid : Nat)
  | stall (gid : Nat)
  | time (ns : Nat)
  | readRegister (die num : Nat)
  deriving DecidableEq, Repr

/-- The whole machine. -/
structure State where
  g : Gang
  others : List Gang
  cur : Issue
  launches : List Launch
  dies : List Die
  mem : Memory
  lines : List LineInfo
  unseen : List Unseen
  ports : List Port
  agenda : List Move
  out : List Msg
  tkt : Nat
  free : Nat
  deriving DecidableEq, Repr

/-- A sequencer as an instance starts with it: nothing set, nothing outstanding. The spec gives s1 to s62 and p1 to p7 no
value at a start; 0 is the model's. -/
def Seq.start : Seq :=
  { s := Vector.replicate 64 0, p := 1, q := List.replicate 8 [], toks := List.replicate 8 0,
    systoks := List.replicate 8 0, pc := 0, atEnd := false, frames := [], ds := [], exec := 0, xfer := none, block := .none,
    atDrain := false, pastEnd := false, ends := none, sb := [],
    acc := [], div := 0, pts := 0, l0 := [], utlb := [] }

/-- An engine as an instance starts with it (R78, R197, R216, R219). -/
def Lane.start : Lane :=
  { store := [], shapes := List.replicate 16 (64, 128), km := BitVec.allOnes 64 :: List.replicate 7 0, e := List.replicate 16 0, c := 0,
    status := 0, v0 := 0, v1 := 0, m := 0, port := 0 }

/-- The launch facts of no launch. -/
def LInfo.empty : LInfo :=
  { lid := 0, home := 0, part := 0, cls := 3, width := 16, nx := 0, ny := 0, nz := 0, stages := 0, prog := 0,
    segTab := 0, spBytes := 0, fmts := List.replicate 8 0, dline := false, deadline := 0, budget := 0, egEntry := 0,
    lrec := 0, args := 0, tabList := 0, bmAddr := 0, bmLen := 0 }

/-- A context that holds no instance. -/
def Gang.empty : Gang :=
  { gid := 0, info := LInfo.empty, place := .nowhere, gx := 0, gy := 0, gz := 0, stage := 0, epres := 0, xmask := 0,
    pmask := 0, cycle := 0, lastBatch := 0, sealed := 0, contpc := 0, trapCause := 0, trapPc := 0,
    trapInfo := 0, trapSlot := 0, egReason := 0, egMark := none, q0 := Seq.start, q1 := Seq.start, split := false,
    splitTkt := 0, lanes := List.replicate 16 Lane.start, ring := [], ovf := false, held := none, mode := .user,
    fl := [], xbar := 0, ops := [], eng := [], parts := [], deferred := [], found := 0, wrote := [], drain := .none, frozen := false,
    stopping := false, loaded := false, paths := [], fences := [], closed := none, wake := 0, slowed := 0 }

/-- A barrier entry at admission (R245). -/
def Barrier.clear : Barrier :=
  { initd := false, scope := 0, phase := false, pend := 0, arr := 0, exp := 0, phases := 0, times := [] }

/-- A frame of instruction memory that holds nothing. -/
def SegFrame.empty : SegFrame :=
  { lid := 0, tab := 0, part := 0, seg := 0, base := 0, len := 0, next := 255, fill := .empty, data := [], used := 0, gid := 0, q := 0 }

/-- A time unit at reset: it counts from 0, free-running, and ANNTO is 3 (R300, R304). -/
def TimeUnit.reset : TimeUnit :=
  { now := 0, synced := false, hold := false, selected := none, offset := 0, slew := 0, twoStep := false, annto := 3,
    domain := 0, utcOff := 0, syncMsg := none, t1 := none, t2 := none, t3 := none, reqSeq := 0, masters := [] }

/-- A die of an S480-P with every slot, engine and HBM4 stack present, at reset (R24, R253, R326, R364, R366, R369). -/
def Die.reset (n : Nat) : Die :=
  { bootStage := 0, booted := false, failed := false, ftbase := 0, ftlen := 0, rlbase := 0, atbase := 0, atlen := 0, adbase := 0,
    adsize := 0, spillbase := 0, spilln := 0, tu := TimeUnit.reset, invslot := 0xFFF,
    inveng := List.replicate 12 0xFFFF, invmem := 0x03, parts := List.replicate 16 ⟨0, 0, 0⟩,
    windows := List.replicate 8 none, barriers := List.replicate 256 Barrier.clear,
    fams := List.replicate 16 (0, 0),
    slots := List.replicate 12 ⟨List.replicate 4 SegFrame.empty, [], List.replicate 16 0, false⟩, tlb := [],
    ref := ⟨[], List.replicate 64 ⟨0, 0, 0, none⟩, none, none⟩, notify := List.replicate 16 0,
    meas := List.replicate 8 (List.replicate 32 0),
    health := ⟨0, 0, 0, 0, 0, 0, 0, Config.bootMargin n, false, false, 0, 0⟩ }

/-- No bundle issues. -/
def Issue.idle : Issue :=
  { q := 0, slot := 0, lit := none, head := 0, next := 0, bits := 0, act := 0, sp := none, delay := false, ready := false,
    done := false, tkt0 := 0, issued := false, woke := false }

/-- The machine right after reset: no instance and no launch, every die before its boot (R369), memory with nothing
listed. -/
def State.reset : State :=
  { g := Gang.empty, others := [], cur := Issue.idle, launches := [],
    dies := [Die.reset 0, Die.reset 1, Die.reset 2, Die.reset 3], mem := [], lines := [], unseen := [],
    ports := List.replicate 8 ⟨false, false, 0⟩, agenda := [], out := [], tkt := 1, free := 0 }

end Sys2Proof.Machine
end

