-- ==== Sys2Proof/Machine/Memory.lean ====
section
/-! DEFINITION. The named operations over memory and over lists by position: one byte, a run of bytes, little-endian
values (R18, R141, R144), clearing and moving a region. Every one of them keeps the canonical form. -/

namespace Sys2Proof.Machine

/-- Change the element at position n. -/
def updAt {α : Type} (n : Nat) (f : α → α) : List α → List α
  | [] => []
  | x :: xs => match n with
    | 0 => f x :: xs
    | n + 1 => x :: updAt n f xs

/-- The byte at an address. -/
def Memory.get : Memory → Nat → Byte
  | [], _ => Memory.rest
  | c :: m, a => if c.1 = a then c.2 else if a < c.1 then Memory.rest else Memory.get m a

/-- Put one byte; a byte equal to what an unlisted address reads as is not listed. -/
def Memory.set : Memory → Nat → Byte → Memory
  | [], a, b => if b = Memory.rest then [] else [(a, b)]
  | c :: m, a, b =>
    if c.1 < a then c :: Memory.set m a b
    else if c.1 = a then (if b = Memory.rest then m else (a, b) :: m)
    else if b = Memory.rest then c :: m else (a, b) :: c :: m

/-- n bytes from an address on. -/
def Memory.bytes (m : Memory) (a : Nat) : Nat → List Byte
  | 0 => []
  | n + 1 =>
    let m' := m.dropWhile fun c => decide (c.1 < a)
    (match m' with
      | [] => Memory.rest
      | c :: _ => if c.1 = a then c.2 else Memory.rest) :: Memory.bytes m' (a + 1) n

/-- Write bytes from an address on, the lowest first. -/
def Memory.put (m : Memory) (a : Nat) : List Byte → Memory
  | [] => m
  | b :: bs => Memory.put (m.set a b) (a + 1) bs

/-- Write runs of bytes at their offsets from a base, one after the other. -/
def Memory.putRows (m : Memory) (base : Nat) (rows : List (Nat × List Byte)) : Memory :=
  rows.foldl (fun m r => m.put (base + r.1) r.2) m

/-- The little-endian value of n bytes. -/
def Memory.le (m : Memory) (a n : Nat) : Nat := leValue (m.bytes a n)

/-- Write the n low bytes of a value, little-endian. -/
def Memory.putLe (m : Memory) (a n v : Nat) : Memory := m.put a (leBytes n v)

/-- Clear n bytes: they read as 0. -/
def Memory.clear (m : Memory) (a n : Nat) : Memory := m.filter fun c => decide (c.1 < a) || decide (a + n ≤ c.1)

/-- The listed bytes of a region, by their offset in it. -/
def Memory.region (m : Memory) (a n : Nat) : Memory :=
  (m.filter fun c => decide (a ≤ c.1) && decide (c.1 < a + n)).map fun c => (c.1 - a, c.2)

/-- Make a region hold the listed bytes given by offset, and 0 elsewhere. -/
def Memory.setRegion (m : Memory) (a n : Nat) (r : Memory) : Memory :=
  r.foldl (fun m c => m.set (a + c.1) c.2) (m.clear a n)

/-- Whether two runs of bytes overlap. -/
def overlaps (a n b k : Nat) : Bool := decide (a < b + k) && decide (b < a + n)

/-- Bits [hi:lo] of a number, as the spec writes a slice. -/
def bits (v hi lo : Nat) : Nat := v / 2 ^ lo % 2 ^ (hi + 1 - lo)

/-- Bit n of a number. -/
def bit (v n : Nat) : Bool := v.testBit n

/-- x[n-1:0] read as two's complement (R54). -/
def sextNat (x n : Nat) : Int :=
  let y := x % 2 ^ n
  if n ≠ 0 ∧ y.testBit (n - 1) then (y : Int) - 2 ^ n else y

/-- The 64-bit pattern of an integer modulo 2^64. -/
def wordOf (i : Int) : Word := BitVec.ofInt 64 i

/-- A 64-bit address as a number. -/
def addOff (a : Nat) (i : Int) : Nat := (BitVec.ofInt 64 ((a : Int) + i)).toNat

end Sys2Proof.Machine
end

