-- ==== Sys2Proof/Machine/Ops.lean ====
section
/-! DEFINITION. The named operations over gangs, sequencers, engines and the shared units: reading and writing
registers, tokens, scheduling results, parking an engine, taking a trap and returning from one. -/

namespace Sys2Proof.Machine

/-- The codes of R322. -/
def Cause.code : Cause → Nat
  | .ill => 0x01 | .delayctl => 0x02 | .slotuse => 0x03 | .qund => 0x04 | .qovf => 0x05 | .dstk => 0x06 | .align => 0x07
  | .page => 0x08 | .prot => 0x09 | .cow => 0x0A | .spmeta => 0x0B | .qscope => 0x0C | .barerr => 0x0D | .shape => 0x0E
  | .soft => 0x0F | .seg => 0x10 | .ecc => 0x11 | .rtab => 0x12 | .trap => 0x13

/-- The cause of a code (R322). -/
def Cause.ofCode (n : Nat) : Cause :=
  ([.ill, .delayctl, .slotuse, .qund, .qovf, .dstk, .align, .page, .prot, .cow, .spmeta, .qscope, .barerr, .shape, .soft,
    .seg, .ecc, .rtab, .trap] : List Cause).getD (n - 1) .ill

/-- TRAPINFO with a subcode in [7:0] and a value in [63:8] (R323). -/
def infoOf (sub value : Nat) : Word := BitVec.ofNat 64 (sub % 256 + 256 * value)

/-- An ILL of a subcode for a slot word (R323). -/
def illWord (sub : Nat) (w : Slotword) (slot : Nat) : Exc := ⟨.ill, infoOf sub (w.toNat * 2 ^ 24), slot⟩

/-- Bit l of a lane mask. -/
def laneBit (l : Nat) : Lanes := BitVec.ofNat 16 (2 ^ l)

/-- The lanes of a mask in increasing order. -/
def lanesOf (m : Lanes) : List Nat := (List.range 16).filter fun l => m.getLsbD l

/-- The number of lanes of a mask. -/
def laneCount (m : Lanes) : Nat := (lanesOf m).length

/-! Registers of a sequencer. -/

/-- s0 reads zero, and code 63 names no register (R15, R35). -/
def Seq.reg (q : Seq) (r : BitVec 6) : Word := if r = 0 ∨ r = 63 then 0 else q.s[r.toNat]

/-- A write to s0 is discarded, and code 63 names no register (R35). -/
def Seq.setReg (q : Seq) (r : BitVec 6) (v : Word) : Seq :=
  if r = 0 ∨ r = 63 then q else { q with s := q.s.set r.toNat v }

/-- The ordinary predicate: p0 is always true (R15). -/
def Seq.pred (q : Seq) (n : BitVec 3) : Bool := n = 0 || q.p.getLsbD n.toNat

/-- A result for p0 is discarded (R109). -/
def Seq.setPred (q : Seq) (n : BitVec 3) (v : Bool) : Seq :=
  if n = 0 then q
  else { q with p := if v then q.p ||| BitVec.ofNat 8 (2 ^ n.toNat) else q.p &&& ~~~ BitVec.ofNat 8 (2 ^ n.toNat) }

/-- sp_k during pass J (R85). -/
def Frame.sp (f : Frame) (k : Nat) : Bool := decide (k < f.s) && decide (k ≤ f.j) && decide (f.j - k < f.neff)

/-- sp0 to sp3 of the innermost frame, or none while no frame is open (R36, R86). -/
def Seq.stages (q : Seq) : Option (BitVec 4) :=
  match q.frames with
  | [] => none
  | f :: _ => some (BitVec.ofNat 4 ((List.range 4).foldl (fun a k => if f.sp k then a + 2 ^ k else a) 0))

/-! Gangs, lanes, dies, launches. -/

/-- Sequencer 0 or 1 of a gang. -/
def Gang.seq (g : Gang) (q : Nat) : Seq := if q = 0 then g.q0 else g.q1

/-- Change a sequencer of a gang. -/
def Gang.updSeq (g : Gang) (q : Nat) (f : Seq → Seq) : Gang :=
  if q = 0 then { g with q0 := f g.q0 } else { g with q1 := f g.q1 }

/-- An engine by its lane number (R14). -/
def Gang.lane (g : Gang) (l : Nat) : Lane := g.lanes.getD l Lane.start

/-- Change an engine. -/
def Gang.updLane (g : Gang) (l : Nat) (f : Lane → Lane) : Gang := { g with lanes := updAt l f g.lanes }

/-- Change the gang in focus. -/
def State.updG (s : State) (f : Gang → Gang) : State := { s with g := f s.g }

/-- The sequencer that issues. -/
def State.seq (s : State) : Seq := s.g.seq s.cur.q

/-- No bundle issues; sequencer q is looked at. -/
def State.forSeq (s : State) (q : Nat) : State :=
  { s with cur := { Issue.idle with q := q, issued := s.cur.issued, woke := s.cur.woke } }

/-- Change the sequencer that issues. -/
def State.updSeq (s : State) (f : Seq → Seq) : State := s.updG fun g => g.updSeq s.cur.q f

/-- Change an engine of the gang in focus. -/
def State.updLane (s : State) (l : Nat) (f : Lane → Lane) : State := s.updG fun g => g.updLane l f

/-- A die. -/
def State.die (s : State) (d : Nat) : Die := s.dies.getD d (Die.reset d)

/-- Change a die. -/
def State.updDie (s : State) (d : Nat) (f : Die → Die) : State := { s with dies := updAt d f s.dies }

/-- The die a context is on. -/
def Place.die : Place → Nat
  | .run d _ _ => d
  | .shadow d _ _ => d
  | .spill d _ => d
  | _ => 0

/-- The slot a context is on. -/
def Place.slot : Place → Nat
  | .run _ sl _ => sl
  | .shadow _ sl _ => sl
  | _ => 0

/-- The half a context is on (R13). -/
def Place.half : Place → Nat
  | .run _ _ h => h
  | .shadow _ _ h => h
  | _ => 0

/-- Whether a context runs on a slot. -/
def Place.running : Place → Bool
  | .run _ _ _ => true
  | _ => false

/-- The die of the gang in focus. -/
def State.myDie (s : State) : Nat := s.g.place.die

/-- The present time of a die's time unit (R303). -/
def State.now (s : State) (d : Nat) : Nat := (s.die d).tu.now

/-- The physical engine of a lane (R14). -/
def Gang.engine (g : Gang) (l : Nat) : Nat := l + (if g.info.width = 8 then 8 * g.place.half else 0)

/-- Whether sequencer q of the gang is a fragment (R95). -/
def Gang.isFragment (g : Gang) (q : Nat) : Bool := g.split && decide (q = 1)

/-- Whether the gang is in SYS mode (R319). -/
def Gang.inSys (g : Gang) : Bool :=
  match g.mode with
  | .user => false
  | .sys _ => true

/-- The instance's HALT and its delay bundles have issued, whatever handler runs since (R99, R310). -/
def Gang.halted (g : Gang) : Bool :=
  g.q0.block == .halted || match g.mode with
    | .user => false
    | .sys h => h.q == 0 && h.block == .halted

/-- HALT and its delay bundles, or those of the EXIT that ends the instance, have issued; what the last of them blocks in may
still hold the sequencer (R53, R99, R310). -/
def Gang.haltIssued (g : Gang) : Bool := g.halted || g.q0.ends == some .halted

/-- Bring the context of a gang into focus. -/
def State.focus (s : State) (gid : Nat) : State :=
  if s.g.gid = gid then s
  else match s.others.find? (fun g => g.gid == gid) with
    | none => s
    | some g => { s with g := g, others := s.g :: s.others.filter (fun g => g.gid != gid) }

/-- Do something to one gang, wherever it is, and keep the focus. -/
def State.withGang (s : State) (gid : Nat) (f : State → State) : State :=
  let t := s.focus gid
  if t.g.gid = gid then (f t).focus s.g.gid else s

/-- Every context of the machine. -/
def State.gangs (s : State) : List Gang := s.g :: s.others

/-- Change every context. -/
def State.mapGangs (s : State) (f : Gang → Gang) : State := { s with g := f s.g, others := s.others.map f }

/-- The launch of a number. -/
def State.launch (s : State) (lid : Nat) : Option Launch := s.launches.find? fun l => l.info.lid == lid

/-- Change a launch. -/
def State.updLaunch (s : State) (lid : Nat) (f : Launch → Launch) : State :=
  { s with launches := s.launches.map fun l => if l.info.lid = lid then f l else l }

/-- Send a message out of the package. -/
def State.emit (s : State) (m : Msg) : State := { s with out := s.out ++ [m] }

/-! Tokens (R42). A token is set while an operation that names it is outstanding. -/

/-- Whether a token is set; in SYS mode the SYS tokens are meant (R320). -/
def State.tokenSet (s : State) (n : BitVec 3) : Bool :=
  (if s.g.inSys then s.seq.systoks else s.seq.toks).getD n.toNat 0 != 0

/-- One more operation names a token. -/
def Seq.raise (q : Seq) (sys : Bool) (n : BitVec 3) : Seq :=
  if sys then { q with systoks := updAt n.toNat (· + 1) q.systoks } else { q with toks := updAt n.toNat (· + 1) q.toks }

/-- One operation that named a token is over. -/
def Seq.lower (q : Seq) (sys : Bool) (n : BitVec 3) : Seq :=
  if sys then { q with systoks := updAt n.toNat (· - 1) q.systoks } else { q with toks := updAt n.toNat (· - 1) q.toks }

/-- Set a token at issue. -/
def State.raise (s : State) (n : BitVec 3) : State := s.updSeq fun q => q.raise s.g.inSys n

/-- An operation of sequencer q has ended for its token. -/
def State.lower (s : State) (q : Nat) (sys : Bool) (n : BitVec 3) : State := s.updG fun g => g.updSeq q fun x => x.lower sys n

/-- The next number in program order, and the state that has used it. -/
def State.takeTicket (s : State) : Nat × State := (s.tkt, { s with tkt := s.tkt + 1 })

/-- The next number for a free value, and the state that has used it. -/
def State.takeFree (s : State) : Nat × State := (s.free, { s with free := s.free + 1 })

/-! Results in flight (R45). -/

/-- land: schedule results at issue + lat (R54). -/
def State.land (s : State) (lat : Nat) (w : List Landed) : State := s.updG fun g => { g with fl := g.fl ++ [⟨lat, w, false⟩] }

/-- land, of an M-slot instruction (R236). -/
def State.landM (s : State) (lat : Nat) (w : List Landed) : State := s.updG fun g => { g with fl := g.fl ++ [⟨lat, w, true⟩] }

/-- Land one scalar of the issuing sequencer. -/
def State.landReg (s : State) (lat : Nat) (r : BitVec 6) (v : Word) : State := s.land lat [.sreg s.cur.q r v]

/-! Parking (R330). -/

/-- Park a lane: set its PMASK bit and append a record, or set OVF when the ring is full. -/
def Gang.park (g : Gang) (l : Nat) (pc slot : Nat) (c : Cause) (info : Word) : Gang :=
  let g := { g with pmask := g.pmask ||| laneBit l }
  if g.ring.length < 8 then { g with ring := g.ring ++ [⟨pc, slot, l, c, info⟩] } else { g with ovf := true }

/-- Park a lane of the gang that issues, for the instruction that issues. -/
def State.park (s : State) (l : Nat) (c : Cause) (info : Word) : State :=
  s.updG fun g => g.park l s.cur.head s.cur.slot c info

/-- The lanes of a mask are unparked, with their records; OVF clears when the ring is empty (R333). -/
def Gang.unpark (g : Gang) (m : Lanes) : Gang :=
  let m := m &&& g.pmask
  let ring := g.ring.filter fun r => !m.getLsbD r.lane
  { g with pmask := g.pmask &&& ~~~ m, ring := ring, ovf := g.ovf && !ring.isEmpty }

/-- Word 0 of a record (R330). -/
def RingRec.word0 (r : RingRec) : Word :=
  BitVec.ofNat 64 (r.pc % 2 ^ 22 * 2 ^ 16 + r.slot % 8 * 2 ^ 12 + r.lane % 16 * 2 ^ 8 + r.cause.code)

/-! Stopping an instance (R310, R344). -/

/-- The results in flight of a gang, those a freeze holds with them. -/
def Gang.inFlight (g : Gang) : List Landing :=
  match g.mode with
  | .user => g.fl
  | .sys h => h.fl ++ g.fl

/-- The tokens that results in flight would clear are lowered: their operations are over. -/
def Gang.lowerTokens (g : Gang) (ws : List Landed) : Gang :=
  ws.foldl (fun g w => match w with
    | .token q sys n => g.updSeq q fun x => x.lower sys n
    | _ => g) g

/-- A stopped instance issues nothing more; its fixed-latency results in flight are discarded, those a handler froze with
them; what is tokened runs on, and an operation that is over but for the landing of its token has no more to wait for. -/
def Gang.stop (g : Gang) : Gang :=
  let g := g.lowerTokens ((g.inFlight.map (·.what)).flatten)
  let g := { g with
    fl := [], stopping := true, mode := .user, drain := .none, held := none, frozen := false, egMark := none,
    deferred := [], found := 0, fences := [] }
  let g := g.updSeq 0 fun q => { q with block := .dead, ends := none, xfer := none }
  g.updSeq 1 fun q => { q with block := .dead, ends := none, xfer := none }

/-- Record that an instance was killed: only the first counts (R284). -/
def Tally.kill (t : Tally) (reason : Nat) (w : Word) : Tally :=
  match t.killed with
  | none => { t with killed := some (reason, w) }
  | some _ => t

/-- Kill the instance in focus with a REASON code and a fault word (R284, R320, R325, R344). -/
def State.killNow (s : State) (reason : Nat) (w : Word) : State :=
  (s.updLaunch s.g.info.lid fun l => { l with tally := l.tally.kill reason w }).updG Gang.stop

/-- The fault word of a cause and its TRAPINFO (R284). -/
def faultWord (cause : Nat) (info : Word) : Word := BitVec.ofNat 64 (cause % 256 + 256 * (info.toNat % 2 ^ 56))

/-! Traps (R321, R324). -/

/-- The registers a trap writes (R321, step 1). -/
def Gang.setTrap (g : Gang) (e : Exc) (pc : Nat) : Gang :=
  { g with
    trapCause := BitVec.ofNat 64 e.cause.code, trapPc := BitVec.ofNat 64 pc, trapInfo := e.info,
    trapSlot := BitVec.ofNat 64 e.slot }

/-- The handler image of the gang's partition (R321, step 3). -/
def State.partReg (s : State) : PartReg := (s.die s.myDie).parts.getD s.g.info.part ⟨0, 0, 0⟩

/-- Taking a trap in sequencer q, with the address TRAPPC takes (R321, R324). In USER mode the gang freezes: its results
in flight, the sequencer's transfer, block and divider are kept as they stand, the mode becomes SYS and fetch moves to
the handler's entry. In SYS mode it is a double fault, which kills the instance (R320). DESIGN CHOICE: an offset of 65,536,
at which fetch stands when it has come to the end of a 64 KiB segment, has no bit in TRAPPC (R80); TRAPPC then holds the
first address of the next segment, and `atEnd` keeps beside it that this is one past the segment before. -/
def State.trapEnter (s : State) (q : Nat) (e : Exc) (pc : Nat) (atEnd : Bool := false) : State :=
  match s.g.mode with
  | .sys _ => s.killNow 8 (faultWord e.cause.code e.info)
  | .user =>
    let x := s.g.seq q
    let h : Handler := ⟨q, s.now s.myDie, s.g.fl, x.xfer, x.block, x.div, atEnd, s.cur.issued⟩
    let g := { s.g.setTrap e pc with mode := .sys h, fl := [] }
    { s with g := g.updSeq q fun x =>
      { x with pc := s.partReg.hentry.toNat, atEnd := false, xfer := none, block := .none, div := 0 } }

/-- A trap of the bundle that issues, found at decode or issue: TRAPPC is its head (R324). -/
def State.trapHere (s : State) (e : Exc) : State := s.trapEnter s.cur.q e s.cur.head

/-- Returning from a trap, once the SYS tokens are clear and the handler's results have landed (R329): the mode becomes
USER, what the freeze kept goes on, and fetch resumes at TRAPPC. A stop that waited for TRET is made now (R310). DESIGN
CHOICE: where TRAPPC stands for the offset 65,536 of a segment and the handler has not written it, fetch resumes at that
offset, so that SEG is raised (R80). -/
def State.trapReturn (s : State) : State :=
  match s.g.mode with
  | .user => s
  | .sys h =>
    if s.g.drain = .stop then s.updG Gang.stop
    else
      let g := { s.g with mode := .user, fl := h.fl }
      { s with g := g.updSeq h.q fun x =>
        { x with pc := s.g.trapPc.toNat, atEnd := h.atEnd, xfer := h.xfer, block := h.block, div := h.div } }

/-- Whether a deferred cause is taken before another that is found in the same cycle: by cause code, then TRAPSLOT, then
lane (R371). -/
def Exc.before (e : Exc) (lane : Nat) (e' : Exc) (lane' : Nat) : Bool :=
  decide (e.cause.code < e'.cause.code) || e.cause.code == e'.cause.code &&
    (decide (e.slot < e'.slot) || e.slot == e'.slot && decide (lane < lane'))

/-- Put a deferred cause into a list after every one it does not come before. -/
def insertCause (q lane : Nat) (e : Exc) : List (Nat × Nat × Exc) → List (Nat × Nat × Exc)
  | [] => [(q, lane, e)]
  | c :: cs => if e.before lane c.2.2 c.2.1 then (q, lane, e) :: c :: cs else c :: insertCause q lane e cs

/-- Hold a deferred cause of a sequencer and a lane: after the causes found in earlier cycles, and among the `found` last
ones, which this cycle found, in their order (R371). A cause that belongs to no lane counts as lane 0. -/
def Gang.defer (g : Gang) (q lane : Nat) (e : Exc) : Gang :=
  let k := g.deferred.length - g.found
  { g with deferred := g.deferred.take k ++ insertCause q lane e (g.deferred.drop k), found := g.found + 1 }

/-! The Barrier File (R244 to R247). -/

/-- Barrier b of a launch: the entry of its window in its home die. -/
def State.barrier (s : State) (l : Launch) (b : Nat) : Barrier :=
  (s.die l.info.home).barriers.getD (32 * l.window + b) Barrier.clear

/-- After each event the entry completes its phase if it is due (R246). -/
def Barrier.settle (e : Barrier) : Barrier :=
  if e.initd ∧ e.arr = e.exp ∧ e.pend = 0 then { e with phase := !e.phase, arr := 0, phases := e.phases + 1 } else e

/-- Change barrier b of a launch by one event (R246). -/
def State.setBarrier (s : State) (l : Launch) (b : Nat) (e : Barrier) : State :=
  s.updDie l.info.home fun d => { d with barriers := updAt (32 * l.window + b) (fun _ => e.settle) d.barriers }

/-- The 64 bits of an entry, as BAR.TEST reads them (R245). -/
def Barrier.word (e : Barrier) : Word :=
  BitVec.ofNat 64 ((if e.initd then 2 ^ 63 else 0) + e.scope % 4 * 2 ^ 61 + (if e.phase then 2 ^ 60 else 0) +
    e.pend % 2 ^ 36 * 2 ^ 24 + e.arr % 2 ^ 12 * 2 ^ 12 + e.exp % 2 ^ 12)

/-- A rejected barrier event: TRAPINFO (R247). -/
def barErr (b sub value slot : Nat) : Exc := ⟨.barerr, BitVec.ofNat 64 (b % 32 + 32 * (sub % 8) + 256 * value), slot⟩

/-! Parts (R175). -/

/-- A field of a part's block. -/
def Part.f (p : Part) (off n : Nat) : Nat := leValue ((p.block.drop off).take n)

/-- The port of a PUT or GET to a peer, or none for this package (R186). -/
def Part.peer (p : Part) : Option Nat := if p.f 0x14 1 = 0 then none else some (p.f 0x14 1 - 1)

/-! Batches (R190, R191). -/

/-- Whether every batch numbered up to n, in 16-bit rolling order, has completed. -/
def Gang.batchesDone (g : Gang) (n : BitVec 16) : Bool :=
  g.parts.all fun p =>
    match p.batch with
    | none => true
    | some m => decide (2 ^ 15 ≤ (n - m).toNat)

/-- The sealed batches that are not complete. -/
def Gang.openBatches (g : Gang) : List (BitVec 16) := (g.parts.filterMap (·.batch)).eraseDups

/-- The entries of the command queue of a sequencer: every part, one that has ended included, of its instructions of which
some part has not started (R175). -/
def Gang.queued (g : Gang) (q : Nat) : Nat :=
  ((g.parts.filter fun p => p.q == q && !p.started).foldl
    (fun (l : List Part) p => if l.any fun r => r.pid / 16 == p.pid / 16 then l else p :: l) []).foldl (fun n p => n + p.of) 0

/-! The program order of a gang's accesses (R155 to R157). -/

/-- An access of ticket k of sequencer p comes before one of ticket n of sequencer q: both issued by one sequencer, or
the first before the split. -/
def Gang.before (g : Gang) (p k q n : Nat) : Bool :=
  decide (k < n) && (p == q || !g.split || decide (k < g.splitTkt))

/-- A buffered store comes before an access. -/
def Gang.olderStore (g : Gang) (q n : Nat) : Bool :=
  (g.q0.sb.any fun e => g.before 0 e.tkt q n) || g.q1.sb.any fun e => g.before 1 e.tkt q n

/-- A buffered store of the other sequencer comes before an access: one that issued before the SPLIT (R156). -/
def Gang.otherStore (g : Gang) (q n : Nat) : Bool := (g.seq (1 - q)).sb.any fun e => g.before (1 - q) e.tkt q n

/-- A load or atomic that has not had its point comes before an access. -/
def Gang.olderAcc (g : Gang) (q n : Nat) : Bool :=
  (g.q0.acc.any fun a => !a.shown && a.kind != .pref && g.before 0 a.tkt q n)
    || g.q1.acc.any fun a => !a.shown && a.kind != .pref && g.before 1 a.tkt q n

/-- A load that has not even been performed early comes before an access. -/
def Gang.olderUnread (g : Gang) (q n : Nat) : Bool :=
  (g.q0.acc.any fun a => !a.shown && a.got.isNone && a.kind != .pref && g.before 0 a.tkt q n)
    || g.q1.acc.any fun a => !a.shown && a.got.isNone && a.kind != .pref && g.before 1 a.tkt q n

/-- The retrieval operations of the X slots, which are ordered as ordinary accesses (R174, R270). -/
def PartKind.retrieval : PartKind → Bool
  | .rprobe | .rins | .rdel | .rmig | .rret => true
  | _ => false

/-- The tokened operations of the S slot that are ordinary accesses or one point in the order (R255, R268). -/
def OpKind.ordinary : OpKind → Bool
  | .rfam _ _ | .rstat _ _ | .rcur _ => true
  | _ => false

/-- An engine's part of a global access, a retrieval part or a retrieval operation comes before an access. -/
def Gang.olderEng (g : Gang) (q n : Nat) : Bool :=
  (g.eng.any fun e => g.before e.q e.tkt q n)
    || (g.parts.any fun p => p.kind.retrieval && g.before p.q (p.pid / 16) q n)
    || g.ops.any fun o => o.kind.ordinary && g.before o.q o.oid q n

/-- Nothing but accesses to system registers is left before an access of the gang (R157). -/
def Gang.clearBefore (g : Gang) (q n : Nat) : Bool := !g.olderStore q n && !g.olderAcc q n && !g.olderEng q n

/-- An access to a system register is in flight in a sequencer (R326): it issues when nothing of the sequencer is left before it,
so that what is outstanding comes after it. -/
def Gang.sysFlight (g : Gang) (q : Nat) : Bool :=
  g.fl.any fun x => x.what.any fun w => match w with
    | .sysreg p _ _ => p == q || !g.split
    | .sysread p _ _ => p == q || !g.split
    | _ => false

/-- Nothing is left before an access of the gang (R157). -/
def Gang.inOrder (g : Gang) (q n : Nat) : Bool :=
  g.clearBefore q n && !g.sysFlight q

end Sys2Proof.Machine
end

