-- ==== Sys2Proof/Machine/Translate.lean ====
section
/-! DEFINITION. Addresses (R129 to R133) and translation (R136 to R141): the physical map, the page walk, the cached
translations and the window's permissions. Scratchpad bytes have their window address as their key in memory. -/

namespace Sys2Proof.Machine

/-- The kinds of access a translation is made for (R139): 3 is an instruction fetch. -/
abbrev Acc := Nat

/-- A fault of an access before its detail is known: cause and subcode (R142). -/
abbrev AFault := Cause × Nat

/-- What a translation gives: an address, a fault, or a wait for a LOCK (R139). -/
inductive Xlate where
  | ok (pa : Nat) (e : TlbEnt)
  | fault (f : AFault)
  | wait
  deriving DecidableEq, Repr

/-- The HBM4 range of the physical map (R133). -/
def inHbm (pa : Nat) : Bool := decide (pa < 2 ^ 39)

/-- The DDR-5 range of the physical map (R133). -/
def inDdr (pa : Nat) : Bool := decide (2 ^ 48 ≤ pa) && decide (pa < 2 ^ 48 + 2 ^ 42)

/-- Whether the part has a second tier (R19). -/
def State.secondTier (s : State) : Bool := s.dies.any fun d => decide (d.invmem.toNat / 16 ≠ 0)

/-- Whether R133 backs a physical address: a stack or channel that is present, below the installed capacity. -/
def State.backed (s : State) (pa : Nat) : Bool :=
  if inHbm pa then (s.die (bits pa 38 37)).invmem.getLsbD (bits pa 8 8)
  else if inDdr pa then
    (s.die (bits pa 41 40)).invmem.getLsbD (4 + bits pa 9 8) && decide (pa % 2 ^ 40 < Config.ddrBytes)
  else false

/-- The home die of a line (R134). -/
def homeDie (pa : Nat) : Nat := if inHbm pa then bits pa 38 37 else bits pa 41 40

/-- The home slice of a line (R134). -/
def homeSlice (pa : Nat) : Nat := (bits pa 12 8).xor ((bits pa 17 13).xor (bits pa 22 18))

/-- The set of its home slice that a line is cached in (R134). -/
def homeSet (pa : Nat) : Nat := bits pa 23 13

/-- The home die of a physical address answers for it: one whose boot has failed answers nothing but the attestation request
(R369). DEDUCED: an access to memory that it homes waits for good. -/
def State.reaches (s : State) (pa : Nat) : Bool := !(s.die (homeDie pa)).failed

/-- Memory at a physical address that is backed and that nothing answers for. -/
def State.silent (s : State) (pa : Nat) : Bool := s.backed pa && !s.reaches pa

/-- The key of a byte is one that something answers for: a scratchpad's, or that of a line whose home die does. -/
def State.reachesKey (s : State) (key : Nat) : Bool := bit key 55 || s.reaches key

/-- What a walk finds in memory that nothing answers for: it is no fault, and the walk waits. -/
def unanswered : AFault := (.page, 0)

/-- read8 (R139): 8 bytes at a physical address, or PAGE 4 where R133 does not back it. -/
def State.read8 (s : State) (pa : Nat) : Except AFault Nat :=
  if !s.backed pa then .error (.page, 4) else if s.reaches pa then .ok (s.mem.le pa 8) else .error unanswered

/-- The reserved bits of a table entry (R137). -/
def tableBad (e : Nat) : Bool := decide (bits e 63 52 ≠ 0) || decide (bits e 15 7 ≠ 0) || decide (bits e 5 1 ≠ 0)

/-- The reserved bits of a leaf (R137). -/
def leafBad (e : Nat) : Bool := decide (bits e 63 52 ≠ 0) || decide (bits e 15 7 ≠ 0)

/-- Permission of an entry for an access (R139): PROT 1 without R, PROT 2 without W; a fetch needs X. -/
def permOk (acc : Acc) (r w x : Bool) : Except AFault Unit :=
  if acc = 3 then (if x then .ok () else .error (.prot, 1))
  else if acc ≠ 1 ∧ !r then .error (.prot, 1)
  else if acc ≠ 0 ∧ !w then .error (.prot, 2)
  else .ok ()

/-- A walk of the tables as they stand, from a first-level table: the address, the leaf, and whether its page has 1 GiB
(R139, down to the leaf's own rules). -/
def State.leaf (s : State) (root va : Nat) : Except AFault (Nat × Nat × Bool) := do
  let e1 ← s.read8 (root + 8 * bits va 55 43)
  if !bit e1 0 then .error (.page, 1)
  else if bit e1 6 || tableBad e1 then .error (.page, 2)
  else do
    let e2 ← s.read8 (bits e1 51 16 * 2 ^ 16 + 8 * bits va 42 30)
    if !bit e2 0 then .error (.page, 1)
    else if bit e2 6 then
      if leafBad e2 || decide (bits e2 29 16 ≠ 0) then .error (.page, 2)
      else .ok (bits e2 51 30 * 2 ^ 30 + bits va 29 0, e2, true)
    else if tableBad e2 then .error (.page, 2)
    else do
      let e3 ← s.read8 (bits e2 51 16 * 2 ^ 16 + 8 * bits va 29 17)
      if !bit e3 0 then .error (.page, 1)
      else if !bit e3 6 || leafBad e3 || bit e3 16 then .error (.page, 2)
      else .ok (bits e3 51 17 * 2 ^ 17 + bits va 16 0, e3, false)

/-- The first-level table a die holds for a partition (R136, R326). -/
def State.root (s : State) (die part : Nat) : Nat := ((s.die die).parts.getD part ⟨0, 0, 0⟩).root.toNat

/-- The tier and backing tests of R139 on the address a leaf gives. -/
def State.tierOk (s : State) (pa leaf : Nat) : Except AFault Unit :=
  let ddr := bit leaf 4
  if (ddr && (!inDdr pa || !s.secondTier)) || (!ddr && !inHbm pa) then .error (.page, 3)
  else if !s.backed pa then .error (.page, 4)
  else .ok ()

/-- The COW test of R139 for a write to a 128 KiB frame with a descriptor: none to go on, or a fault, or a wait. -/
def State.cowTest (s : State) (die pa : Nat) : Except AFault Bool := do
  let d := s.die die
  if pa / 2 ^ 17 < d.ftlen.toNat then
    let f ← s.read8 (d.ftbase.toNat + 8 * (pa / 2 ^ 17))
    if bit f 16 then .ok false else if f % 2 ^ 16 > 1 then .error (.cow, 1) else .ok true
  else .ok true

/-- translate(va, part, acc) from the tables (R139), with the entry a cache takes from it (R140). -/
def State.walk (s : State) (die part va : Nat) (acc : Acc) : Xlate :=
  let r : Except AFault Xlate := do
    let (pa, leaf, big) ← s.leaf (s.root die part) va
    let _ ← s.tierOk pa leaf
    let _ ← permOk acc (bit leaf 1) (bit leaf 2) (bit leaf 3)
    let go ← if (acc = 1 ∨ acc = 2) ∧ !big then s.cowTest die pa else .ok true
    let size := if big then 2 ^ 30 else 2 ^ 17
    .ok (if go then
      .ok pa ⟨part, va / size, big, pa - va % size, bit leaf 1, bit leaf 2, bit leaf 3, bit leaf 5,
        decide (acc = 1 ∨ acc = 2)⟩
    else .wait)
  match r with
  | .ok x => x
  | .error f => if f = unanswered then .wait else .fault f

/-- Whether a cached entry serves an access (R140): same page, same partition or G, and for a write filled by a walk for
a write. -/
def TlbEnt.serves (e : TlbEnt) (part va : Nat) (acc : Acc) : Bool :=
  (e.part == part || e.glob) && (va / (if e.big then 2 ^ 30 else 2 ^ 17) == e.page)
    && (e.forWrite || !(acc == 1 || acc == 2))

/-- The address a cached entry gives, under its own permissions. -/
def TlbEnt.use (e : TlbEnt) (va : Nat) (acc : Acc) : Xlate :=
  match permOk acc e.r e.w e.x with
  | .ok _ => .ok (e.base + va % (if e.big then 2 ^ 30 else 2 ^ 17)) e
  | .error f => .fault f

/-- A translated access waits where nothing answers for its address. -/
def State.answered (s : State) : Xlate → Xlate
  | .ok pa e => if s.reaches pa then .ok pa e else .wait
  | x => x

/-- A translation on a die: by a micro-TLB, by the shared TLB, or by a walk (R140). -/
def State.translate (s : State) (utlb : List TlbEnt) (die part va : Nat) (acc : Acc) : Xlate :=
  s.answered (match utlb.find? (·.serves part va acc) with
    | some e => e.use va acc
    | none =>
      match (s.die die).tlb.find? (·.serves part va acc) with
      | some e => e.use va acc
      | none => s.walk die part va acc)

/-- Keep an entry in a cache of n entries; the oldest goes when it is full (R140). -/
def tlbKeep (n : Nat) (e : TlbEnt) (l : List TlbEnt) : List TlbEnt := (e :: l.filter (· != e)).take n

/-- Fill the shared TLB of a die (R140). -/
def State.fillShared (s : State) (die : Nat) (e : TlbEnt) : State :=
  s.updDie die fun d => { d with tlb := tlbKeep 16384 e d.tlb }

/-- Fill the micro-TLB of the issuing sequencer and the shared TLB of its die (R140). -/
def State.fillTlbs (s : State) (e : TlbEnt) : State :=
  (s.fillShared s.myDie e).updSeq fun q => { q with utlb := tlbKeep 64 e q.utlb }

/-- A translated data address, and no window's (R130, R259). -/
def plainAddr (va : Nat) : Bool := decide (va < 2 ^ 55)

/-- The shared TLB of a die takes the translations of addresses that have been used there for a partition (R140). -/
def State.noteUse (s : State) (die part : Nat) (l : List (Nat × Acc)) : State :=
  l.foldl (fun s x =>
    if !plainAddr x.1 then s
    else match s.translate [] die part x.1 x.2 with
      | .ok _ e => s.fillShared die e
      | _ => s) s

/-- An address in each 128 KiB page that n bytes touch. -/
def pagesOf (va n : Nat) (acc : Acc) : List (Nat × Acc) :=
  (List.range (if n = 0 then 0 else (va % 2 ^ 17 + n + (2 ^ 17 - 1)) / 2 ^ 17)).map fun k =>
    (if k = 0 then va else (va / 2 ^ 17 + k) * 2 ^ 17, acc)

/-! The window (R130 to R132). -/

/-- The key of a scratchpad byte: its window address. -/
def windowKey (die slot eng off : Nat) : Nat := 2 ^ 55 + die * 2 ^ 53 + slot * 2 ^ 49 + eng * 2 ^ 45 + off

/-- A gang slot is present, as INVSLOT has it: one that has been retired goes once no context is on it (R326, R368). -/
def State.slotPresent (s : State) (die sl : Nat) : Bool :=
  (s.die die).invslot.getLsbD sl
    && (!((s.die die).slots.getD sl ⟨[], [], [], true⟩).retired || s.gangs.any fun g =>
      match g.place with
      | .run d n _ => d == die && n == sl
      | .shadow d n _ => d == die && n == sl
      | _ => false)

/-- A window address breaks its layout (R130): PAGE 5. -/
def State.windowBad (s : State) (va : Nat) : Bool :=
  let d := bits va 54 53; let sl := bits va 52 49; let e := bits va 48 45
  decide (bits va 44 20 ≠ 0) || decide (12 ≤ sl) || decide (s.dies.length ≤ d) || !s.slotPresent d sl
    || !((s.die d).inveng.getD sl 0).getLsbD e

/-- Whether a context is resident on a slot, with its scratchpad, and holds an engine of it (R131, R341). -/
def Gang.owns (g : Gang) (d sl e : Nat) : Bool :=
  match g.place with
  | .run d' sl' h | .shadow d' sl' h =>
    d' == d && sl' == sl && (g.info.width == 16 || e / 8 == h)
  | _ => false

/-- A context lets an access to its scratchpads in: one that has no number is a new one (R341). -/
def Gang.opens (g : Gang) (tkt : Option Nat) : Bool :=
  match g.closed, tkt with
  | none, _ => true
  | some _, none => false
  | some n, some t => decide (t < n)

/-- The permission of a window access (R131, R341): the context that owns the region, and its partition. -/
def State.windowPerm (s : State) (part va : Nat) (tkt : Option Nat) : Except AFault Unit :=
  let live := decide (0xC_0000 ≤ va % 2 ^ 20)
  match s.gangs.find? fun g => g.owns (bits va 54 53) (bits va 52 49) (bits va 48 45) && (g.info.cls == 0) == live with
  | none => .error (.prot, 4)
  | some g => if !g.opens tkt then .error (.prot, 4) else if g.info.part = part then .ok () else .error (.prot, 3)

/-- What a data address gives: the key of its byte, with the entry a cache may take. -/
inductive Loc where
  | at_ (key : Nat) (e : Option TlbEnt)
  | fault (f : AFault)
  | wait
  deriving DecidableEq, Repr

/-- The checks of a memory access in the order of R141, for an access that must be a multiple of `align`; `tkt` is the
number of one that issued earlier. -/
def State.locateFor (s : State) (tkt : Option Nat) (utlb : List TlbEnt) (die part : Nat) (sys : Bool) (a align : Nat)
    (acc : Acc) : Loc :=
  if sys ∧ bit a 63 ∧ bits a 62 52 = 0 then
    let pa := a % 2 ^ 52
    if pa % align ≠ 0 then .fault (.align, 1)
    else if !s.backed pa then .fault (.page, 4)
    else if s.reaches pa then .at_ pa none else .wait
  else if bits a 63 56 ≠ 0 then .fault (.page, 6)
  else if a % align ≠ 0 then .fault (.align, 1)
  else if bit a 55 then
    if s.windowBad a then .fault (.page, 5)
    else match s.windowPerm part a tkt with
      | .ok _ => .at_ a none
      | .error f => .fault f
  else match s.translate utlb die part a acc with
    | .ok pa e => .at_ pa (some e)
    | .fault f => .fault f
    | .wait => .wait

/-- The checks of an access that issues now. -/
def State.locate (s : State) (utlb : List TlbEnt) (die part : Nat) (sys : Bool) (a align : Nat) (acc : Acc) : Loc :=
  s.locateFor none utlb die part sys a align acc

/-- TRAPINFO of a fault of a data address (R141); a physical address of SYS mode is reported whole (R320). -/
def faultInfo (f : AFault) (a : Nat) : Word := infoOf f.2 (a % 2 ^ 56)

/-- The place in the scratchpad of a local offset: the class's region of the lane's engine (R132). -/
def Gang.localKey (g : Gang) (l off : Nat) : Nat :=
  windowKey g.place.die g.place.slot (g.engine l) ((if g.info.cls = 0 then 0xC_0000 else 0) + off)

/-- A local access lies in the allocation (R132). -/
def Gang.inAlloc (g : Gang) (off n : Nat) : Bool := decide (off + n ≤ g.info.spBytes)

end Sys2Proof.Machine
end

