-- ==== Sys2Proof/Machine/Fetch.lean ====
section
/-! DEFINITION. Instruction memory and fetch (R28, R80, R103 to R108): which image a sequencer runs, the four frames of
a slot, starting and ending the fetch of a segment, and reading the bundle at an image address. -/

namespace Sys2Proof.Machine

/-- The slot the gang in focus is on. -/
def State.mySlot (s : State) : GSlot := (s.die s.myDie).slots.getD s.g.place.slot ⟨[], [], [], false⟩

/-- Change the slot the gang in focus is on. -/
def State.updMySlot (s : State) (f : GSlot → GSlot) : State :=
  s.updDie s.myDie fun d => { d with slots := updAt s.g.place.slot f d.slots }

/-- The segment table of the image that runs: the launch's, or the handler's in SYS mode (R103, R321). -/
def State.imageTab (s : State) : Nat := if s.g.inSys then s.partReg.hseg.toNat else s.g.info.segTab

/-- The launch whose image runs; a handler's image belongs to none, and 0 stands for that (R104, R321). -/
def State.imageOwner (s : State) : Nat := if s.g.inSys then 0 else s.g.info.lid

/-- Whether a frame holds, or is being filled with, a segment of an image of a launch. -/
def SegFrame.is (f : SegFrame) (lid tab part seg : Nat) : Bool :=
  f.fill != .empty && f.lid == lid && f.tab == tab && f.part == part && f.seg == seg

/-- The frame of a segment of the image that runs. -/
def State.frameOf (s : State) (seg : Nat) : Option SegFrame :=
  s.mySlot.frames.find? fun f => f.is s.imageOwner s.imageTab s.g.info.part seg

/-- A SEG cause at the fetch line (R107, R323). -/
def segExc (sub value slot : Nat) : Exc := ⟨.seg, infoOf sub (value % 2 ^ 56), slot⟩

/-- What is found at an image address: a bundle with its head's address and the address after it; a bundle that is refused
for its head or its line; a fault with the address fetched; or a segment that is not resident. -/
inductive Fetched where
  | bundle (head next : Nat) (b : Bundle)
  | bad (head : Nat) (b : Bundle)
  | fault (pc : Nat) (e : Exc)
  | absent (seg : Nat)
  deriving DecidableEq, Repr

/-- Fetch at an address, skipping line-end heads (R28, R80, R107). `atEnd` says that the address is one past a 64 KiB
segment, which has no offset of its own. -/
def State.fetchAt (s : State) : Nat → Nat → Bool → Fetched
  | 0, pc, _ => .fault pc (segExc 3 pc 7)
  | n + 1, pc, atEnd =>
    if atEnd then .fault pc (segExc 3 pc 7)
    else if 2 ^ 22 ≤ pc then .fault pc (segExc 4 pc 7)
    else if pc % 2 = 1 then .fault pc ⟨.align, infoOf 1 (pc % 2 ^ 56), 7⟩
    else
      match s.frameOf (pc / 2 ^ 16) with
      | none => .absent (pc / 2 ^ 16)
      | some f =>
        match f.fill with
        | .resident =>
          let off := pc % 2 ^ 16
          if f.len ≤ off then .fault pc (segExc 3 pc 7)
          else
            let room := 64 - off % 64
            match readLine (f.data.bytes off room) with
            | .lineEnd => s.fetchAt n (pc + room) (decide ((pc + room) % 2 ^ 16 = 0))
            | .bad b => .bad pc b
            | .bundle b => .bundle pc (pc + b.head.len) b
        | .failed e => .fault pc e
        | _ => .absent (pc / 2 ^ 16)

/-- The bundle at an address. A segment has at most 1,024 lines, so at most as many line-end heads follow each other. -/
def State.fetch (s : State) (pc : Nat) (atEnd : Bool) : Fetched := s.fetchAt 1030 pc atEnd

/-- One past an address of the same segment: whether sequential fetch has run off a 64 KiB segment. -/
def ranOff (head next : Nat) : Bool := decide (head / 2 ^ 16 ≠ next / 2 ^ 16)

/-! Starting a fetch (R104, R106, R107). -/

/-- The segments that the sequencers of a context hold frames for: those being fetched from now, and those a frozen
sequencer resumes at (R104). -/
def State.holds (s : State) (g : Gang) : List (Nat × Nat × Nat × Nat) × List (Nat × Nat × Nat × Nat) :=
  let u (pc : Nat) := (g.info.lid, g.info.segTab, g.info.part, pc / 2 ^ 16)
  match g.mode with
  | .user => (if g.split then [u g.q0.pc, u g.q1.pc] else [u g.q0.pc], [])
  | .sys h =>
    let hs := ((s.die g.place.die).parts.getD g.info.part ⟨0, 0, 0⟩).hseg.toNat
    ([(0, hs, g.info.part, (g.seq h.q).pc / 2 ^ 16)],
      if g.split then [u g.trapPc.toNat, u (g.seq (1 - h.q)).pc] else [u g.trapPc.toNat])

/-- The frame a fetch takes: the least recently fetched-from that may be taken, and only when there is no other, one a
frozen sequencer resumes in (R104). -/
def State.victimFrame (s : State) : Option Nat :=
  let here := s.gangs.filter fun g => g.place.running && g.place.die == s.myDie && g.place.slot == s.g.place.slot
  let now := (here.map fun g => (s.holds g).1).flatten
  let later := (here.map fun g => (s.holds g).2).flatten
  let frames := s.mySlot.frames
  let ok (ban : List (Nat × Nat × Nat × Nat)) (i : Nat) : Bool :=
    match frames[i]? with
    | none => false
    | some f => f.fill == .empty || (f.fill != .filling && !ban.contains (f.lid, f.tab, f.part, f.seg))
  let age (i : Nat) : Nat :=
    match frames[i]? with
    | none => 0
    | some f => if f.fill == .empty then 0 else f.used + 1
  let pick (c : List Nat) : Option Nat :=
    c.foldl (fun b i => match b with
      | none => some i
      | some j => if age i < age j then some i else some j) none
  match pick ((List.range frames.length).filter (ok (now ++ later))) with
  | some i => some i
  | none => pick ((List.range frames.length).filter (ok now))

/-- What a request for a segment comes to: it is resident or on its way; its fetch starts; its table entry is refused; or
no frame can be taken, and the frame it wants is given with what the entry says. -/
inductive SegAsk where
  | here
  | started (s : State)
  | trap (e : Exc)
  | full (w : SegFrame)
  deriving DecidableEq, Repr

/-- A frame whose filling failed gives its fault once; a later request asks for the segment again (R107). -/
def State.dropFailed (s : State) (seg : Nat) : State :=
  let tab := s.imageTab
  let part := s.g.info.part
  s.updMySlot fun sl =>
    let clear (f : SegFrame) : SegFrame :=
      match f.is s.imageOwner tab part seg, f.fill with
      | true, .failed _ => SegFrame.empty
      | _, _ => f
    { sl with frames := sl.frames.map clear }

/-- Begin to fill the frame a fetch takes (R104); none while no frame can be taken. DESIGN CHOICE: the start of its filling counts as
a fetch from the frame; R104 does not place a frame that is filled and not yet fetched from among the least recently fetched-from. -/
def State.takeFrame (s : State) (w : SegFrame) : Option State :=
  s.victimFrame.map fun i => s.updMySlot fun sl => { sl with
    frames := updAt i (fun _ => { w with used := (sl.frames.map (·.used)).foldl max 0 + 1 }) sl.frames }

/-- The request for a segment that no frame has. Its table entry is read through the sequencer's own translation, whose
walk the caches keep (R140). -/
def State.askNew (s : State) (tab seg slot : Nat) : SegAsk :=
  match s.locate s.seq.utlb s.myDie s.g.info.part false (tab + 16 * seg) 1 0 with
  | .fault _ => .trap (segExc 5 (tab + 16 * seg) slot)
  | .wait => .here
  | .at_ key ent =>
    let va := s.mem.le key 8
    let len := s.mem.le (key + 8) 4
    if s.mem.le (key + 13) 1 % 2 = 0 then .trap (segExc 1 seg slot)
    else if len % 64 ≠ 0 ∨ len < 64 ∨ 65536 < len ∨ va % 64 ≠ 0 ∨ 2 ^ 55 ≤ va then .trap (segExc 2 seg slot)
    else
      let w : SegFrame :=
        { lid := s.imageOwner, tab := tab, part := s.g.info.part, seg := seg, base := va, len := len, next := s.mem.le (key + 12) 1,
          fill := .filling, data := [], used := 0, gid := s.g.gid, q := s.cur.q }
      match s.takeFrame w with
      | none => .full w
      | some t => .started (match ent with
        | some e => t.fillTlbs e
        | none => t)

/-- Ask for a segment: it is resident or on its way, its fetch starts, its table entry is refused (R107, subcodes 1, 2
and 5), or no frame can be taken (R104). A frame whose filling failed is emptied first. -/
def State.askSegment (s : State) (seg slot : Nat) : SegAsk :=
  let tab := s.imageTab
  match s.frameOf seg with
  | some f =>
    match f.fill with
    | .failed _ => (s.dropFailed seg).askNew tab seg slot
    | _ => .here
  | none => s.askNew tab seg slot

/-- The background fetch of a segment at issue (R82, R106): where no frame can be taken, it waits until one can (R104). -/
def State.startFetch (s : State) (seg : Nat) : State :=
  match s.askSegment seg 0 with
  | .started s' => s'
  | .full w => s.updMySlot fun sl => { sl with wants := sl.wants.filter (· != w) ++ [w] }
  | _ => s

/-- The context that asked for a segment is still one of the slot of the gang in focus: on it, or in its shadow storage. -/
def State.stillWants (s : State) (w : SegFrame) : Bool :=
  s.gangs.any fun g => g.gid == w.gid && match g.place with
    | .run d sl _ => d == s.myDie && sl == s.g.place.slot
    | .shadow d sl _ => d == s.myDie && sl == s.g.place.slot
    | _ => false

/-- One fetch that waits for a frame takes one when it can; it is joined to a fetch of the same segment (R104, R105), and is given
up when the context that asked for it has left the slot. -/
def State.serveWant (s : State) (w : SegFrame) : State :=
  let drop (s : State) : State := s.updMySlot fun sl => { sl with wants := sl.wants.filter (· != w) }
  if !s.stillWants w || s.mySlot.frames.any fun f => f.is w.lid w.tab w.part w.seg then drop s
  else match s.takeFrame w with
    | none => s
    | some t => drop t

/-- The fetches that wait for a frame of the slot, in the order they were asked for. -/
def State.serveWants (s : State) : State := s.mySlot.wants.foldl State.serveWant s

/-- The micro-TLB through which a frame's segment is read: that of the sequencer that asked for it, while its context is
on the die (R140). -/
def State.frameTlb (s : State) (die : Nat) (f : SegFrame) : List TlbEnt :=
  match s.gangs.find? fun g => g.gid == f.gid && g.place.running && g.place.die == die with
  | some g => (g.seq f.q).utlb
  | none => []

/-- A walk for a fetch is kept by the caches of the die and of the sequencer that asked for the segment (R140). -/
def State.keepWalk (s : State) (die : Nat) (f : SegFrame) (e : TlbEnt) : State :=
  (s.fillShared die e).mapGangs fun g =>
    if g.gid = f.gid ∧ g.place.running ∧ g.place.die = die then g.updSeq f.q fun q => { q with utlb := tlbKeep 64 e q.utlb }
    else g

/-- The bytes of a frame's segment through its partition's translation with execute permission, in pieces of a 128 KiB page
(R104, R107), with the walks kept; `off` bytes are there already. The failure is the address whose translation failed, or none for memory that
nothing answers for, for which the fetch waits. -/
def State.readSegment (s : State) (die : Nat) (f : SegFrame) : Nat → Nat → Nat → Nat → Memory → State × Except (Option Nat) Memory
  | 0, _, _, _, m => (s, .ok m)
  | n + 1, va, len, off, m =>
    if len = 0 then (s, .ok m)
    else match s.translate (s.frameTlb die f) die f.part va 3 with
    | .ok pa e =>
      let k := min len (2 ^ 17 - va % 2 ^ 17)
      (s.keepWalk die f e).readSegment die f n (va + k) (len - k) (off + k)
        (m ++ (s.mem.region pa k).map fun c => (off + c.1, c.2))
    | .fault _ => (s, .error (some va))
    | .wait => (s, .error none)

end Sys2Proof.Machine
end

