-- ==== Sys2Proof/Machine/Formats.lean ====
section
/-! DEFINITION. Number formats and exact arithmetic (R62 to R77): descriptors, the values of the pseudocode, decode(),
round(), scale(), and the operations that form an exact value with its flags. -/

namespace Sys2Proof.Machine

/-- The sticky flags (R78). -/
abbrev FlagBits := BitVec 5

/-- INVALID. -/
def fInvalid : FlagBits := 1
/-- DIVZERO. -/
def fDivzero : FlagBits := 2
/-- OVERFLOW. -/
def fOverflow : FlagBits := 4
/-- UNDERFLOW. -/
def fUnderflow : FlagBits := 8
/-- INEXACT. -/
def fInexact : FlagBits := 16

/-- A value (R66): NaN, an infinity or a zero with its sign (true is negative), or the real number m * 2^e / d with m not
0 and d not 0. -/
inductive Val where
  | nan
  | inf (neg : Bool)
  | zero (neg : Bool)
  | num (m e : Int) (d : Nat)
  deriving DecidableEq, Repr

/-- A value with the flags of its forming. -/
abbrev Formed := Val × FlagBits

/-- A real number as a value; zero is +0. -/
def Val.ofInt (i : Int) : Val := if i = 0 then .zero false else .num i 0 1

/-- The sign of a value that has one. -/
def Val.neg : Val → Bool
  | .nan => false
  | .inf n => n
  | .zero n => n
  | .num m _ _ => decide (m < 0)

/-! Descriptors (R68). -/

/-- The element format code. -/
def fElem (f : Word) : Nat := f.toNat % 16
/-- The scale mode: 0 NONE, 1 ROW, 2 COL, 3 GRP64. -/
def fSmode (f : Word) : Nat := bits f.toNat 5 4
/-- Scales are BF16. -/
def fSfmt (f : Word) : Bool := f.getLsbD 6
/-- Saturate. -/
def fSat (f : Word) : Bool := f.getLsbD 7
/-- Rounding: 0 RNE, 1 RZ, 2 RDN, 3 RUP. -/
def fRmode (f : Word) : Nat := bits f.toNat 9 8
/-- Flush subnormals. -/
def fFtz (f : Word) : Bool := f.getLsbD 10
/-- A descriptor admission accepts (R69). -/
def fmtOk (f : Word) : Bool := decide (fElem f ≤ 9) && decide (f.toNat / 2 ^ 11 = 0)
/-- fsRNE (R76): FP32, RNE, no saturation, no flush, no scale. -/
def fsRne : Word := 0

/-- The width of a format (R62). -/
def widthOf (elem : Nat) : Nat :=
  match elem with
  | 0 | 6 => 32
  | 1 | 2 => 16
  | 3 | 4 | 7 | 8 => 8
  | _ => 4

/-- Integer formats (R62). -/
def isInt (elem : Nat) : Bool := decide (6 ≤ elem) && decide (elem ≤ 9)
/-- Float formats (R62). -/
def isFloat (elem : Nat) : Bool := decide (elem ≤ 5)

/-- Exponent bits, mantissa bits and bias of a float format (R63). -/
def floatParams (elem : Nat) : Nat × Nat × Nat :=
  match elem with
  | 0 => (8, 23, 127)
  | 1 => (8, 7, 127)
  | 2 => (5, 10, 15)
  | 3 => (4, 3, 7)
  | 4 => (5, 2, 15)
  | _ => (2, 1, 1)

/-- The encoding of the largest finite value (R63). -/
def maxBits (elem : Nat) : Nat :=
  match elem with
  | 0 => 0x7F7FFFFF
  | 1 => 0x7F7F
  | 2 => 0x7BFF
  | 3 => 0x7E
  | 4 => 0x7B
  | _ => 0x7

/-- canon(f): the canonical NaN, or 0 for F4 and the integer formats (R63, R73). -/
def canonBits (elem : Nat) : Nat :=
  match elem with
  | 0 => 0x7FC00000
  | 1 => 0x7FC0
  | 2 => 0x7E00
  | 3 => 0x7F
  | 4 => 0x7E
  | _ => 0

/-- decode(f, bits) (R73) of an element of a format, flushing subnormals when `ftz`. -/
def decodeElem (elem : Nat) (ftz : Bool) (b : Nat) : Val :=
  let w := widthOf elem
  let b := b % 2 ^ w
  if elem = 8 then .ofInt b
  else if isInt elem then .ofInt (sextNat b w)
  else
    let (eb, mb, bias) := floatParams elem
    let s := b.testBit (w - 1)
    let ex := b / 2 ^ mb % 2 ^ eb
    let mt := b % 2 ^ mb
    if (elem = 0 ∨ elem = 1 ∨ elem = 2 ∨ elem = 4) ∧ ex = 2 ^ eb - 1 then (if mt = 0 then .inf s else .nan)
    else if elem = 3 ∧ ex = 15 ∧ mt = 7 then .nan
    else if ex = 0 ∧ (mt = 0 ∨ ftz) then .zero s
    else
      let m : Int := if ex = 0 then mt else 2 ^ mb + mt
      let e : Int := (if ex = 0 then 1 else (ex : Int)) - bias - mb
      .num (if s then -m else m) e 1

/-- decode() under a descriptor (R73). -/
def decodeF (f : Word) (b : Nat) : Val := decodeElem (fElem f) (fFtz f) b

/-! Exact operations (R66). -/

/-- Bring two reals to one exponent and one denominator: the numerators, the exponent, the denominator. -/
def alignNum (m1 e1 : Int) (d1 : Nat) (m2 e2 : Int) (d2 : Nat) : Int × Int × Int × Nat :=
  let e := min e1 e2
  (m1 * 2 ^ (e1 - e).toNat * d2, m2 * 2 ^ (e2 - e).toNat * d1, e, d1 * d2)

/-- The sign of an exact zero that comes from values of both signs: -0 under RDN only (R66). -/
def zeroSum (rmode : Nat) : Val := .zero (decide (rmode = 2))

/-- a + b under a rounding mode, which matters for the sign of zero only. -/
def Val.add (rmode : Nat) : Val → Val → Formed
  | .nan, _ => (.nan, 0)
  | _, .nan => (.nan, 0)
  | .inf a, .inf b => if a = b then (.inf a, 0) else (.nan, fInvalid)
  | .inf a, _ => (.inf a, 0)
  | _, .inf b => (.inf b, 0)
  | .zero a, .zero b => (if a = b then .zero a else zeroSum rmode, 0)
  | .zero _, y => (y, 0)
  | x, .zero _ => (x, 0)
  | .num m1 e1 d1, .num m2 e2 d2 =>
    let (a, b, e, d) := alignNum m1 e1 d1 m2 e2 d2
    (if a + b = 0 then zeroSum rmode else .num (a + b) e d, 0)

/-- -a. -/
def Val.negate : Val → Val
  | .nan => .nan
  | .inf n => .inf !n
  | .zero n => .zero !n
  | .num m e d => .num (-m) e d

/-- |a|. -/
def Val.abs : Val → Val
  | .nan => .nan
  | .inf _ => .inf false
  | .zero _ => .zero false
  | .num m e d => .num m.natAbs e d

/-- a * b. -/
def Val.mul : Val → Val → Formed
  | .nan, _ => (.nan, 0)
  | _, .nan => (.nan, 0)
  | .inf _, .zero _ => (.nan, fInvalid)
  | .zero _, .inf _ => (.nan, fInvalid)
  | .num m1 e1 d1, .num m2 e2 d2 => (.num (m1 * m2) (e1 + e2) (d1 * d2), 0)
  | .inf a, y => (.inf (a != y.neg), 0)
  | x, .inf b => (.inf (x.neg != b), 0)
  | .zero a, y => (.zero (a != y.neg), 0)
  | x, .zero b => (.zero (x.neg != b), 0)

/-- a / b. -/
def Val.div : Val → Val → Formed
  | .nan, _ => (.nan, 0)
  | _, .nan => (.nan, 0)
  | .inf _, .inf _ => (.nan, fInvalid)
  | .zero _, .zero _ => (.nan, fInvalid)
  | .inf a, y => (.inf (a != y.neg), 0)
  | x, .inf b => (.zero (x.neg != b), 0)
  | .zero a, y => (.zero (a != y.neg), 0)
  | x, .zero b => (.inf (x.neg != b), fDivzero)
  | .num m1 e1 d1, .num m2 e2 d2 =>
    let m := m1 * d2 * (if m2 < 0 then -1 else 1)
    (.num m (e1 - e2) (d1 * m2.natAbs), 0)

/-- a - b. -/
def Val.sub (rmode : Nat) (a b : Val) : Formed := a.add rmode b.negate

/-- Whether a is below b, as real numbers with infinities; NaN is below nothing, and the zeros are equal. -/
def Val.lt : Val → Val → Bool
  | .nan, _ => false
  | _, .nan => false
  | .inf a, .inf b => a && !b
  | .inf a, _ => a
  | _, .inf b => !b
  | .zero _, .zero _ => false
  | .zero _, .num m _ _ => decide (0 < m)
  | .num m _ _, .zero _ => decide (m < 0)
  | .num m1 e1 d1, .num m2 e2 d2 =>
    let (a, b, _, _) := alignNum m1 e1 d1 m2 e2 d2
    decide (a < b)

/-- Whether a value is NaN. -/
def Val.isNan : Val → Bool
  | .nan => true
  | _ => false

/-- a = b as numbers; the zeros are equal (R204). -/
def Val.eqv (a b : Val) : Bool := !a.isNan && !b.isNan && !a.lt b && !b.lt a

/-- The order of TMIN and TMAX: -0 below +0 (R204). -/
def Val.ltz (a b : Val) : Bool :=
  match a, b with
  | .zero x, .zero y => x && !y
  | _, _ => a.lt b

/-- minimum and maximum; NaN when an operand is (R204). -/
def Val.min2 (a b : Val) : Val := if a.isNan || b.isNan then .nan else if b.ltz a then b else a

/-- maximum; NaN when an operand is (R204). -/
def Val.max2 (a b : Val) : Val := if a.isNan || b.isNan then .nan else if a.ltz b then b else a

/-- An exact sum judged on its terms as a whole (R66): INVALID when the terms that are not NaN include both infinities,
whatever else is there; a NaN otherwise makes it NaN and raises nothing. -/
def sumVals (rmode : Nat) (ts : List Val) : Formed :=
  let hasInf (n : Bool) : Bool := ts.any fun t => t == .inf n
  if hasInf true && hasInf false then (.nan, fInvalid)
  else if ts.any (·.isNan) then (.nan, 0)
  else match ts with
    | [] => (.zero false, 0)
    | t :: ts => (ts.foldl (fun a b => (a.add rmode b).1) t, 0)

/-- The sum of products of formed terms (R66): the INVALID of any product stands. -/
def sumFormed (rmode : Nat) (ts : List Formed) : Formed :=
  let (v, f) := sumVals rmode (ts.map (·.1))
  (v, ts.foldl (fun a t => a ||| t.2) f)

/-! Rounding (R72). -/

/-- round(n / d, mode) of a non-negative quotient whose number is negative when `neg`: the magnitude, and whether it is
inexact. -/
def roundQuot (mode : Nat) (neg : Bool) (n d : Nat) : Nat × Bool :=
  let q := n / d
  let r := n % d
  if r = 0 then (q, false)
  else
    let up : Bool := match mode with
      | 0 => decide (d < 2 * r) || (decide (2 * r = d) && q % 2 == 1)
      | 1 => false
      | 2 => neg
      | _ => !neg
    (if up then q + 1 else q, true)

/-- |m * 2^e / d| divided by 2^step, as a quotient of naturals. -/
def scaled (m e : Int) (d : Nat) (step : Int) : Nat × Nat :=
  let k := e - step
  if 0 ≤ k then (m.natAbs * 2 ^ k.toNat, d) else (m.natAbs, d * 2 ^ (-k).toNat)

/-- The integer q with 2^q ≤ |m * 2^e / d| < 2^(q+1). -/
def expOf (m e : Int) (d : Nat) : Int :=
  let q0 : Int := (Nat.log2 m.natAbs : Int) - Nat.log2 d + e
  let (n, k) := scaled m e d q0
  if k ≤ n then q0 else q0 - 1

/-! Scales (R71). -/

/-- The entry of the scale register an element takes. `colDir` says that groups run along the column direction. -/
def scaleIndex (f : Word) (colDir : Bool) (row col : Nat) : Nat :=
  match fSmode f with
  | 1 => row
  | 2 => col
  | _ => if colDir then col else row * max 1 (16 / widthOf (fElem f)) + col / 64

/-- scale(fs, sc, pos) (R71); `sc` reads a byte of the scale register. -/
def scaleOf (f : Word) (sc : Nat → Byte) (colDir : Bool) (row col : Nat) : Val :=
  if fSmode f = 0 then .ofInt 1
  else
    let j := scaleIndex f colDir row col
    if fSfmt f then decodeElem 1 false ((sc (2 * j)).toNat + 256 * (sc (2 * j + 1)).toNat)
    else
      let v := (sc j).toNat
      if v = 255 then .nan else .num 1 ((v : Int) - 127) 1

end Sys2Proof.Machine
end

