-- ==== Sys2Proof/Machine/Flags.lean ====
section
/-! DEFINITION. encode() with the flags it raises (R74, R75), and setting and clearing the sticky flags of engines (R78,
R79). -/

namespace Sys2Proof.Machine

/-- The sign bit of a format. -/
def signBit (elem : Nat) (neg : Bool) : Nat := if neg then 2 ^ (widthOf elem - 1) else 0

/-- The encoding of a finite float of magnitude y * 2^(q - mb), with 2^mb ≤ y when q is above emin (R63, R74). -/
def floatBits (elem : Nat) (neg : Bool) (y : Nat) (q : Int) : Nat :=
  let (_, mb, bias) := floatParams elem
  let (y, q) := if 2 ^ (mb + 1) ≤ y then (y / 2, q + 1) else (y, q)
  if y < 2 ^ mb then signBit elem neg + y
  else signBit elem neg + (q + bias).toNat * 2 ^ mb + (y - 2 ^ mb)

/-- encode(f, x, fs) for a float format (R74); `odd` says that the exact value is not the one given but lies so close to
it that it rounds the same way and is never representable. -/
def encodeFloat (elem : Nat) (f : Word) (x : Val) (odd : Bool) : Nat × FlagBits :=
  let (_, mb, bias) := floatParams elem
  let emin : Int := 1 - (bias : Int)
  match x with
  | .nan => if elem = 5 then (0, fInvalid) else (canonBits elem, 0)
  | .inf n =>
    if fSat f || elem == 5 then (signBit elem n + maxBits elem, fOverflow)
    else if elem = 3 then (canonBits elem, fInvalid)
    else (signBit elem n + (2 ^ (floatParams elem).1 - 1) * 2 ^ mb, 0)
  | .zero n => (signBit elem n, 0)
  | .num m e d =>
    let neg := decide (m < 0)
    let q0 := expOf m e d
    if q0 < emin ∧ fFtz f then (signBit elem neg, fUnderflow ||| fInexact)
    else
      let q := max emin q0
      let (n, k) := scaled m e d (q - mb)
      let (y, inex) := roundQuot (fRmode f) neg n k
      let inex := inex || odd
      let fl : FlagBits := if inex then (fInexact ||| (if q0 < emin then fUnderflow else 0)) else 0
      let b := floatBits elem false y q
      if maxBits elem < b then
        let toinf := fRmode f == 0 || (fRmode f == 3 && !neg) || (fRmode f == 2 && neg)
        let fl := fl ||| fOverflow ||| fInexact
        if fSat f || elem == 5 || !toinf then (signBit elem neg + maxBits elem, fl)
        else if elem = 3 then (canonBits elem, fl)
        else (signBit elem neg + (2 ^ (floatParams elem).1 - 1) * 2 ^ mb, fl)
      else (signBit elem neg + b, fl)

/-- The range of an integer format (R62). -/
def intRange (elem : Nat) : Int × Int :=
  match elem with
  | 6 => (-2147483648, 2147483647)
  | 7 => (-128, 127)
  | 8 => (0, 255)
  | _ => (-8, 7)

/-- encode(f, x, fs) for an integer format (R74). -/
def encodeInt (elem : Nat) (f : Word) (x : Val) : Nat × FlagBits :=
  let (lo, hi) := intRange elem
  let w := widthOf elem
  let pat (i : Int) : Nat := (i % 2 ^ w).toNat
  match x with
  | .nan => (0, fInvalid)
  | .inf n => (pat (if n then lo else hi), fInvalid)
  | .zero _ => (0, 0)
  | .num m e d =>
    let neg := decide (m < 0)
    let (n, k) := scaled m e d 0
    let (y, inex) := roundQuot (fRmode f) neg n k
    let i : Int := if neg then -(y : Int) else y
    let fl : FlagBits := if inex then fInexact else 0
    if i < lo ∨ hi < i then
      if fSat f then (pat (if i < lo then lo else hi), fl ||| fOverflow) else (pat i, fl)
    else (pat i, fl)

/-- encode(f, x, fs) (R74): the element and the flags it raises. -/
def encodeF (elem : Nat) (f : Word) (x : Val) : Nat × FlagBits :=
  if isInt elem then encodeInt elem f x else encodeFloat elem f x false

/-- Encode a formed value: the flags of its forming join those of encode(). -/
def encodeFormed (elem : Nat) (f : Word) (x : Formed) : Nat × FlagBits :=
  let (b, fl) := encodeF elem f x.1
  (b, fl ||| x.2)

/-- setflag (R79): flags land with the result they accompany and combine by OR. -/
def Lane.setFlags (l : Lane) (f : FlagBits) : Lane := { l with status := l.status ||| f }

/-- A clear of flags by MOVSW (R126). -/
def Lane.clearFlags (l : Lane) (f : FlagBits) : Lane := { l with status := l.status &&& ~~~ f }

/-- FLAGS: the OR of the flags of the lanes of a mask (R78, R125). -/
def Gang.flagsOf (g : Gang) (m : Lanes) : FlagBits := (lanesOf m).foldl (fun a l => a ||| (g.lane l).status) 0

end Sys2Proof.Machine
end

