-- ==== Sys2Proof/Machine/Operands.lean ====
section
/-! DEFINITION. Every operand form: operand() and the immediates (R29, R54), predicates and guards (R31, R86), the stage
field (R36), active lanes (R54), format slots (R68), and reading and writing tiles, accumulators and scale registers
(R65, R197, R219). -/

namespace Sys2Proof.Machine

/-- The lanes that are active by the masks (R54). -/
def Gang.activeNow (g : Gang) (q : Nat) : Lanes := g.epres &&& (g.seq q).exec &&& ~~~ g.xmask &&& ~~~ g.pmask

/-- The active lanes of the bundle: those found when it issued. -/
def State.act (s : State) : Lanes := if s.cur.ready then s.cur.act else s.g.activeNow s.cur.q

/-- Whether a lane is active for the bundle (R17, R54). -/
def State.active (s : State) (l : Nat) : Bool := s.act.getLsbD l

/-- The active lanes in order. -/
def State.actives (s : State) : List Nat := lanesOf s.act

/-- The stage predicates of the innermost frame at the bundle's issue (R36, R86). -/
def State.stages (s : State) : Option (BitVec 4) := if s.cur.ready then s.cur.sp else s.seq.stages

/-- The literal word sign-extended (R54); 0 where the bundle has none, which decode refuses before it is read. -/
def State.literal (s : State) : Word :=
  match s.cur.lit with
  | some w => w.signExtend 64
  | none => 0

/-- operand(code) (R29, R54). -/
def State.operand (s : State) (c : BitVec 6) : Word := if c = 63 then s.literal else s.seq.reg c

/-- imm9, sign-extended (R109). -/
def simm9 (i : BitVec 9) : Word := i.signExtend 64

/-- A predicate as a guard or PLOG reads it: sp0 to sp3 stand for p4 to p7 while a frame is open (R86). -/
def State.readPred (s : State) (n : BitVec 3) : Bool :=
  match s.stages with
  | none => s.seq.pred n
  | some sp => if n.toNat < 4 then s.seq.pred n else sp.getLsbD (n.toNat - 4)

/-- The stage field lets a V, M or X word execute (R36). -/
def State.stageRuns (s : State) (st : BitVec 2) : Bool :=
  match s.stages with
  | none => true
  | some sp => sp.getLsbD st.toNat

/-- The descriptor a format-slot index names (R68). -/
def State.fmt (s : State) (n : BitVec 3) : Word := s.g.info.fmts.getD n.toNat 0

/-- The lanes that an instance of a width can have (R13, R14). -/
def widthLanes (w : Nat) : Lanes := if w = 8 then 0x00FF else 0xFFFF

/-- The lanes of a sequencer's own side while a split runs, and all present lanes otherwise (R96, R222). -/
def Gang.sideLanes (g : Gang) (q : Nat) : Lanes :=
  if !g.split then g.epres
  else match ((g.seq q).ds.find? fun e => e.kind == (if q = 0 then 1 else 2)) with
    | none => g.epres
    | some e => g.epres &&& (if e.phase then e.emask else e.rmask &&& ~~~ e.emask)

/-! Tiles (R65, R197). -/

/-- Where tile t stands in an engine's store (R346). -/
def tileBase (t : BitVec 4) : Nat := 0x2000 * t.toNat

/-- Where accumulator n stands. -/
def accBase (n : BitVec 2) : Nat := 0x2_0000 + 0x4000 * n.toNat

/-- Where scale register n stands. -/
def scBase (n : BitVec 2) : Nat := 0x3_0000 + 0x200 * n.toNat

/-- The shape tag of a tile. -/
def Lane.shape (l : Lane) (t : BitVec 4) : Nat × Nat := l.shapes.getD t.toNat (64, 128)

/-- ROWS of a tile. -/
def Lane.rows (l : Lane) (t : BitVec 4) : Nat := (l.shape t).1

/-- BYTES of a tile. -/
def Lane.rowBytes (l : Lane) (t : BitVec 4) : Nat := (l.shape t).2

/-- n bytes of row i of a tile from byte b on. -/
def Lane.row (l : Lane) (t : BitVec 4) (i b n : Nat) : List Byte := l.store.bytes (tileBase t + 128 * i + b) n

/-- The raw bits of element j of a row given as bytes, for elements of w bits (R65). -/
def elemOf (w : Nat) (row : List Byte) (j : Nat) : Nat :=
  if w = 4 then (row.getD (j / 2) 0).toNat / (if j % 2 = 0 then 1 else 16) % 16
  else leValue ((row.drop (j * w / 8)).take (w / 8))

/-- All the elements of w bits in a row of bytes (R65). -/
def elemsOf (w : Nat) : List Byte → List Nat
  | [] => []
  | b :: bs =>
    if w = 4 then b.toNat % 16 :: b.toNat / 16 :: elemsOf w bs
    else if w = 8 then b.toNat :: elemsOf w bs
    else (List.range ((bs.length + 1) * 8 / w)).map fun j => leValue (((b :: bs).drop (j * w / 8)).take (w / 8))

/-- The bytes of elements of w bits, the first lowest; an odd count of 4-bit elements leaves the last high nibble 0. -/
def bytesOfElems (w : Nat) : List Nat → List Byte
  | [] => []
  | [x] => if w = 4 then [BitVec.ofNat 8 (x % 16)] else leBytes (w / 8) x
  | x :: y :: r =>
    if w = 4 then BitVec.ofNat 8 (x % 16 + 16 * (y % 16)) :: bytesOfElems w r
    else leBytes (w / 8) x ++ bytesOfElems w (y :: r)

/-- The raw element j of row i of a tile. -/
def Lane.elem (l : Lane) (w : Nat) (t : BitVec 4) (i j : Nat) : Nat :=
  elemOf w (l.row t i (j * w / 8) (if w = 4 then 1 else w / 8)) (if w = 4 then j % 2 else 0)

/-- The elements of row i of a tile in its first n bytes. -/
def Lane.rowElems (l : Lane) (w : Nat) (t : BitVec 4) (i n : Nat) : List Nat := elemsOf w (l.row t i 0 n)

/-- A row mask: k0 is all ones (R215). -/
def Lane.mask (l : Lane) (k : BitVec 3) : Word := if k = 0 then BitVec.allOnes 64 else l.km.getD k.toNat 0

/-- The rows below n that a mask selects. -/
def maskRows (m : Word) (n : Nat) : List Nat := (List.range n).filter fun i => m.getLsbD i

/-- An engine scalar. -/
def Lane.es (l : Lane) (n : BitVec 4) : Word := l.e.getD n.toNat 0

/-- A condition bit. -/
def Lane.cond (l : Lane) (n : Nat) : Bool := l.c.getLsbD n

/-- acc[i][j] (R219). -/
def Lane.accWord (l : Lane) (a : BitVec 2) (i j : Nat) : Nat := l.store.le (accBase a + 256 * i + 4 * j) 4

/-- An accumulator result of a lane laid into its store; any other result leaves the store. -/
def Landed.intoAcc (l : Nat) (m : Memory) : Landed → Memory
  | .acc l' a rows => if l' = l then m.putRows (accBase a) rows else m
  | _ => m

/-- An engine as the M unit reads it: the accumulator writes of every instruction accepted before are there, those in
flight too, in the order of their acceptance (R221). -/
def Gang.accLane (g : Gang) (l : Nat) : Lane :=
  let e := g.lane l
  { e with store := g.fl.foldl (fun m x => x.what.foldl (Landed.intoAcc l) m) e.store }

/-- A run of bytes without those that another run of n bytes from o on covers. -/
def cutRow (o n : Nat) (r : Nat × List Byte) : List (Nat × List Byte) :=
  if overlaps o n r.1 r.2.length then
    [(r.1, r.2.take (o - r.1)), (max r.1 (o + n), r.2.drop (o + n - r.1))].filter (!·.2.isEmpty)
  else [r]

/-- An accumulator result in flight gives up the words that a later accepted instruction writes (R221). -/
def Landed.yieldAcc (l : Nat) (a : BitVec 2) (rows : List (Nat × List Byte)) : Landed → Landed
  | .acc l' a' old =>
    if l' = l ∧ a' = a then
      .acc l' a' (rows.foldl (fun rs w => rs.flatMap (cutRow w.1 w.2.length)) old)
    else .acc l' a' old
  | w => w

/-- Writing rows of an accumulator of a lane at acceptance, landing lat cycles later (R221). Of two results in flight for
one word the later accepted stands in the end, also where it lands first: the other gives the word up. -/
def State.landAccRows (s : State) (lat l : Nat) (a : BitVec 2) (rows : List (Nat × List Byte)) (more : List Landed) : State :=
  (s.updG fun g => { g with fl := g.fl.map fun x =>
    if lat < x.left then { x with what := x.what.map (Landed.yieldAcc l a rows) } else x }).landM lat (.acc l a rows :: more)

/-- A byte of a scale register. -/
def Lane.scByte (l : Lane) (n : BitVec 2) (j : Nat) : Byte := l.store.get (scBase n + j)

/-- A tile result: rows of bytes, each at a row and a byte of the tile, with the shape it takes. -/
def tileLand (l : Nat) (t : BitVec 4) (rows : List (Nat × List Byte)) (shape : Option (Nat × Nat)) : Landed :=
  .tile l t rows shape

/-- A row of bytes at row i, from byte b on, as a tile result names it. -/
def atRow (i b : Nat) (bs : List Byte) : Nat × List Byte := (128 * i + b, bs)

end Sys2Proof.Machine
end

