-- ==== Sys2Proof/Machine/Regs.lean ====
section
/-! DEFINITION. The system registers (R304, R326, R364 to R366, R369) and KILL (R344). -/

namespace Sys2Proof.Machine

/-- Access of a register number: absent, RO, WO or RW (R326, R364 to R366, R369). -/
inductive RegAccess where
  | absent | ro | wo | rw
  deriving DecidableEq, Repr

/-- The register map. -/
def regAccess (n : Nat) : RegAccess :=
  if n ≤ 0x007 then .rw
  else if 0x010 ≤ n ∧ n ≤ 0x018 then .rw
  else if n = 0x020 then .ro
  else if n = 0x021 then .rw
  else if 0x030 ≤ n ∧ n ≤ 0x03D then .ro
  else if n = 0x040 then .wo
  else if 0x050 ≤ n ∧ n ≤ 0x057 then .ro
  else if 0x060 ≤ n ∧ n ≤ 0x067 then .rw
  else if 0x070 ≤ n ∧ n ≤ 0x07F then .rw
  else if 0x080 ≤ n ∧ n ≤ 0x09F then .ro
  else if 0x100 ≤ n ∧ n ≤ 0x13F ∧ n % 4 ≠ 3 then .rw
  else .absent

/-- The number a selector names. -/
def selNum (sel : Word) : Nat := bits sel.toNat 11 0
/-- The die a selector names. -/
def selDie (sel : Word) : Nat := bits sel.toNat 13 12

/-- A selector that traps with ILL at issue (R326): a nonzero bit in [63:14], an absent number, or for a write an RO
register; and a NOTIFY value with a bit that must be zero (R364). -/
def selBad (sel : Word) (write : Option Word) : Bool :=
  decide (sel.toNat / 2 ^ 14 ≠ 0) ||
    match regAccess (selNum sel), write with
    | .absent, _ => true
    | .ro, some _ => true
    | .rw, some v => decide (0x070 ≤ selNum sel) && decide (selNum sel ≤ 0x07F)
        && (decide (bits v.toNat 63 52 ≠ 0) || decide (bits v.toNat 2 0 ≠ 0))
    | _, _ => false

/-- OFFSET as TSTAT holds it (R304). -/
def satOffset (i : Int) : Int := max (-2147483647) (min 2147483647 i)

/-- TSTAT (R304). -/
def TimeUnit.tstat (t : TimeUnit) : Word :=
  BitVec.ofNat 64 ((satOffset t.offset % 2 ^ 32).toNat * 256 + (if t.twoStep then 8 else 0) + (if t.hold then 4 else 0) +
    (if t.selected.isSome ∧ t.offset.natAbs < 100 then 2 else 0) + (if t.synced then 1 else 0))

/-- TCFG (R304). -/
def TimeUnit.tcfg (t : TimeUnit) : Word :=
  BitVec.ofNat 64 ((t.utcOff % 2 ^ 16).toNat * 65536 + t.annto % 16 * 256 + t.domain % 256)

/-- A write of TCFG: each field changes only to a value in its range (R304). DESIGN CHOICE: a new DOMAIN leaves the masters heard before
known, and the selected one selected, until their receipt timeout; R304 does not say what becomes of them. -/
def TimeUnit.writeTcfg (t : TimeUnit) (v : Word) : TimeUnit :=
  let a := bits v.toNat 11 8
  let d := bits v.toNat 7 0
  let t := if 2 ≤ a ∧ a ≤ 10 then { t with annto := a } else t
  if d < 128 then { t with domain := d } else t

/-- FABn (R365). -/
def Port.word (p : Port) : Word :=
  BitVec.ofNat 64 ((if p.up then 128 else 0) + (if p.en then 32 else 0) + p.inpart % 16)

/-- Word j of a 32-byte register, word 0 least significant (R369): bytes in the order a hash gives them are most
significant first. -/
def measWord (m : List Byte) (j : Nat) : Word := BitVec.ofNat 64 (leValue (m.reverse.drop (8 * j) |>.take 8))

/-- A health register (R366). -/
def Health.read (h : Health) (n : Nat) : Word :=
  match n with
  | 0 => BitVec.ofNat 64 h.droop
  | 1 => BitVec.ofNat 64 h.stretch
  | 2 => BitVec.ofNat 64 h.softC
  | 3 => BitVec.ofNat 64 h.eccC
  | 4 => BitVec.ofNat 64 h.softU
  | 5 => BitVec.ofNat 64 h.ageO
  | 6 => BitVec.ofNat 64 h.ageP
  | _ => h.vmarg

/-- INVSLOT: the slots present and not retired, or retired and not yet empty (R326, R368). -/
def State.invSlotWord (s : State) (die : Nat) : Word :=
  BitVec.ofNat 64 (((List.range 12).filter fun n => s.slotPresent die n).foldl (fun a n => a + 2 ^ n) 0)

/-- Reading a system register of a die; `scratch` holds the issuing sequencer's SSCR (R326). A WO register reads 0. -/
def State.sysRead (s : State) (scratch : List Word) (die n : Nat) : Word :=
  let d := s.die die
  if n ≤ 0x007 then scratch.getD n 0
  else if 0x030 < n ∧ n ≤ 0x03C then (d.inveng.getD (n - 0x031) 0).setWidth 64
  else if 0x050 ≤ n ∧ n ≤ 0x057 then d.health.read (n - 0x050)
  else if 0x060 ≤ n ∧ n ≤ 0x067 then (s.ports.getD (n - 0x060) ⟨false, false, 0⟩).word
  else if 0x070 ≤ n ∧ n ≤ 0x07F then d.notify.getD (n - 0x070) 0
  else if 0x080 ≤ n ∧ n ≤ 0x09F then measWord (d.meas.getD ((n - 0x080) / 4) []) (n % 4)
  else if 0x100 ≤ n ∧ n ≤ 0x13F then
    let p := d.parts.getD ((n - 0x100) / 4) ⟨0, 0, 0⟩
    if n % 4 = 0 then p.root else if n % 4 = 1 then p.hseg else p.hentry
  else match n with
    | 0x010 => d.ftbase
    | 0x011 => d.ftlen
    | 0x012 => d.rlbase
    | 0x013 => d.atbase
    | 0x014 => d.atlen
    | 0x015 => d.adbase
    | 0x016 => d.adsize
    | 0x017 => d.spillbase
    | 0x018 => d.spilln
    | 0x020 => d.tu.tstat
    | 0x021 => d.tu.tcfg
    | 0x030 => s.invSlotWord die
    | 0x03D => d.invmem.setWidth 64
    | _ => 0

/-- A stop asked of the gang in focus from outside it (R310, R344): an instance that is over already goes on to its end;
one in SYS mode is stopped at TRET. -/
def State.stopAsked (s : State) : State :=
  if s.g.haltIssued then s
  else if s.g.inSys then s.updG fun g => { g with drain := .stop }
  else s.updG Gang.stop

/-- KILL := v (R344). -/
def State.killWrite (s : State) (v : Word) : State :=
  let slot := bits v.toNat 5 0
  let half := bits v.toNat 6 6
  if !v.getLsbD 7 then s
  else match s.gangs.find? fun g =>
      match g.place with
      | .run d sl h => 12 * d + sl == slot && (g.info.width == 16 || h == half)
      | _ => false with
    | none => s
    | some g => s.withGang g.gid fun s =>
        if s.g.haltIssued ∨ s.g.stopping then s
        else (s.updLaunch s.g.info.lid fun l => { l with tally := l.tally.kill 8 0 }).stopAsked

/-- A port has left service: the outstanding parts that use it are lost (R187, R365). -/
def State.losePort (s : State) (port : Nat) : State :=
  s.mapGangs fun g => { g with parts := g.parts.map fun p =>
    if (p.kind = .put ∨ p.kind = .get) ∧ p.started ∧ p.peer = some port then { p with lost := true } else p }

/-- Writing a system register of a die (R326); SSCR is written where it lands, with the sequencer that issued. -/
def State.sysWrite (s : State) (die n : Nat) (v : Word) : State :=
  if n = 0x040 then s.killWrite v
  else if 0x060 ≤ n ∧ n ≤ 0x067 then
    let t := { s with ports := updAt (n - 0x060) (fun p => { p with en := v.getLsbD 5, inpart := v.toNat % 16 }) s.ports }
    if v.getLsbD 5 then t else t.losePort (n - 0x060)
  else s.updDie die fun d =>
    if 0x070 ≤ n ∧ n ≤ 0x07F then { d with notify := updAt (n - 0x070) (fun _ => v) d.notify }
    else if 0x100 ≤ n ∧ n ≤ 0x13F then
      { d with parts := updAt ((n - 0x100) / 4) (fun p =>
          if n % 4 = 0 then { p with root := v } else if n % 4 = 1 then { p with hseg := v }
          else if n % 4 = 2 then { p with hentry := v } else p) d.parts }
    else match n with
      | 0x010 => { d with ftbase := v }
      | 0x011 => { d with ftlen := v }
      | 0x012 => { d with rlbase := v }
      | 0x013 => { d with atbase := v }
      | 0x014 => { d with atlen := v }
      | 0x015 => { d with adbase := v }
      | 0x016 => { d with adsize := v }
      | 0x017 => { d with spillbase := v }
      | 0x018 => { d with spilln := v }
      | 0x021 => { d with tu := d.tu.writeTcfg v }
      | _ => d

/-- The SSCR of sequencer q of the gang in focus. -/
def State.scratch (s : State) (q : Nat) : List Word :=
  (s.mySlot.sscr.drop (8 * (if s.g.info.width = 8 then s.g.place.half else q))).take 8

/-- Write SSCR n of sequencer q of the gang in focus. -/
def State.writeScratch (s : State) (q n : Nat) (v : Word) : State :=
  s.updMySlot fun sl =>
    { sl with sscr := updAt (8 * (if s.g.info.width = 8 then s.g.place.half else q) + n) (fun _ => v) sl.sscr }

/-- A register's number is a fabric port's, whose die bits are ignored (R365). -/
def isPortReg (n : Nat) : Bool := decide (0x060 ≤ n) && decide (n ≤ 0x067)

/-- A selector names a register of a die whose boot has failed, which answers nothing but an attestation request (R369). A register
that belongs to no die, a sequencer's or a port's, is not one. -/
def State.selDead (s : State) (sel : Word) : Bool :=
  decide (0x007 < selNum sel) && !isPortReg (selNum sel) && (s.die (selDie sel)).failed

/-- A word of 8 free bytes. -/
def freeWord (n : Nat) : Word := BitVec.ofNat 64 (leValue ((List.range 8).map fun k => Config.freeByte (8 * n + k)))

/-- What SYSR reads when it lands: after every access before it, a SYSW of the same sequencer among them (R157, R326). DESIGN
CHOICE: the value is free where the register's die does not answer. -/
def State.sysTake (s : State) (q : Nat) (r : BitVec 6) (sel : Word) : State :=
  if s.selDead sel then
    let (k, s) := s.takeFree
    s.updG fun g => g.updSeq q fun x => x.setReg r (freeWord k)
  else s.updG fun g => g.updSeq q fun x => x.setReg r (s.sysRead (s.scratch q) (selDie sel) (selNum sel))

/-- What SYSW does when it lands (R326): nothing on a die that does not answer (R369). -/
def State.sysLand (s : State) (q : Nat) (sel v : Word) : State :=
  if s.selDead sel then s
  else if selNum sel ≤ 0x007 then s.writeScratch q (selNum sel) v else s.sysWrite (selDie sel) (selNum sel) v

end Sys2Proof.Machine
end

