-- ==== Sys2Proof/Machine/Landing.lean ====
section
/-! DEFINITION. Landings and the cycle (R45 to R48, R79, R100, R201): what a due result does to the register it names,
the order of results that land together, and the counting down of every interval by one cycle of the gang's clock. -/

namespace Sys2Proof.Machine

/-- A handler has written TRAPPC: it is an image address again (R80). -/
def Mode.written : Mode → Mode
  | .user => .user
  | .sys h => .sys { h with atEnd := false }

/-- One result lands in the gang in focus. -/
def State.landOne (s : State) (w : Landed) : State :=
  match w with
  | .sreg q r v => s.updG fun g => g.updSeq q fun x => x.setReg r v
  | .pred q n v => s.updG fun g => g.updSeq q fun x => x.setPred n v
  | .queue q n v => s.updG fun g => g.updSeq q fun x => { x with q := updAt n (· ++ [v]) x.q }
  | .tile l t rows shape => s.updLane l fun x =>
      { x with
        store := x.store.putRows (tileBase t) rows,
        shapes := match shape with
          | none => x.shapes
          | some sh => updAt t.toNat (fun _ => sh) x.shapes }
  | .nibble l t off high v => s.updLane l fun x =>
      let b := (x.store.get (tileBase t + off)).toNat
      let c := if high then b % 16 + 16 * (v % 16) else b / 16 * 16 + v % 16
      { x with store := x.store.set (tileBase t + off) (BitVec.ofNat 8 c) }
  | .scale l n cells => s.updLane l fun x =>
      { x with store := x.store.putRows (scBase n) cells }
  | .acc l a rows => s.updLane l fun x => { x with store := x.store.putRows (accBase a) rows }
  | .kmask l n v => s.updLane l fun x => { x with km := updAt n.toNat (fun _ => v) x.km }
  | .esc l n v => s.updLane l fun x => { x with e := updAt n.toNat (fun _ => v) x.e }
  | .cond l n v => s.updLane l fun x =>
      { x with c := if v then x.c ||| BitVec.ofNat 4 (2 ^ n.toNat) else x.c &&& ~~~ BitVec.ofNat 4 (2 ^ n.toNat) }
  | .flags l f => s.updLane l (·.setFlags f)
  | .clearFlags l f => s.updLane l (·.clearFlags f)
  | .lastBatch n => s.updG fun g => { g with lastBatch := n }
  | .contpc v => s.updG fun g => { g with contpc := v }
  | .trappc v => s.updG fun g => { g with trapPc := v, mode := g.mode.written }
  | .unpark m => s.updG fun g => g.unpark m
  | .sysreg q sel v => s.sysLand q sel v
  | .sysread q r sel => s.sysTake q r sel
  | .token q sys n => s.lower q sys n

/-- The tile or scale register a result names: lane, kind and number. -/
def Landed.regOf : Landed → Option (Nat × Nat × Nat)
  | .tile l t _ _ => some (l, 0, t.toNat)
  | .nibble l t _ _ _ => some (l, 0, t.toNat)
  | .scale l n _ => some (l, 1, n.toNat)
  | _ => none

/-- Whether a result names the same tile or scale register as another (R46, R201). -/
def Landed.sameReg (a b : Landed) : Bool := a.regOf.isSome && a.regOf == b.regOf

/-- Of the results that land in one tile or scale register in one cycle, the last remains in full (R46, R201). DESIGN CHOICE: an
earlier one is dropped whole, bytes that the last does not write among them; R46 and R201 do not say whether those still land. -/
def dropBeaten : List Landed → List Landed
  | [] => []
  | w :: ws => if ws.any (w.sameReg ·) then dropBeaten ws else w :: dropBeaten ws

/-- Whether a result is a clear of flags, which yields to a setting in the same cycle (R79). -/
def Landed.isClear : Landed → Bool
  | .clearFlags _ _ => true
  | _ => false

/-- The results due land, in the order of their issue (R46). -/
def State.landDue (s : State) : State :=
  let due := s.g.fl.filter (·.left == 0)
  let s := s.updG fun g => { g with fl := g.fl.filter (·.left != 0) }
  let ws := dropBeaten ((due.map (·.what)).flatten)
  (ws.filter (·.isClear) ++ ws.filter (!·.isClear)).foldl State.landOne s

/-! Idle gating (R252). -/

/-- A block that lets the slot gate its clock. -/
def Block.gates : Block → Bool
  | .barWait _ _ _ => true
  | .barSync _ _ _ _ => true
  | .sstep _ => true
  | .sigw _ _ _ _ => true
  | .idle _ => true
  | _ => false

/-- A context lets its slot gate. -/
def Gang.gates (g : Gang) : Bool :=
  g.q0.block.gates && (!g.split || g.q1.block.gates) && g.fl.isEmpty && g.xbar == 0
    && g.lanes.all fun l => l.v0 == 0 && l.v1 == 0 && l.m == 0

/-- A context that runs on the slot of the gang in focus. -/
def State.slotMate (s : State) (g : Gang) : Bool :=
  g.place.running && g.place.die == s.myDie && g.place.slot == s.g.place.slot

/-- The slot of the gang in focus is gated: every context that runs there lets it. -/
def State.gated (s : State) : Bool := (s.gangs.filter s.slotMate).all Gang.gates

/-- An event releases something on the slot of the gang in focus: a gated slot restarts, and its first bundle comes 60 cycles
after it would have issued without gating, which the contexts there owe as `wake` until it issues. -/
def State.wakeSlot (s : State) : State :=
  if s.gated then s.mapGangs fun g => if s.slotMate g then { g with wake := 60 } else g else s

/-- One cycle of a lane's units. -/
def Lane.tick (l : Lane) : Lane := { l with v0 := l.v0 - 1, v1 := l.v1 - 1, m := l.m - 1, port := l.port - 1 }

/-- One cycle of a counted wait. -/
def Block.tick : Block → Block
  | .wait n => .wait (n - 1)
  | b => b

/-- One cycle of a sequencer's divider and counted waits. -/
def Seq.tick (q : Seq) : Seq := { q with div := q.div - 1, block := q.block.tick }

/-- The fragment takes its copies in the cycle after the second delay bundle of the SPLIT, with every landing up to then
(R95). -/
def Gang.startFragment (g : Gang) : Gang :=
  if g.q1.block = .starting then
    let frames := g.q0.frames.map fun f => { f with copied := true }
    { g with q1 := { g.q1 with s := g.q0.s, p := g.q0.p, block := .none, frames := frames, pts := g.q0.pts } }
  else g

/-- While a gang issues loads its pts advances, by 1 every 16 cycles of its clock (R162). -/
def Gang.agePts (g : Gang) : Gang :=
  if g.cycle % 16 = 0 ∧ g.loaded then
    let busy := !g.q0.acc.isEmpty || !g.q1.acc.isEmpty || !g.eng.isEmpty
    { g with loaded := busy, q0 := { g.q0 with pts := g.q0.pts + 1 }, q1 := { g.q1 with pts := g.q1.pts + 1 } }
  else g

/-- The write time of a line among lines that have been accessed. -/
def wtsOf (ls : List LineInfo) (n : Nat) : Nat := ((ls.find? fun l => l.line == n).map (·.wts)).getD 0

/-- Every 16 cycles of a gang a lease whose line has been written since it was read is marked, and one that was marked 4,080
cycles before serves no more: a store is returned to a repeated load within 4,096 cycles (R162). -/
def agedLeases (ls : List LineInfo) (now : Nat) (l : List LeaseEnt) : List LeaseEnt :=
  (l.map fun e => if e.stale.isNone && decide (e.wts < wtsOf ls e.line) then { e with stale := some now } else e).filter
    fun e => match e.stale with
      | none => true
      | some c => decide (now < c + 4080)

/-- The leases of a gang's L0 caches and engine paths, each 16th cycle (R162). -/
def Gang.ageLeases (ls : List LineInfo) (g : Gang) : Gang :=
  if g.cycle % 16 = 0 then
    { g with
      q0 := { g.q0 with l0 := agedLeases ls g.cycle g.q0.l0 }, q1 := { g.q1 with l0 := agedLeases ls g.cycle g.q1.l0 }
      paths := agedLeases ls g.cycle g.paths }
  else g

/-- One cycle of the gang's clock: every interval is counted down, and what is due lands (R45). In SYS mode only the
handler's own intervals count (R321). -/
def State.tick (s : State) : State :=
  let s := s.updG fun g =>
    let fl := g.fl.map fun x => { x with left := x.left - 1 }
    let g := { g with fl := fl }
    match g.mode with
    | .sys h => g.updSeq h.q Seq.tick
    | .user =>
      { g with
        cycle := g.cycle + 1, xbar := g.xbar - 1, lanes := g.lanes.map Lane.tick, q0 := g.q0.tick, q1 := g.q1.tick }.agePts.ageLeases s.lines
  (s.landDue).updG Gang.startFragment

end Sys2Proof.Machine
end

