-- ==== Sys2Proof/Machine/Bundle.lean ====
section
/-! DEFINITION. Finishing a bundle (R53, R80, R85, R88, R89): the END step of a loop, the delay bundles of a transfer, and
where fetch goes on. -/

namespace Sys2Proof.Machine

/-- What a pending drain does at END steps: nothing, the pre-emption's restart form, or the endgame's exit. -/
inductive DrainKind where
  | none | keep | discard
  deriving DecidableEq, Repr

/-- The drain a gang has been asked for, as END steps see it (R85, R88, R307). -/
def Gang.drainKind (g : Gang) : DrainKind :=
  match g.drain with
  | .preempt _ _ => .keep
  | .suspend _ _ => .keep
  | .endgame _ => .discard
  | _ => .none

/-- A sequencer has come to its drain point; one that runs no fragment any more has none to come to. -/
def Seq.stopped (x : Seq) : Bool := x.atDrain || x.block == .fragmentOver

/-- A result of an M-slot instruction is in flight. -/
def Gang.matrixFlight (g : Gang) : Bool := g.fl.any (·.matrix)

/-- A gang has drained, its matrix results landed, or was frozen instead (R88, R96, R236, R340). Other results in flight are held
with their counts when it is saved (R339). -/
def Gang.drained (g : Gang) : Bool :=
  !g.inSys && !g.stopping && !g.halted
    && (g.frozen || (g.q0.atDrain && (!g.split || g.q1.stopped) && !g.matrixFlight))

/-- The gang has come to where its context is saved: a cause found now is held with the context (R371). -/
def Gang.holdsCauses (g : Gang) : Bool := g.frozen || (g.drainKind == .keep && g.drained)

/-- The END step at a bundle's head (R85): the frames, where fetch continues, and whether it is a drain point, which under
a drain it is when the innermost frame exits (R88). At a pre-emption drain point that frame is kept in restart form, with
nothing to restart where all of it is done, and the enclosing frames unchanged (R89); at the endgame's every frame is
discarded (R307). A frame whose NEFF was reduced by a drain that the freeze of R340 overtook restarts in the same form once
it exits (DEDUCED). -/
def loopEnd (head : Nat) (d : DrainKind) (next : Nat) : List Frame → List Frame × Nat × Bool
  | [] => ([], next, false)
  | f :: fs =>
    if f.fin ≠ head ∨ f.copied then (f :: fs, next, false)
    else
      let neff := if d = .none then f.neff else min f.neff (f.j + 1)
      if neff + f.s ≤ f.j + 2 then
        let left : Frame := { f with n := f.n - neff, neff := f.n - neff, j := 0 }
        match d with
        | .discard => ([], next, true)
        | .keep => (left :: fs, if f.n = neff then next else f.start, true)
        | .none => if neff < f.n then (left :: fs, f.start, false) else loopEnd head d next fs
      else ({ f with neff := neff, j := f.j + 1 } :: fs, f.start, false)

/-- The END step while an LBRK is pending that found `depth` frames open: only a frame that its delay bundles have opened makes
it (R87). -/
def loopAbove (depth head : Nat) (d : DrainKind) (next : Nat) (fs : List Frame) : List Frame × Nat × Bool :=
  let n := fs.length - depth
  let r := loopEnd head d next (fs.take n)
  if r.2.2 && d == .discard then r else (r.1 ++ fs.drop n, r.2)

/-- A frame kept at a drain point with nothing to restart is popped when its sequencer goes on (R89); the END step is
repeated for an enclosing frame with the same END (R85). `pastEnd` says that fetch stands after the END bundle, and not at a
transfer's destination. -/
def popEmpty (pastEnd : Bool) (pc : Nat) : List Frame → List Frame × Nat
  | [] => ([], pc)
  | f :: fs =>
    if f.n = 0 then
      let r := loopEnd f.fin .none pc fs
      (r.1, if pastEnd then r.2.1 else pc)
    else (f :: fs, pc)

/-- A sequencer that a drain had stopped goes on (R89). -/
def Seq.goOn (x : Seq) : Seq :=
  let r := popEmpty x.pastEnd x.pc x.frames
  { x with frames := r.1, pc := r.2, atEnd := x.atEnd && r.2 == x.pc, pastEnd := false, atDrain := false }

/-- The frames and the next address after a bundle of a sequencer in USER mode (R80, R85, R87). -/
def Seq.after (x : Seq) (d : DrainKind) (head next : Nat) : List Frame × Nat × Bool :=
  match x.xfer with
  | some ⟨_, _, _, .popLoop n⟩ => loopAbove n head d next x.frames
  | _ => loopEnd head d next x.frames

/-- A sequencer that is to end does so once nothing blocks it (R53, R96, R99). -/
def Seq.endNow (x : Seq) : Seq :=
  match x.block, x.ends with
  | .none, some b => { x with block := b, ends := none }
  | _, _ => x

/-- What a transfer leaves to do when its delay bundles have issued (R87, R94 to R96, R99). `fall` is where fetch would
have gone on. LBRK leaves the frame that was innermost at its issue. -/
def Gang.complete (g : Gang) (q : Nat) (x : Xfer) (fall : Nat) (fallEnd : Bool) : Gang :=
  let g := g.updSeq q fun y => { y with
    pc := x.dst.getD fall
    atEnd := x.dst.isNone && fallEnd
    pastEnd := x.dst.isNone && y.pastEnd
    exec := x.mask.getD y.exec
    xfer := none }
  match x.after with
  | .nothing => g
  | .popLoop n => g.updSeq q fun y => { y with frames := y.frames.eraseIdx (y.frames.length - n) }
  | .dropFrames => g.updSeq q fun y => { y with frames := y.frames.filter (·.copied) }
  | .endInstance => g.updSeq q fun y => { y with ends := some .halted : Seq }.endNow
  | .endFragment => g.updSeq q fun y => { y with ends := some .fragmentOver : Seq }.endNow
  | .startFragment elseSide m =>
    let base : List DsEntry := match g.q0.ds with
      | e :: _ => [{ e with kind := 2, phase := elseSide }]
      | [] => []
    let (pc, fell) := match elseSide, g.q0.ds with
      | true, e :: _ => (e.elsePc, false)
      | _, _ => (fall, fallEnd)
    { g with
      split := true
      q1 := { Seq.start with
        pc := pc, atEnd := fell, ds := base, exec := m, block := .starting, utlb := g.q1.utlb, l0 := g.q1.l0
        pts := g.q0.pts } }

/-- Finish the bundle that issues, when fetch would go on at an address: END step, then the delay-bundle count, then where
fetch goes (R53, R85). `atEnd` says that the address has run off its segment. -/
def State.finishWith (s : State) (next : Nat) (atEnd : Bool) : State :=
  let q := s.cur.q
  let x := s.g.seq q
  let kind := s.g.drainKind
  let r := if s.g.inSys then (x.frames, next, false) else x.after kind s.cur.head next
  let fallEnd := decide (r.2.1 = next) && atEnd
  let s := s.updG fun g => g.updSeq q fun y =>
    { y with
      frames := r.1, pc := r.2.1, atEnd := fallEnd, atDrain := y.atDrain || r.2.2,
      pastEnd := r.2.2 && r.1.head?.any (·.n == 0) }
  let s := match x.xfer with
    | some t =>
      if s.cur.delay then
        if t.left ≤ 1 then s.updG fun g => g.complete q t r.2.1 fallEnd
        else s.updG fun g => g.updSeq q fun y => { y with xfer := some { t with left := t.left - 1 } }
      else s
    | none => s
  { s with cur := { s.cur with done := true } }

/-- Finish the bundle that issues. -/
def State.finish (s : State) : State := s.finishWith s.cur.next (ranOff s.cur.head s.cur.next)

/-- Where fetch goes on after an END step, past a drain that may stop it there: the frames and the address. -/
def passDrain (r : List Frame × Nat × Bool) : List Frame × Nat := if r.2.2 then popEmpty true r.2.1 r.1 else (r.1, r.2.1)

/-- The head of the bundle fetch comes to, past line-end heads (R324). -/
def State.headAt (s : State) (pc : Nat) (atEnd : Bool) : Nat :=
  match s.fetch pc atEnd with
  | .bundle h _ _ => h
  | .bad h _ => h
  | .fault p _ => p
  | .absent _ => pc

/-- The count, stages and END displacement of the LOOP or LOOPI that a bundle opens a frame with, by the registers and
predicates as they stand (R84, R85). -/
def State.loopIn (s : State) (b : Bundle) : Option (Nat × Nat × Int) :=
  let open_ (p : BitVec 3) (n : Nat) (d : BitVec 6) (disp : Word) : Option (Nat × Nat × Int) :=
    if s.readPred p && decide (0 < disp.toInt) then some (n, d.toNat % 4 + 1, disp.toInt) else none
  (b.words.find? (·.1 == 0)).bind fun w =>
    match decodeWord (slotKindOf w.1) w.2 with
    | .ok (.loop x) => open_ x.p ((s.operand x.a).toNat % 2 ^ 32) x.d (s.operand x.b)
    | .ok (.loopi x) => open_ x.p x.imm.toNat x.d (s.operand x.a)
    | _ => none

/-- The bundle after an address: the address after it and the frames then (R82); or the segment that is not resident. DESIGN
CHOICE: of a LOOP or LOOPI in a delay bundle the guard, count and displacement are those that stand when the call issues; the
spec does not say what a link holds that depends on what lands later. -/
def State.follow (s : State) (d : DrainKind) (p : Nat × Bool × List Frame) : Except Nat (Nat × Bool × List Frame) :=
  match s.fetch p.1 p.2.1 with
  | .bundle head next b =>
    let go (next : Nat) (ran : Bool) (fs : List Frame) : Except Nat (Nat × Bool × List Frame) :=
      let r := passDrain (loopEnd head d next fs)
      .ok (r.2, decide (r.2 = next) && ran, r.1)
    let t := { s.updSeq fun q => { q with frames := p.2.2 } with
      cur := { s.cur with lit := b.lit, head := head, next := next, ready := false } }
    match t.loopIn b with
    | none => go next (ranOff head next) p.2.2
    | some (n, stages, disp) =>
      let fin := ((head : Int) + 2 * disp).toNat
      if n = 0 then
        match s.fetch fin false with
        | .bundle h k _ => go k (ranOff h k) p.2.2
        | .absent seg => .error seg
        | _ => go fin false p.2.2
      else
        let f : Frame := ⟨s.headAt next (ranOff head next), fin, n, n, 0, stages, false⟩
        go next (ranOff head next) (if s.g.inSys then p.2.2 else f :: p.2.2)
  | .absent seg => .error seg
  | _ => .ok p

/-- retaddr(b): where fetch continues after the second delay bundle of the bundle that issues, when it is not taken
(R82); or the segment of a delay bundle that is not resident. In SYS mode no frame makes an END step. DESIGN CHOICE: it is
the address right after the second delay bundle, where fetch continues, and not that of the bundle that fetch finds from
there past a line-end head; the spec does not tell the two apart. -/
def State.retAddr (s : State) : Except Nat Nat := do
  let d := s.g.drainKind
  let r := if s.g.inSys then ([], s.cur.next) else passDrain (s.seq.after d s.cur.head s.cur.next)
  let p ← s.follow d (r.2, decide (r.2 = s.cur.next) && ranOff s.cur.head s.cur.next, r.1)
  let p ← s.follow d p
  .ok p.1

/-- Whether fetch finds itself one past a 64 KiB segment: SEG at its end, whose offset the address does not show (R80). -/
def Exc.pastSegment (e : Exc) (pc : Nat) : Bool := e.cause == .seg && e.info.toNat % 256 == 3 && pc % 2 ^ 16 == 0

/-- Whether the address fetch comes to stands for the offset 65,536 of a segment (R80). -/
def State.headPast (s : State) (pc : Nat) (atEnd : Bool) : Bool :=
  match s.fetch pc atEnd with
  | .fault p e => e.pastSegment p
  | _ => false

/-- A trap taken before the next bundle of a sequencer issues: TRAPPC is the head of that bundle (R324). -/
def State.trapNext (s : State) (q : Nat) (e : Exc) : State :=
  let x := s.g.seq q
  s.trapEnter q e (s.headAt x.pc x.atEnd) (s.headPast x.pc x.atEnd)

/-- Begin a transfer: two delay bundles, then the destination (R53, R83). -/
def State.transfer (s : State) (dst : Option Nat) (mask : Option Lanes) (after : After) : State :=
  s.updSeq fun q => { q with xfer := some ⟨dst, 2, mask, after⟩ }

end Sys2Proof.Machine
end

