-- ==== Sys2Proof/Machine/Form.lean ====
section
/-! DEFINITION. What every slot word has in common by its form and its kind (R30 to R36, R42, R48 to R51): its form, its
guard, its stage field, its token, the units it needs and for how long, its latency, and whether it is a control
transfer or privileged. -/

namespace Sys2Proof.Machine

/-- The form of an instruction with its fields (R30, R32 to R34); an event has none. -/
inductive Form where
  | sr (x : SR) | si (x : SI) | sb (x : SB) | sm (x : SM) | vt (x : VT) | vs (x : VS) | mf (x : MF) | xf (x : XF)
  | event
  deriving DecidableEq, Repr

/-- The form of an instruction. -/
def formOf : Instr → Form
  | .nop x => .sr x
  | .add x => .sr x
  | .sub x => .sr x
  | .addi x => .si x
  | .mul x => .sr x
  | .mulh x => .sr x
  | .div x => .sr x
  | .rem x => .sr x
  | .andS x => .sr x
  | .orS x => .sr x
  | .xorS x => .sr x
  | .andn x => .sr x
  | .andi x => .si x
  | .ori x => .si x
  | .xori x => .si x
  | .shl x => .sr x
  | .shr x => .sr x
  | .sar x => .sr x
  | .shli x => .si x
  | .shri x => .si x
  | .sari x => .si x
  | .minS x => .sr x
  | .maxS x => .sr x
  | .cmp x => .sr x
  | .cmpi x => .si x
  | .sel x => .sr x
  | .mov x => .sr x
  | .movi x => .si x
  | .movhi x => .si x
  | .clz x => .sr x
  | .popc x => .sr x
  | .bfx x => .sr x
  | .bfi x => .sr x
  | .addsh x => .sr x
  | .plog x => .sr x
  | .qpop x => .sr x
  | .qpeek x => .sr x
  | .qcnt x => .sr x
  | .movs x => .sr x
  | .movsw x => .sr x
  | .eget x => .sr x
  | .eset x => .sr x
  | .br x => .sb x
  | .jmp x => .sb x
  | .jr x => .sr x
  | .call x => .sb x
  | .callr x => .sr x
  | .ret x => .sr x
  | .loop x => .sr x
  | .loopi x => .si x
  | .lbrk x => .sb x
  | .ifD x => .sb x
  | .split x => .sb x
  | .elseD x => .sb x
  | .join x => .sr x
  | .exit x => .sr x
  | .halt x => .sr x
  | .wait x => .sr x
  | .idle x => .sr x
  | .fchk x => .sr x
  | .segld x => .si x
  | .ld x => .sm x
  | .st x => .sm x
  | .ldx x => .sm x
  | .stx x => .sm x
  | .amo x => .sm x
  | .swap x => .sm x
  | .cas x => .sm x
  | .incb x => .sm x
  | .fence x => .sr x
  | .pref x => .sm x
  | .barInit x => .sr x
  | .barArrive x => .sr x
  | .barWait x => .sr x
  | .barSync x => .sr x
  | .barExpect x => .sr x
  | .barTest x => .sr x
  | .sstep x => .sr x
  | .gballot x => .sr x
  | .gscan x => .sr x
  | .greds x => .sr x
  | .qpush x => .sr x
  | .qres x => .sr x
  | .sig x => .sr x
  | .sigw x => .sr x
  | .next x => .sr x
  | .time x => .sr x
  | .slack x => .sr x
  | .prog x => .sr x
  | .vset x => .sr x
  | .ecommit x => .sr x
  | .endg x => .sr x
  | .rfam x => .sr x
  | .rstat x => .sr x
  | .rcur x => .sr x
  | .trap x => .si x
  | .tret x => .sr x
  | .sysr x => .sr x
  | .sysw x => .sr x
  | .tlbinv x => .sr x
  | .pgshare x => .sr x
  | .pgunmap x => .sr x
  | .pgcow x => .sr x
  | .cont x => .sr x
  | .cresume x => .sr x
  | .parkrd x => .sr x
  | .unpark x => .sr x
  | .suspend x => .sr x
  | .tadd x => .vt x
  | .tsub x => .vt x
  | .tmul x => .vt x
  | .tfma x => .vt x
  | .tfms x => .vt x
  | .tmin x => .vt x
  | .tmax x => .vt x
  | .tabs x => .vt x
  | .tneg x => .vt x
  | .tscl x => .vs x
  | .tadds x => .vs x
  | .texp2 x => .vt x
  | .tlog2 x => .vt x
  | .trcp x => .vt x
  | .trsq x => .vt x
  | .tsqrt x => .vt x
  | .ttanh x => .vt x
  | .tsigm x => .vt x
  | .tcmp x => .vt x
  | .tsel x => .vt x
  | .tclamp x => .vt x
  | .tiadd x => .vt x
  | .tisub x => .vt x
  | .timul x => .vt x
  | .tand x => .vt x
  | .tor x => .vt x
  | .txor x => .vt x
  | .tshl x => .vt x
  | .tshr x => .vt x
  | .tsar x => .vt x
  | .timin x => .vt x
  | .timax x => .vt x
  | .tcvt x => .vt x
  | .tmov x => .vt x
  | .tzero x => .vt x
  | .tiota x => .vt x
  | .ttrn x => .vt x
  | .shape x => .vs x
  | .shget x => .vt x
  | .rrot x => .vs x
  | .rbc x => .vt x
  | .rred x => .vt x
  | .crot x => .vs x
  | .cbc x => .vt x
  | .cred x => .vt x
  | .kcmp x => .vt x
  | .kop x => .vt x
  | .kset x => .vs x
  | .kcnt x => .vt x
  | .eadd x => .vt x
  | .esub x => .vt x
  | .emul x => .vt x
  | .eand x => .vt x
  | .eor x => .vt x
  | .eshl x => .vt x
  | .eshr x => .vt x
  | .emin x => .vt x
  | .emax x => .vt x
  | .ecmp x => .vt x
  | .esel x => .vt x
  | .eid x => .vt x
  | .emovt x => .vt x
  | .etmov x => .vt x
  | .gshuf x => .vt x
  | .gbc x => .vs x
  | .grot x => .vs x
  | .gred x => .vt x
  | .gcomp x => .vt x
  | .tld x => .vs x
  | .tst x => .vs x
  | .tldk x => .vs x
  | .lde x => .vs x
  | .ste x => .vs x
  | .mma x => .mf x
  | .mmaz x => .mf x
  | .mmat x => .mf x
  | .mmas x => .mf x
  | .prune x => .mf x
  | .sqd x => .mf x
  | .topk x => .mf x
  | .accrd x => .mf x
  | .accwr x => .mf x
  | .accz x => .mf x
  | .accscScale x => .mf x
  | .accscLoad x => .mf x
  | .accscStore x => .mf x
  | .hsign x => .mf x
  | .hidx x => .mf x
  | .copy x => .xf x
  | .gather x => .xf x
  | .scatter x => .xf x
  | .put x => .xf x
  | .get x => .xf x
  | .rgath x => .xf x
  | .fill x => .xf x
  | .seal x => .xf x
  | .bwait x => .xf x
  | .preft x => .xf x
  | .pin x => .xf x
  | .unpin x => .xf x
  | .gld x => .xf x
  | .gst x => .xf x
  | .glde x => .xf x
  | .gste x => .xf x
  | .gamo x => .xf x
  | .rprobe x => .xf x
  | .rins x => .xf x
  | .rdel x => .xf x
  | .rmig x => .xf x
  | .rret x => .xf x
  | _ => .event

/-- The stage field of a V, M or X word (R36). -/
def Form.stage : Form → Option (BitVec 2)
  | .vt x => some x.stage
  | .vs x => some x.stage
  | .mf x => some x.stage
  | .xf x => some x.stage
  | _ => none

/-- The guard of an SR or SI word (R31). NOP ignores its guard, and JOIN has none (R94, R111). -/
def guardOf (i : Instr) : BitVec 3 :=
  match i with
  | .nop _ => 0
  | _ =>
    match formOf i with
    | .sr x => x.p
    | .si x => x.p
    | _ => 0

/-- The token an instruction names (R49, R51): none for an instruction that is not tokened. -/
def tokOf (i : Instr) : Option (BitVec 3) :=
  match i with
  | .segld x => some (x.imm.setWidth 3)
  | .barInit x | .barArrive x | .barExpect x | .barTest x | .qpush x | .qres x | .sig x | .prog x | .vset x
  | .ecommit x | .rfam x | .rstat x | .rcur x | .tlbinv x | .pgshare x | .pgunmap x | .pgcow x | .suspend x => some x.f
  | _ =>
    match formOf i with
    | .sm x => some x.tok
    | .xf x => some x.tok
    | _ => none

/-- A control-transfer opcode: the transfer kind of R49, with two delay bundles (R53). -/
def isTransfer (i : Instr) : Bool :=
  match i with
  | .br _ | .jmp _ | .jr _ | .call _ | .callr _ | .ret _ | .lbrk _ | .ifD _ | .split _ | .elseD _ | .join _ | .exit _
  | .halt _ => true
  | _ => false

/-- A transfer without delay bundles (R49, R53). -/
def isJump (i : Instr) : Bool :=
  match i with
  | .endg _ | .trap _ | .tret _ | .cresume _ => true
  | _ => false

/-- Privileged instructions (R319). -/
def isPrivileged (i : Instr) : Bool :=
  match i with
  | .tret _ | .sysr _ | .sysw _ | .tlbinv _ | .pgshare _ | .pgunmap _ | .pgcow _ | .unpark _ | .suspend _ => true
  | _ => false

/-- Instructions that are a double fault in SYS mode (R320). -/
def notInSys (i : Instr) : Bool :=
  match i with
  | .loop _ | .loopi _ | .lbrk _ | .ifD _ | .split _ | .elseD _ | .join _ | .exit _ | .halt _ | .fchk _ | .endg _
  | .trap _ | .cresume _ => true
  | _ => false

/-- Gang exchanges, which need the crossbar (R40, R242). -/
def isExchange (i : Instr) : Bool :=
  match i with
  | .gshuf _ | .gbc _ | .grot _ | .gred _ | .gcomp _ => true
  | _ => false

/-- How long an instruction occupies its V unit (R50). -/
def occV (i : Instr) : Nat :=
  match i with
  | .crot _ | .cbc _ | .cred _ | .ttrn _ => 8
  | .shape _ | .shget _ | .kop _ | .kset _ | .kcnt _ | .eadd _ | .esub _ | .emul _ | .eand _ | .eor _ | .eshl _
  | .eshr _ | .emin _ | .emax _ | .ecmp _ | .esel _ | .eid _ | .emovt _ | .etmov _ | .lde _ | .ste _ => 1
  | _ => 4

/-- How long a local access occupies the scratchpad port (R50). -/
def occPort (i : Instr) : Nat :=
  match i with
  | .tld _ | .tst _ | .tldk _ => 4
  | .lde _ | .ste _ => 1
  | _ => 0

/-- How long a gang exchange occupies the crossbar (R50). -/
def occXbar (i : Instr) : Nat :=
  match i with
  | .gshuf _ | .gbc _ | .grot _ => 4
  | .gred _ | .gcomp _ => 8
  | _ => 0

/-- The width of the wider operand format of a dense product (R51). -/
def widerOf (a b : Word) : Nat := max (widthOf (fElem a)) (widthOf (fElem b))

/-- How long an instruction occupies the M unit (R51). -/
def State.occM (s : State) (i : Instr) : Nat :=
  match i with
  | .mma x | .mmaz x | .mmat x =>
    let w := widerOf (s.fmt x.fsA) (s.fmt x.fsB)
    if w = 16 then 128 else if w = 8 then 64 else 32
  | .mmas _ => 64
  | .sqd _ => 128
  | .topk _ => 16
  | .accz _ => 1
  | .hidx _ => 1
  | _ => 4

/-- The latency of a dense product (R51). -/
def State.latM (s : State) (x : MF) : Nat :=
  let w := widerOf (s.fmt x.fsA) (s.fmt x.fsB)
  if w = 16 then 136 else if w = 8 then 72 else 40

end Sys2Proof.Machine
end

