-- ==== Sys2Proof/Machine/Gate.lean ====
section
/-! DEFINITION. Whether an instruction may issue (R29, R31, R35, R36, R40 to R43, R48, R319, R320): the decode faults of
one slot word, its guard and stage, the units and tokens it waits for, and the faults found at issue. -/

namespace Sys2Proof.Machine

/-- What becomes of an instruction that comes up to issue: it takes effect; its guard or stage suppresses it; it waits; it
stops at a convergence point with an engine parked (R332); or it raises a cause. -/
inductive Verdict where
  | go | skip | hold | converge
  | trap (e : Exc)
  deriving DecidableEq, Repr

/-- Detail that holds a slot word in [63:32] (R323). -/
def wordInfo (sub : Nat) (w : Slotword) : Word := infoOf sub (w.toNat * 2 ^ 24)

/-- The word of an instruction; an event has none. -/
def wordOfInstr (i : Instr) : Slotword :=
  match i.encode with
  | some (_, w) => w
  | none => 0

/-- An ILL of the instruction that issues. -/
def State.ill (s : State) (i : Instr) (sub : Nat) : Exc := illWord sub (wordOfInstr i) s.cur.slot

/-! Decode (R40). -/

/-- A slot whose format has no scale (R200). -/
def State.plain (s : State) (n : BitVec 3) : Bool := fSmode (s.fmt n) == 0

/-- A slot with a float format and no scale. -/
def State.floatFmt (s : State) (n : BitVec 3) : Bool := s.plain n && isFloat (fElem (s.fmt n))

/-- A slot with an integer format and no scale. -/
def State.intFmt (s : State) (n : BitVec 3) : Bool := s.plain n && isInt (fElem (s.fmt n))

/-- A slot that MMA accepts (R223): every format but FP32 and I32. -/
def State.mmaFmt (s : State) (n : BitVec 3) : Bool := fElem (s.fmt n) != 0 && fElem (s.fmt n) != 6

/-- BF16 or FP16 without scale. -/
def State.halfFmt (s : State) (n : BitVec 3) : Bool := s.plain n && (fElem (s.fmt n) == 1 || fElem (s.fmt n) == 2)

/-- The formats of SQD (R223). -/
def State.sqdFmt (s : State) (n : BitVec 3) : Bool :=
  s.plain n && (decide (1 ≤ fElem (s.fmt n)) && decide (fElem (s.fmt n) ≤ 4))

/-- The view slot of ACCRD and ACCWR, and the upper half (R223, R231). -/
def State.viewOk (s : State) (x : MF) : Bool :=
  s.plain x.fsB && (fElem (s.fmt x.fsB) == 0 || fElem (s.fmt x.fsB) == 6)
    && (!x.mod.getLsbD 2 || widthOf (fElem (s.fmt x.fsA)) == 32)

/-- Every format-slot index names a format the class statement gives a meaning (R40, R200, R202 to R218, R223, R237). -/
def State.formatsOk (s : State) (i : Instr) : Bool :=
  match i with
  | .tadd x | .tsub x | .tmul x | .tfma x | .tfms x | .tmin x | .tmax x | .tabs x | .tneg x | .texp2 x | .tlog2 x
  | .trcp x | .trsq x | .tsqrt x | .ttanh x | .tsigm x | .tclamp x => s.floatFmt x.fs
  | .tscl x | .tadds x => s.floatFmt x.fs
  | .tiadd x | .tisub x | .timul x | .tshl x | .tshr x | .tsar x | .timin x | .timax x => s.intFmt x.fs
  | .tcmp x | .tsel x | .tand x | .tor x | .txor x | .tiota x | .ttrn x | .rbc x | .kcmp x | .emovt x | .etmov x
  | .gshuf x => s.plain x.fs
  | .rrot x | .gbc x | .grot x => s.plain x.fs
  | .tcvt x => s.plain x.fs && s.plain (x.tb.setWidth 3)
  | .rred x | .cred x | .gred x => s.plain x.fs && (x.mod != 3 || isFloat (fElem (s.fmt x.fs)))
  | .mma x | .mmaz x | .mmat x => s.mmaFmt x.fsA && s.mmaFmt x.fsB
  | .mmas x => s.halfFmt x.fsA && s.halfFmt x.fsB && (fElem (s.fmt x.fsA) == fElem (s.fmt x.fsB))
  | .prune x => s.halfFmt x.fsA
  | .sqd x => s.sqdFmt x.fsA && s.sqdFmt x.fsB
  | .accrd x | .accwr x => s.viewOk x
  | .accscScale x => fSmode (s.fmt x.fsA) == 1 || fSmode (s.fmt x.fsA) == 2
  | _ => true

/-- The instruction stands in a slot of its own space (R27); decoding a bundle never puts it elsewhere. -/
def State.slotOk (s : State) (i : Instr) : Bool :=
  match i.encode with
  | some (k, _) => k == slotKindOf s.cur.slot
  | none => true

/-- The causes of a context found at decode: another slot in SYS mode (R320), a privileged instruction in USER mode (R319,
R124), CRESUME without a continuation (R335), LBRK without a frame or in a fragment (R87, R96). -/
def State.contextFault (s : State) (i : Instr) : Option Exc :=
  if s.g.inSys then
    if s.cur.slot ≠ 0 then some (s.ill i 0x09) else none
  else if isPrivileged i then some (s.ill i 0x40)
  else match i with
    | .movsw x => if x.d = 0x19 then some (s.ill i 0x40) else none
    | .cresume _ => if s.g.held.isNone then some (s.ill i 0x09) else none
    | .lbrk _ => if s.seq.frames.isEmpty ∨ s.g.isFragment s.cur.q then some (s.ill i 0x09) else none
    | _ => none

/-- The fault decode finds in one slot, with its place in the order of R40's table: 1 fields, 2 codes, 3 the literal,
6 the SB form, 7 formats, 8 SLOTUSE, 9 DELAYCTL, 10 the context. -/
def State.staticFault (s : State) (i : Instr) : Option (Nat × Exc) :=
  if i.encode.isNone then none
  else if !s.slotOk i then some (0, s.ill i 0x01)
  else if !i.fieldsOk then some (1, s.ill i 0x02)
  else if !i.codesOk then some (2, s.ill i 0x03)
  else if (s.cur.lit.isNone && i.scalarSources.contains 63) || i.scalarDests.contains 63 then some (3, s.ill i 0x04)
  else if !i.sbOk then some (6, s.ill i 0x06)
  else if !s.formatsOk i then some (7, s.ill i 0x07)
  else if isExchange i && s.cur.slot == 1 then some (8, ⟨.slotuse, wordInfo 0 (wordOfInstr i), s.cur.slot⟩)
  else if s.cur.delay && (isTransfer i || isJump i) then
    some (9, ⟨.delayctl, wordInfo 0 (wordOfInstr i), s.cur.slot⟩)
  else (s.contextFault i).map fun e => (10, e)

/-! Guards and stages (R31, R36). -/

/-- The guard and the stage field let the instruction execute. -/
def State.enabled (s : State) (i : Instr) : Bool :=
  s.readPred (guardOf i) &&
    match (formOf i).stage with
    | none => true
    | some st => s.stageRuns st

/-! Units (R48, R50, R51, R222, R242). -/

/-- All present lanes of the issuing sequencer's own side satisfy a test. -/
def State.sideAll (s : State) (f : Lane → Bool) : Bool :=
  (lanesOf (s.g.sideLanes s.cur.q)).all fun l => f (s.g.lane l)

/-- The units a V, M or X word or the divider needs are free. -/
def State.unitsFree (s : State) (i : Instr) : Bool :=
  match s.cur.slot with
  | 0 =>
    match i with
    | .div _ | .rem _ => s.seq.div == 0
    | _ => true
  | 1 => s.sideAll fun l => l.v0 == 0 && (occPort i == 0 || l.port == 0)
  | 2 => (s.sideAll fun l => l.v1 == 0 && (occPort i == 0 || l.port == 0)) && (!isExchange i || s.g.xbar == 0)
  | 3 => s.sideAll fun l => l.m == 0
  | _ => decide (s.g.queued s.cur.q < 32)

/-- Take the units of an instruction at issue. DESIGN CHOICE: where V0 and V1 of one bundle both use the scratchpad port,
which the spec gives each of them for its own interval (R48, R50), both are accepted and the port stays busy for the longer
of the two. -/
def State.occupy (s : State) (i : Instr) : State :=
  let m := s.g.sideLanes s.cur.q
  let on (f : Lane → Lane) : State := (lanesOf m).foldl (fun s l => s.updLane l f) s
  match s.cur.slot with
  | 0 =>
    match i with
    | .div _ | .rem _ => s.updSeq fun q => { q with div := 20 }
    | _ => s
  | 1 => on fun l => { l with v0 := occV i, port := max l.port (occPort i) }
  | 2 => (on fun l => { l with v1 := occV i, port := max l.port (occPort i) }).updG fun g =>
      { g with xbar := max g.xbar (occXbar i) }
  | 3 => on fun l => { l with m := s.occM i }
  | _ => s

/-! Accesses of the sequencer (R141 to R146, R295, R297, R298, R314, R337). -/

/-- A memory access of the S slot: address, bytes (which it must be a multiple of) and kind. -/
structure Access where
  va : Word
  size : Nat
  acc : Acc
  deriving DecidableEq, Repr

/-- The bytes of an SM access. -/
def SM.bytes (x : SM) : Nat := 2 ^ x.size.toNat

/-- A + sext(imm6) * sz. -/
def State.immAddr (s : State) (x : SM) (sz : Nat) : Word := s.operand x.a + wordOf (sextNat x.b.toNat 6 * sz)

/-- A + (B << size). -/
def State.idxAddr (s : State) (x : SM) : Word := s.operand x.a + (s.operand x.b <<< x.size.toNat)

/-- The word of the validity bitmap a VSET names, or none for no bitmap or a bit past its end (R314). -/
def State.bitmapWord (s : State) (i : Word) : Option Word :=
  if s.g.info.bmAddr = 0 ∨ s.g.info.bmLen = 0 ∨ s.g.info.bmLen ≤ i.toNat then none
  else some (s.g.info.bmAddr + wordOf (8 * (i.toNat / 64)))

/-- The access of an S-slot instruction whose checks are made before its bundle issues (R142). -/
def State.accessOf (s : State) (i : Instr) : Option Access :=
  match i with
  | .ld x => some ⟨s.immAddr x (SM.bytes x), SM.bytes x, 0⟩
  | .st x => some ⟨s.immAddr x (SM.bytes x), SM.bytes x, 1⟩
  | .ldx x => some ⟨s.idxAddr x, SM.bytes x, 0⟩
  | .stx x => some ⟨s.idxAddr x, SM.bytes x, 1⟩
  | .amo x | .swap x | .cas x | .incb x => some ⟨s.operand x.a, SM.bytes x, 2⟩
  | .sig x => some ⟨s.operand x.a, 8, 2⟩
  | .sigw x => some ⟨s.operand x.a, 8, 0⟩
  | .vset x => (s.bitmapWord (s.operand x.a)).map fun a => ⟨a, 8, 2⟩
  | .qpush x | .qres x => some ⟨s.operand x.a, 64, 2⟩
  | .pgshare x | .pgunmap x | .pgcow x => some ⟨s.operand x.a, 64, 2⟩
  | _ => none

/-- Translate and check an access of the issuing sequencer. -/
def State.locateS (s : State) (a : Access) : Loc :=
  s.locate s.seq.utlb s.myDie s.g.info.part s.g.inSys a.va.toNat a.size a.acc

/-- An access found at issue: go on, wait for a LOCK, or a fault (R142). -/
def State.accessVerdict (s : State) (a : Access) : Verdict :=
  match s.locateS a with
  | .at_ _ _ => .go
  | .wait => .hold
  | .fault f => .trap ⟨f.1, faultInfo f a.va.toNat, s.cur.slot⟩

/-- Whether a buffered store overlaps n bytes at a key (R146). -/
def Seq.buffered (q : Seq) (key n : Nat) : Bool := q.sb.any fun e => overlaps key n e.key e.data.length

/-- An atomic waits until no buffered store overlaps its bytes (R146). -/
def State.atomicClear (s : State) (a : Access) : Bool :=
  match s.locateS a with
  | .at_ key _ => !s.seq.buffered key a.size
  | _ => true

/-- What comes before the operands of an instruction are looked at: its token, its units, room in the store buffer, a
batch number and an item (R42, R48, R146, R190, R299). DESIGN CHOICE: SYSR and SYSW wait for the accesses before them, since
they take their point in the program order within 4 cycles (R157, R326). -/
def State.structFree (s : State) (i : Instr) : Bool :=
  (match tokOf i with
    | some t => !s.tokenSet t
    | none => true) && s.unitsFree i &&
  match i with
  | .st _ | .stx _ => decide (s.seq.sb.length < 16)
  | .seal _ => decide (s.g.openBatches.length < 16)
  | .sysr _ | .sysw _ => s.g.clearBefore s.cur.q s.tkt
  | .next _ =>
    match s.launch s.g.info.lid with
    | none => true
    | some l => !(l.reserve.filter fun r => r.1 == s.myDie).all (fun r => r.2.isEmpty)
        || (l.returned.isEmpty && decide (l.cx * l.cy ≤ l.drawn))
  | _ => true

/-! Destinations (R81). -/

/-- A relative destination. -/
def State.relDst (s : State) (disp : Int) : Int := (s.cur.head : Int) + 2 * disp

/-- The faults of a destination. -/
def dstFault (d : Int) (slot : Nat) : Option Exc :=
  if d < 0 ∨ 2 ^ 22 ≤ d then some (segExc 4 (d % 2 ^ 56).toNat slot)
  else if d % 2 = 1 then some ⟨.align, infoOf 1 d.toNat, slot⟩
  else none

/-- The relative destination of an SB word. -/
def State.sbDst (s : State) (x : SB) : Int := s.relDst x.disp.toInt

/-- JOINPC of IF and SPLIT (R92): from the literal, or else ELSEPC. -/
def State.joinDst (s : State) (x : SB) : Int :=
  match s.cur.lit with
  | some w => s.relDst w.toInt
  | none => s.sbDst x

/-- The first fault of a list of destinations. -/
def State.dstVerdict (s : State) (ds : List Int) : Verdict :=
  match ds.findSome? fun d => dstFault d s.cur.slot with
  | some e => .trap e
  | none => .go

/-! Faults found at issue (R41). -/

/-- A DSTK cause: its subcode and DSDEPTH (R323). -/
def State.dstk (s : State) (sub : Nat) : Exc := ⟨.dstk, infoOf sub s.seq.ds.length, s.cur.slot⟩

/-- The end displacement of LOOP or LOOPI: head units to the END bundle (R84). -/
def loopDisp (w : Word) : Int := w.toInt

/-- LOOP and LOOPI: a fourth frame, an end at or before the head, or a fragment (R85, R96). -/
def State.loopVerdict (s : State) (i : Instr) (disp : Int) : Verdict :=
  if s.g.isFragment s.cur.q ∨ 3 ≤ s.seq.frames.length ∨ disp ≤ 0 then .trap (s.ill i 0x09) else .go

/-- The primary finds an engine parked at a convergence point (R332). -/
def State.parkedHere (s : State) : Bool := !s.g.isFragment s.cur.q && s.g.pmask != 0

/-- The segment number of SEGLD (R106). DESIGN CHOICE: operand(a) + seg is not reduced modulo 2^64 before it is compared
with 63; the spec does not say that the sum wraps. -/
def State.segldNum (s : State) (x : SI) : Nat := (s.operand x.a).toNat + (x.imm.extractLsb' 3 6).toNat

/-- Asking for a segment at issue: its table entry may be refused (R107). -/
def State.segVerdict (s : State) (seg : Nat) : Verdict :=
  match s.askSegment seg s.cur.slot with
  | .trap e => .trap e
  | _ => .go

/-- The running context that a SUSPEND or KILL selector names (R343, R344): the slot's only instance when its width is 16. -/
def State.targetOf (s : State) (slot half : Nat) : Option Gang :=
  s.gangs.find? fun g =>
    match g.place with
    | .run d sl h => 12 * d + sl == slot && (g.info.width == 16 || h == half)
    | _ => false

/-- SUSPEND (R343): a malformed selector; an empty target, the issuer or one in SYS mode; then the image's pages. -/
def State.suspendVerdict (s : State) (i : Instr) (x : SR) : Verdict :=
  let v := (s.operand x.a).toNat
  if v / 2 ^ 7 ≠ 0 ∨ 48 ≤ v % 64 then .trap (s.ill i 0x08)
  else match s.targetOf (v % 64) (bits v 6 6) with
    | none => .trap (s.ill i 0x09)
    | some g =>
      if g.gid = s.g.gid ∨ g.inSys then .trap (s.ill i 0x09)
      else
        let b := s.operand x.b
        let pages := (List.range 128).map fun (n : Nat) => s.accessVerdict ⟨b + BitVec.ofNat 64 (n * 2 ^ 17), if n = 0 then 4096 else 1, 1⟩
        (pages.find? (· != .go)).getD .go

/-- TLBINV's control operand (R336). -/
def tlbinvOk (c : Word) : Bool :=
  decide (c.toNat / 256 = 0) && decide (bits c.toNat 7 6 ≤ 1) && decide (bits c.toNat 5 4 ≤ 2)

/-- A verdict that is a fault at issue when a test fails. -/
def illUnless (ok : Bool) (e : Exc) : Verdict := if ok then .go else .trap e

/-- Entries present plus landings in flight of a queue register (R122). -/
def Gang.queueLoad (g : Gang) (q n : Nat) : Nat :=
  ((g.seq q).q.getD n []).length +
    ((g.inFlight.map (·.what)).flatten.filter fun w => match w with
      | .queue q' n' _ => q' == q && n' == n
      | _ => false).length

/-- The number of entries of a queue register. -/
def State.queue (s : State) (n : BitVec 6) : List Word := s.seq.q.getD n.toNat []

/-- What is found once the operands of an enabled instruction are read at issue, with its units free (R41, R142). -/
def State.operandCheck (s : State) (i : Instr) : Verdict :=
  match i with
  | .qpop x | .qpeek x => illUnless (!(s.queue x.a).isEmpty) ⟨.qund, infoOf x.a.toNat 0, s.cur.slot⟩
  | .next x => illUnless (decide (s.g.queueLoad s.cur.q x.d.toNat < 4)) ⟨.qovf, infoOf x.d.toNat 0, s.cur.slot⟩
  | .br x | .call x | .lbrk x => s.dstVerdict [s.sbDst x]
  | .jmp x =>
    match s.dstVerdict [s.sbDst x] with
    | .go => s.segVerdict ((s.sbDst x).toNat / 2 ^ 16)
    | v => v
  | .jr x | .callr x | .ret x => s.dstVerdict [((s.operand x.a).toNat : Int)]
  | .loop x => s.loopVerdict i (loopDisp (s.operand x.b))
  | .loopi x => s.loopVerdict i (loopDisp (s.operand x.a))
  | .ifD x | .split x =>
    if 16 ≤ s.seq.ds.length then .trap (s.dstk 1) else s.dstVerdict [s.sbDst x, s.joinDst x]
  | .elseD _ =>
    match s.seq.ds with
    | [] => .trap (s.dstk 2)
    | e :: _ => if e.phase then .trap (s.dstk 3) else .go
  | .join _ =>
    if s.parkedHere then .converge
    else match s.seq.ds with
      | [] => .trap (s.dstk 2)
      | e :: _ => if e.kind = 1 ∧ s.g.split then .hold else .go
  | .exit _ => if s.parkedHere && s.seq.ds.isEmpty then .converge else .go
  | .halt _ => if s.g.isFragment s.cur.q then .trap (s.ill i 0x09) else if s.parkedHere then .converge else .go
  | .fchk _ => if s.parkedHere then .converge else .go
  | .sstep _ => illUnless (!s.g.isFragment s.cur.q) (s.ill i 0x09)
  | .endg _ =>
    illUnless (s.g.info.dline && s.g.egReason == 0 && !s.g.isFragment s.cur.q) (s.ill i 0x09)
  | .segld x =>
    if 63 < s.segldNum x then .trap (segExc 7 (s.segldNum x % 64) s.cur.slot) else s.segVerdict (s.segldNum x)
  | .sysr x => illUnless (!selBad (s.operand x.a) none) (s.ill i 0x08)
  | .sysw x => illUnless (!selBad (s.operand x.a) (some (s.operand x.b))) (s.ill i 0x08)
  | .tlbinv x => illUnless (tlbinvOk (s.operand x.b)) (s.ill i 0x08)
  | .cont x =>
    illUnless (decide ((s.operand x.a).toNat < 2 ^ 22) && decide ((s.operand x.a).toNat % 2 = 0)) (s.ill i 0x08)
  | .parkrd x => illUnless (decide ((s.operand x.a).toNat < 32)) (s.ill i 0x08)
  | .suspend x => s.suspendVerdict i x
  | .qpush x =>
    match s.accessVerdict ⟨s.operand x.a, 64, 2⟩ with
    | .go => s.accessVerdict ⟨s.operand x.b, 64, 0⟩
    | v => v
  | .amo _ | .swap _ | .cas _ | .incb _ | .sig _ | .vset _ =>
    match s.accessOf i with
    | none => .go
    | some a => if s.atomicClear a then s.accessVerdict a else .hold
  | _ =>
    match s.accessOf i with
    | none => .go
    | some a => s.accessVerdict a

/-- What an enabled instruction meets at issue, with its units free: in SYS mode one that R320 bars is a cause before its
operands are looked at. DEDUCED: R319 and R335 say 'at decode' of the causes of `State.contextFault`, and R320 does not, so that
a false guard keeps a barred instruction from being one (R31). -/
def State.issueCheck (s : State) (i : Instr) : Verdict :=
  if s.g.inSys && notInSys i then .trap (s.ill i 0x09) else s.operandCheck i

/-- The segment that must be resident before an instruction's effect is known: the END bundle of a loop whose body is
skipped, and the delay bundles of a call (R82, R85, R105). DESIGN CHOICE: the spec gives the effect of both at issue and says nothing
of a segment that is not resident then; a LOOP or LOOPI with count 0 waits for that of END, and a CALL, not taken too, or CALLR for
those of its delay bundles. Where the segment's table entry is refused, SEG is raised at the waiting bundle's own head. -/
def State.needSeg (s : State) (i : Instr) : Option Nat :=
  let ofRet : Option Nat := match s.retAddr with
    | .error seg => some seg
    | .ok _ => none
  let ofEnd (disp : Int) : Option Nat := match s.fetch (s.relDst disp).toNat false with
    | .absent seg => some seg
    | _ => none
  match i with
  | .call _ | .callr _ => ofRet
  | .loop x => if (s.operand x.a).toNat % 2 ^ 32 = 0 then ofEnd (loopDisp (s.operand x.b)) else none
  | .loopi x => if x.imm = 0 then ofEnd (loopDisp (s.operand x.a)) else none
  | _ => none

/-- The whole test of one instruction that comes up to issue. A bundle already found free to issue is tested for its guard
and stage alone. -/
def State.gate (s : State) (i : Instr) : Verdict :=
  if s.cur.ready then (if s.enabled i then .go else .skip)
  else match s.staticFault i with
    | some (_, e) => .trap e
    | none =>
      if !s.enabled i then .skip
      else if !s.structFree i then .hold
      else match s.issueCheck i with
        | .go => if (s.needSeg i).isSome then .hold else .go
        | v => v

/-! What every meaning shares. -/

/-- The user continuation is taken, or the gang traps, at a convergence point (R332, R334). `pc` is the head of the
convergence bundle or the endgame entry. -/
def State.converge (s : State) (pc : Nat) (endgame : Bool) : State :=
  let r := s.g.ring.head?
  let e : Exc := match r with
    | some r => ⟨r.cause, r.info, 6⟩
    | none => ⟨.page, 0, 6⟩
  if s.g.contpc ≠ 0 ∧ s.g.held.isNone ∧ !s.g.split ∧ !endgame ∧ !s.g.ovf ∧
      (s.g.ring.all fun r => r.cause == .page || r.cause == .cow) then
    let h : Held := ⟨s.g.q0.ds, s.g.q0.frames, s.g.q0.exec, s.g.q0.xfer⟩
    let s := s.updG fun g => { g.setTrap e pc with held := some h }
    s.updG fun g => g.updSeq 0 fun q =>
      { q with ds := [], frames := [], pc := g.contpc.toNat, atEnd := false, xfer := none }
  else s.trapEnter 0 e pc

/-- A bundle that issues nothing more has been finished by its instruction: fetch goes where it says. -/
def State.doneHere (s : State) : State := { s with cur := { s.cur with done := true } }

/-- Run an instruction: its effect, nothing when it is suppressed, a cycle's wait, or a trap. -/
def State.run (s : State) (i : Instr) (eff : State → State) : State :=
  match s.gate i with
  | .go => eff (s.occupy i)
  | .skip => s
  | .hold => s
  | .converge => (s.converge s.cur.head false).doneHere
  | .trap e => (s.trapHere e).doneHere

/-- Run a control transfer: one that is suppressed by its guard still has its delay bundles (R53). -/
def State.runTransfer (s : State) (i : Instr) (eff : State → State) : State :=
  match s.gate i with
  | .skip => s.transfer none none .nothing
  | _ => s.run i eff

/-- What an instruction answers: the machine goes on. -/
def State.next (s : State) : Host.Outcome State Fault Refusal := .next s

end Sys2Proof.Machine
end

