-- ==== Sys2Proof/Machine/Scalar.lean ====
section
/-! DEFINITION. The scalar class (R109 to R128): each instruction's result and where it lands. -/

namespace Sys2Proof.Machine

/-- A reads operand(a), B reads operand(b) (R109). -/
def State.srA (s : State) (x : SR) : Word := s.operand x.a

/-- operand(b). -/
def State.srB (s : State) (x : SR) : Word := s.operand x.b

/-- An SR instruction of fixed latency whose result of A and B lands in s[d]. -/
def State.fixed2 (s : State) (i : Instr) (x : SR) (lat : Nat) (f : Word → Word → Word) : State :=
  s.run i fun s => s.landReg lat x.d (f (s.srA x) (s.srB x))

/-- An SI instruction whose result of A and imm lands in s[d] at issue + 1. -/
def State.fixedI (s : State) (i : Instr) (x : SI) (f : Word → Word → Word) : State :=
  s.run i fun s => s.landReg 1 x.d (f (s.operand x.a) (simm9 x.imm))

/-- The upper 64 bits of the exact product (R112). -/
def mulHigh (f : BitVec 3) (a b : Word) : Word :=
  let p : Int := if f = 0 then a.toInt * b.toInt else if f = 1 then (a.toNat : Int) * b.toNat else a.toInt * b.toNat
  wordOf (p / 2 ^ 64)

/-- DIV and REM (R113): quotient and remainder, truncating; division by zero and the overflow have fixed results. -/
def divRem (f : BitVec 3) (a b : Word) : Word × Word :=
  let x : Int := if f = 0 then a.toInt else a.toNat
  let y : Int := if f = 0 then b.toInt else b.toNat
  if y = 0 then (wordOf (-1), wordOf x)
  else if f = 0 ∧ x = -(2 ^ 63) ∧ y = -1 then (wordOf (-(2 ^ 63)), 0)
  else (wordOf (x.tdiv y), wordOf (x.tmod y))

/-- The lesser or greater operand, signed for f = 0 (R112). -/
def minMax (greater : Bool) (f : Nat) (a b : Word) : Word :=
  let lt := if f = 0 then a.slt b else a.ult b
  if lt = greater then b else a

/-- The conditions of CMP (R116). -/
def condHolds (c : Nat) (a b : Word) : Bool :=
  match c with
  | 0 => a == b
  | 1 => a != b
  | 2 => a.slt b
  | 3 => a.sle b
  | 4 => b.slt a
  | 5 => b.sle a
  | 6 => a.ult b
  | _ => b.ule a

/-- The functions of PLOG (R117). -/
def plogFn (f : Nat) (x y : Bool) : Bool :=
  match f with
  | 0 => x && y
  | 1 => x || y
  | 2 => x != y
  | 3 => x && !y
  | 4 => x || !y
  | 5 => !(x && y)
  | 6 => !(x || y)
  | _ => x == y

/-- The number of leading zero bits (R120). -/
def leadingZeros (a : Word) : Word := if a = 0 then 64 else BitVec.ofNat 64 (63 - Nat.log2 a.toNat)

/-- The number of one bits (R120). -/
def oneBits (a : Word) : Word := BitVec.ofNat 64 ((List.range 64).filter fun n => a.getLsbD n).length

/-- Where a bit field starts and how many bits of it lie below bit 64 (R121). -/
def fieldOf (b : Word) : Nat × Nat :=
  let pos := bits b.toNat 5 0
  (pos, min (bits b.toNat 14 8) (64 - pos))

/-- BFX (R121). -/
def bitExtract (f : BitVec 3) (a b : Word) : Word :=
  let (pos, w) := fieldOf b
  if w = 0 then 0
  else
    let v := (a.toNat >>> pos) % 2 ^ w
    if f = 1 then wordOf (sextNat v w) else BitVec.ofNat 64 v

/-- BFI (R121). -/
def bitInsert (old a b : Word) : Word :=
  let (pos, w) := fieldOf b
  let m : Word := BitVec.ofNat 64 ((2 ^ w - 1) * 2 ^ pos)
  (old &&& ~~~ m) ||| ((a <<< pos) &&& m)

/-- The value of a special register as the issuing sequencer reads it (R124, R125). Of a width-8 instance bits [15:8] of EXEC,
XMASK, PMASK and EPRES read as 0 (R14). -/
def State.special (s : State) (c : Nat) : Word :=
  let g := s.g
  let n (k : Nat) : Word := BitVec.ofNat 64 k
  let m (k : Lanes) : Word := (k &&& widthLanes g.info.width).setWidth 64
  match c with
  | 0x00 => n g.gx
  | 0x01 => n g.gy
  | 0x02 => n g.gz
  | 0x03 => n g.stage
  | 0x04 => n g.info.nx
  | 0x05 => n g.info.ny
  | 0x06 => n g.info.nz
  | 0x07 => n g.info.width
  | 0x08 => n g.place.die
  | 0x09 => n g.place.slot
  | 0x0A => n g.place.half
  | 0x0B => m s.seq.exec
  | 0x0C => m g.xmask
  | 0x0D => m g.pmask
  | 0x0E => m g.epres
  | 0x0F => n (windowKey g.place.die g.place.slot (g.engine 0) 0)
  | 0x10 => g.info.lrec
  | 0x11 => g.info.args
  | 0x12 => n g.cycle
  | 0x13 => n g.egReason
  | 0x14 => n s.seq.ds.length
  | 0x15 => (g.flagsOf s.act).setWidth 64
  | 0x16 => g.lastBatch.setWidth 64
  | 0x17 => g.contpc
  | 0x18 => g.trapCause
  | 0x19 => g.trapPc
  | 0x1A => g.trapInfo
  | _ => g.trapSlot

/-- NOP (R111). -/
def execNop (x : SR) (s : State) : Host.Outcome State Fault Refusal :=
  (s.run (.nop x) fun s => s).next

/-- ADD (R112). -/
def execAdd (x : SR) (s : State) : Host.Outcome State Fault Refusal :=
  (s.fixed2 (.add x) x 1 fun a b => a + b).next

/-- SUB (R112). -/
def execSub (x : SR) (s : State) : Host.Outcome State Fault Refusal :=
  (s.fixed2 (.sub x) x 1 fun a b => a - b).next

/-- ADDI (R112). -/
def execAddi (x : SI) (s : State) : Host.Outcome State Fault Refusal :=
  (s.fixedI (.addi x) x fun a b => a + b).next

/-- MUL (R112). -/
def execMul (x : SR) (s : State) : Host.Outcome State Fault Refusal :=
  (s.fixed2 (.mul x) x 3 fun a b => a * b).next

/-- MULH (R112). -/
def execMulh (x : SR) (s : State) : Host.Outcome State Fault Refusal :=
  (s.fixed2 (.mulh x) x 3 (mulHigh x.f)).next

/-- DIV (R113). -/
def execDiv (x : SR) (s : State) : Host.Outcome State Fault Refusal :=
  (s.fixed2 (.div x) x 20 fun a b => (divRem x.f a b).1).next

/-- REM (R113). -/
def execRem (x : SR) (s : State) : Host.Outcome State Fault Refusal :=
  (s.fixed2 (.rem x) x 20 fun a b => (divRem x.f a b).2).next

/-- AND (R114). -/
def execAndS (x : SR) (s : State) : Host.Outcome State Fault Refusal :=
  (s.fixed2 (.andS x) x 1 fun a b => a &&& b).next

/-- OR (R114). -/
def execOrS (x : SR) (s : State) : Host.Outcome State Fault Refusal :=
  (s.fixed2 (.orS x) x 1 fun a b => a ||| b).next

/-- XOR (R114). -/
def execXorS (x : SR) (s : State) : Host.Outcome State Fault Refusal :=
  (s.fixed2 (.xorS x) x 1 fun a b => a ^^^ b).next

/-- ANDN (R114). -/
def execAndn (x : SR) (s : State) : Host.Outcome State Fault Refusal :=
  (s.fixed2 (.andn x) x 1 fun a b => a &&& ~~~ b).next

/-- ANDI (R114). -/
def execAndi (x : SI) (s : State) : Host.Outcome State Fault Refusal :=
  (s.fixedI (.andi x) x fun a b => a &&& b).next

/-- ORI (R114). -/
def execOri (x : SI) (s : State) : Host.Outcome State Fault Refusal :=
  (s.fixedI (.ori x) x fun a b => a ||| b).next

/-- XORI (R114). -/
def execXori (x : SI) (s : State) : Host.Outcome State Fault Refusal :=
  (s.fixedI (.xori x) x fun a b => a ^^^ b).next

/-- SHL (R115). -/
def execShl (x : SR) (s : State) : Host.Outcome State Fault Refusal :=
  (s.fixed2 (.shl x) x 1 fun a b => a <<< (b.toNat % 64)).next

/-- SHR (R115). -/
def execShr (x : SR) (s : State) : Host.Outcome State Fault Refusal :=
  (s.fixed2 (.shr x) x 1 fun a b => a >>> (b.toNat % 64)).next

/-- SAR (R115). -/
def execSar (x : SR) (s : State) : Host.Outcome State Fault Refusal :=
  (s.fixed2 (.sar x) x 1 fun a b => a.sshiftRight (b.toNat % 64)).next

/-- SHLI (R115). -/
def execShli (x : SI) (s : State) : Host.Outcome State Fault Refusal :=
  (s.fixedI (.shli x) x fun a b => a <<< (b.toNat % 64)).next

/-- SHRI (R115). -/
def execShri (x : SI) (s : State) : Host.Outcome State Fault Refusal :=
  (s.fixedI (.shri x) x fun a b => a >>> (b.toNat % 64)).next

/-- SARI (R115). -/
def execSari (x : SI) (s : State) : Host.Outcome State Fault Refusal :=
  (s.fixedI (.sari x) x fun a b => a.sshiftRight (b.toNat % 64)).next

/-- MIN (R112). -/
def execMinS (x : SR) (s : State) : Host.Outcome State Fault Refusal :=
  (s.fixed2 (.minS x) x 1 (minMax false x.f.toNat)).next

/-- MAX (R112). -/
def execMaxS (x : SR) (s : State) : Host.Outcome State Fault Refusal :=
  (s.fixed2 (.maxS x) x 1 (minMax true x.f.toNat)).next

/-- CMP (R116). -/
def execCmp (x : SR) (s : State) : Host.Outcome State Fault Refusal :=
  (s.run (.cmp x) fun s => s.land 1 [.pred s.cur.q (x.d.setWidth 3) (condHolds (x.d.toNat / 8) (s.srA x) (s.srB x))]).next

/-- CMPI (R116). -/
def execCmpi (x : SI) (s : State) : Host.Outcome State Fault Refusal :=
  (s.run (.cmpi x) fun s => 
    s.land 1 [.pred s.cur.q (x.d.setWidth 3) (condHolds (x.d.toNat / 8) (s.operand x.a) (simm9 x.imm))]).next

/-- SEL (R118). -/
def execSel (x : SR) (s : State) : Host.Outcome State Fault Refusal :=
  (s.run (.sel x) fun s => s.landReg 1 x.d (if s.readPred x.f then s.srA x else s.srB x)).next

/-- MOV (R119). -/
def execMov (x : SR) (s : State) : Host.Outcome State Fault Refusal :=
  (s.run (.mov x) fun s => s.landReg 1 x.d (s.srA x)).next

/-- MOVI (R119). -/
def execMovi (x : SI) (s : State) : Host.Outcome State Fault Refusal :=
  (s.fixedI (.movi x) x fun _ b => b).next

/-- MOVHI (R119). -/
def execMovhi (x : SI) (s : State) : Host.Outcome State Fault Refusal :=
  (s.run (.movhi x) fun s => 
    s.landReg 1 x.d (((s.operand x.a + simm9 x.imm) <<< 32) ||| (s.seq.reg x.d &&& 0xFFFFFFFF))).next

/-- CLZ (R120). -/
def execClz (x : SR) (s : State) : Host.Outcome State Fault Refusal :=
  (s.run (.clz x) fun s => s.landReg 1 x.d (leadingZeros (s.srA x))).next

/-- POPC (R120). -/
def execPopc (x : SR) (s : State) : Host.Outcome State Fault Refusal :=
  (s.run (.popc x) fun s => s.landReg 1 x.d (oneBits (s.srA x))).next

/-- BFX (R121). -/
def execBfx (x : SR) (s : State) : Host.Outcome State Fault Refusal :=
  (s.fixed2 (.bfx x) x 1 (bitExtract x.f)).next

/-- BFI (R121). -/
def execBfi (x : SR) (s : State) : Host.Outcome State Fault Refusal :=
  (s.run (.bfi x) fun s => s.landReg 1 x.d (bitInsert (s.seq.reg x.d) (s.srA x) (s.srB x))).next

/-- ADDSH (R112). -/
def execAddsh (x : SR) (s : State) : Host.Outcome State Fault Refusal :=
  (s.fixed2 (.addsh x) x 1 fun a b => a + (b <<< x.f.toNat)).next

/-- PLOG (R117). -/
def execPlog (x : SR) (s : State) : Host.Outcome State Fault Refusal :=
  (s.run (.plog x) fun s => 
    s.land 1 [.pred s.cur.q (x.d.setWidth 3)
      (plogFn x.f.toNat (s.readPred (x.a.setWidth 3)) (s.readPred (x.b.setWidth 3)))]).next

/-- QPOP (R123: the head leaves at issue). -/
def execQpop (x : SR) (s : State) : Host.Outcome State Fault Refusal :=
  (s.run (.qpop x) fun s => 
    (s.landReg 1 x.d ((s.queue x.a).headD 0)).updSeq fun q => { q with q := updAt x.a.toNat (·.drop 1) q.q }).next

/-- QPEEK (R123). -/
def execQpeek (x : SR) (s : State) : Host.Outcome State Fault Refusal :=
  (s.run (.qpeek x) fun s => s.landReg 1 x.d ((s.queue x.a).headD 0)).next

/-- QCNT (R123). -/
def execQcnt (x : SR) (s : State) : Host.Outcome State Fault Refusal :=
  (s.run (.qcnt x) fun s => s.landReg 1 x.d (BitVec.ofNat 64 (s.queue x.a).length)).next

/-- MOVS (R124, R125). -/
def execMovs (x : SR) (s : State) : Host.Outcome State Fault Refusal :=
  (s.run (.movs x) fun s => s.landReg 2 x.d (s.special x.a.toNat)).next

/-- MOVSW (R124, R126: FLAGS clears flags of the active lanes, TRAPPC is writable in SYS mode). -/
def execMovsw (x : SR) (s : State) : Host.Outcome State Fault Refusal :=
  (s.run (.movsw x) fun s => 
    if x.d = 0x15 then s.land 2 (s.actives.map fun l => .clearFlags l ((s.srA x).setWidth 5))
    else s.land 2 [.trappc (s.srA x)]).next

/-- EGET (R127). -/
def execEget (x : SR) (s : State) : Host.Outcome State Fault Refusal :=
  (s.run (.eget x) fun s => 
    let lane := (s.srA x).toNat % 16
    s.landReg 8 x.d (if lane < s.g.info.width ∧ s.g.epres.getLsbD lane then (s.g.lane lane).es (x.b.setWidth 4) else 0)).next

/-- ESET (R128). -/
def execEset (x : SR) (s : State) : Host.Outcome State Fault Refusal :=
  (s.run (.eset x) fun s => s.land 8 (s.actives.map fun l => .esc l (x.b.setWidth 4) (s.srA x))).next

end Sys2Proof.Machine
end

