-- ==== Sys2Proof/Machine/Control.lean ====
section
/-! DEFINITION. The control class (R80 to R102, R106): transfers, hardware loops, divergence, ending, waiting and overlay
fetches. -/

namespace Sys2Proof.Machine

/-! Plain transfers (R82). -/

/-- p XOR n of an SB word (R31). -/
def State.sbTaken (s : State) (x : SB) : Bool := s.readPred x.p != (x.n == 1)

/-- A relative transfer, taken or not. -/
def State.branch (s : State) (x : SB) (taken : Bool) : State :=
  s.transfer (if taken then some (s.sbDst x).toNat else none) none .nothing

/-- The link of a call, at issue + 1. -/
def State.link (s : State) (r : BitVec 6) : State :=
  match s.retAddr with
  | .ok a => s.landReg 1 r (BitVec.ofNat 64 a)
  | .error _ => s

/-- BR (R82). -/
def execBr (x : SB) (s : State) : Host.Outcome State Fault Refusal :=
  (s.runTransfer (.br x) fun s => s.branch x (s.sbTaken x)).next

/-- JMP (R82): always taken, and it starts the fetch of its destination's segment. -/
def execJmp (x : SB) (s : State) : Host.Outcome State Fault Refusal :=
  (s.runTransfer (.jmp x) fun s => (s.startFetch ((s.sbDst x).toNat / 2 ^ 16)).branch x true).next

/-- JR (R82). -/
def execJr (x : SR) (s : State) : Host.Outcome State Fault Refusal :=
  (s.runTransfer (.jr x) fun s => s.transfer (some (s.srA x).toNat) none .nothing).next

/-- CALL (R82): a call that is taken links s62. -/
def execCall (x : SB) (s : State) : Host.Outcome State Fault Refusal :=
  (s.runTransfer (.call x) fun s => (if s.sbTaken x then s.link 62 else s).branch x (s.sbTaken x)).next

/-- CALLR (R82). -/
def execCallr (x : SR) (s : State) : Host.Outcome State Fault Refusal :=
  (s.runTransfer (.callr x) fun s => (s.link x.d).transfer (some (s.srA x).toNat) none .nothing).next

/-- RET (R82). -/
def execRet (x : SR) (s : State) : Host.Outcome State Fault Refusal :=
  (s.runTransfer (.ret x) fun s => s.transfer (some (s.srA x).toNat) none .nothing).next

/-! Hardware loops (R84 to R87). -/

/-- Open a frame at the bundle that follows, or skip the body when the count is 0 (R85). DESIGN CHOICE: a body whose END address
holds no bundle that fetch can find is skipped by sending fetch to END itself, which raises what stands there; and a LOOP in
the END bundle of the enclosing frame pushes its frame first, so that the enclosing frame makes no END step for that bundle.
The spec says neither. -/
def State.openLoop (s : State) (n stages : Nat) (disp : Int) : State :=
  let fin := (s.relDst disp).toNat
  if n = 0 then
    match s.fetch fin false with
    | .bundle head next _ => s.finishWith next (ranOff head next)
    | _ => s.finishWith fin false
  else s.updSeq fun q =>
    { q with frames := ⟨s.headAt s.cur.next (ranOff s.cur.head s.cur.next), fin, n, n, 0, stages, false⟩ :: q.frames }

/-- LOOP (R85). -/
def execLoop (x : SR) (s : State) : Host.Outcome State Fault Refusal :=
  (s.run (.loop x) fun s =>
    s.openLoop ((s.srA x).toNat % 2 ^ 32) (x.d.toNat % 4 + 1) (loopDisp (s.srB x))).next

/-- LOOPI (R85): its count is imm9, zero-extended. -/
def execLoopi (x : SI) (s : State) : Host.Outcome State Fault Refusal :=
  (s.run (.loopi x) fun s => s.openLoop x.imm.toNat (x.d.toNat % 4 + 1) (loopDisp (s.operand x.a))).next

/-- LBRK (R87). -/
def execLbrk (x : SB) (s : State) : Host.Outcome State Fault Refusal :=
  (s.runTransfer (.lbrk x) fun s =>
    if s.sbTaken x then s.transfer (some (s.sbDst x).toNat) none (.popLoop s.seq.frames.length)
    else s.transfer none none .nothing).next

/-! Divergence (R90 to R95). -/

/-- The lanes of A that satisfy the condition of IF and SPLIT (R92). -/
def State.thenLanes (s : State) (x : SB) : Lanes :=
  (s.actives.filter fun l => (x.p == 0 || (s.g.lane l).cond (x.p.toNat - 1)) != (x.n == 1)).foldl
    (fun m l => m ||| laneBit l) 0

/-- The entry that IF and SPLIT push (R92). -/
def State.ifEntry (s : State) (x : SB) (e : Lanes) (kind : Nat) (phase : Bool) : DsEntry :=
  ⟨(s.sbDst x).toNat, (s.joinDst x).toNat, e, s.seq.exec, phase, kind⟩

/-- Push an entry on the divergence stack. -/
def State.pushDs (s : State) (e : DsEntry) : State := s.updSeq fun q => { q with ds := e :: q.ds }

/-- IF (R92): the then side first, or the else side alone, or nothing. -/
def State.diverge (s : State) (x : SB) : State :=
  let t := s.thenLanes x
  let e := s.act &&& ~~~ t
  if t ≠ 0 then (s.pushDs (s.ifEntry x e 0 false)).transfer none (some t) .nothing
  else if e ≠ 0 then
    (s.pushDs (s.ifEntry x e 0 true)).transfer (some (s.sbDst x).toNat) (some e) .nothing
  else (s.pushDs (s.ifEntry x e 0 false)).transfer (some (s.joinDst x).toNat) none .nothing

/-- SPLIT splits the gang (R95). -/
def State.splits (s : State) (x : SB) : Bool :=
  s.g.info.width == 16 && s.thenLanes x != 0 && (s.act &&& ~~~ s.thenLanes x) != 0 && !s.g.split && s.cur.q == 0

/-- The primary keeps the side with more lanes, and the then side on a tie (R95). -/
def State.splitGang (s : State) (x : SB) : State :=
  let t := s.thenLanes x
  let e := s.act &&& ~~~ t
  let (k, s) := s.takeTicket
  let s := s.updG fun g => { g with splitTkt := k }
  if laneCount e ≤ laneCount t then
    (s.pushDs (s.ifEntry x e 1 false)).transfer none (some t) (.startFragment true e)
  else
    (s.pushDs (s.ifEntry x e 1 true)).transfer (some (s.sbDst x).toNat) (some e) (.startFragment false t)

/-- IF (R92). -/
def execIfD (x : SB) (s : State) : Host.Outcome State Fault Refusal :=
  (s.runTransfer (.ifD x) fun s => s.diverge x).next

/-- SPLIT (R95). -/
def execSplit (x : SB) (s : State) : Host.Outcome State Fault Refusal :=
  (s.runTransfer (.split x) fun s => if s.splits x then s.splitGang x else s.diverge x).next

/-- The else side that is still there: EMASK and not XMASK and not PMASK (R93, R94). -/
def Gang.elseLeft (g : Gang) (e : DsEntry) : Lanes := e.emask &&& ~~~ g.xmask &&& ~~~ g.pmask

/-- Set PHASE of the top entry. -/
def Seq.elsePhase (q : Seq) : Seq :=
  match q.ds with
  | [] => q
  | e :: r => { q with ds := { e with phase := true } :: r }

/-- ELSE (R93): the fragment ends, or fetch goes to JOINPC, or the else side follows. -/
def State.elseStep (s : State) : State :=
  match s.seq.ds with
  | [] => s
  | e :: _ =>
    let m := s.g.elseLeft e
    if e.kind = 2 then s.transfer none none .endFragment
    else if e.kind = 1 ∨ m = 0 then s.transfer (some e.joinPc) none .nothing
    else (s.updSeq Seq.elsePhase).transfer none (some m) .nothing

/-- ELSE (R93). -/
def execElseD (x : SB) (s : State) : Host.Outcome State Fault Refusal :=
  (s.runTransfer (.elseD x) fun s => s.elseStep).next

/-- JOIN (R94): pop, and restore EXEC after the delay bundles; a fragment ends at its base entry. -/
def State.joinStep (s : State) : State :=
  match s.seq.ds with
  | [] => s
  | e :: r =>
    (s.updSeq fun q => { q with ds := r }).transfer none (some e.rmask)
      (if e.kind = 2 then .endFragment else .nothing)

/-- JOIN (R94). -/
def execJoin (x : SR) (s : State) : Host.Outcome State Fault Refusal :=
  (s.runTransfer (.join x) fun s => s.joinStep).next

/-- EXIT (R94): the active lanes retire at issue; then the other side, JOINPC, or the end. -/
def State.exitStep (s : State) : State :=
  let s := s.updG fun g => { g with xmask := g.xmask ||| s.act }
  if s.g.isFragment s.cur.q then s.transfer none none .endFragment
  else match s.seq.ds with
    | [] => s.transfer none none .endInstance
    | e :: _ =>
      let m := s.g.elseLeft e
      if !e.phase ∧ e.kind = 0 ∧ m ≠ 0 then
        (s.updSeq Seq.elsePhase).transfer (some e.elsePc) (some m) .nothing
      else s.transfer (some e.joinPc) none .nothing

/-- EXIT (R94). -/
def execExit (x : SR) (s : State) : Host.Outcome State Fault Refusal :=
  (s.runTransfer (.exit x) fun s => s.exitStep).next

/-! Ending, waiting and checking (R98 to R102). -/

/-- HALT (R99): after its delay bundles the sequencer issues nothing more. -/
def execHalt (x : SR) (s : State) : Host.Outcome State Fault Refusal :=
  (s.runTransfer (.halt x) fun s => s.transfer none none .endInstance).next

/-- Block the issuing sequencer. -/
def State.blockOn (s : State) (b : Block) : State := s.updSeq fun q => { q with block := b }

/-- WAIT (R100): the next bundle issues operand(a)[15:0] cycles after it. -/
def execWait (x : SR) (s : State) : Host.Outcome State Fault Refusal :=
  (s.run (.wait x) fun s =>
    if (s.srA x).toNat % 2 ^ 16 = 0 then s else s.blockOn (.wait ((s.srA x).toNat % 2 ^ 16))).next

/-- Whether IDLE goes on: no token is named, or one named is clear (R101). -/
def State.idleOver (s : State) (m : BitVec 8) : Bool :=
  m == 0 || (List.range 8).any fun n => m.getLsbD n && !s.tokenSet (BitVec.ofNat 3 n)

/-- IDLE (R101). -/
def execIdle (x : SR) (s : State) : Host.Outcome State Fault Refusal :=
  (s.run (.idle x) fun s =>
    if s.idleOver ((s.srA x).setWidth 8) then s else s.blockOn (.idle ((s.srA x).setWidth 8))).next

/-- FCHK (R102): nothing, once the convergence test has passed. -/
def execFchk (x : SR) (s : State) : Host.Outcome State Fault Refusal := (s.run (.fchk x) fun s => s).next

/-! Tokened operations of the S slot (R49). -/

/-- Issue a tokened operation of the S slot: its token is set, and it takes effect later (R42). -/
def State.tokened (s : State) (t : BitVec 3) (d : BitVec 6) (k : OpKind) : State :=
  let sys := s.g.inSys
  let (n, s) := s.takeTicket
  (s.raise t).updG fun g => { g with ops := g.ops ++ [⟨n, s.cur.q, sys, t, d, s.cur.slot, k⟩] }

/-- Mark the frame that holds a segment most recently used (R106). -/
def State.touchSegment (s : State) (seg : Nat) : State :=
  let tab := s.imageTab
  let part := s.g.info.part
  let lid := s.imageOwner
  s.updMySlot fun sl =>
    let top := (sl.frames.map (·.used)).foldl max 0 + 1
    { sl with frames := sl.frames.map fun f => if f.is lid tab part seg then { f with used := top } else f }

/-- A segment is resident. -/
def State.hasSegment (s : State) (seg : Nat) : Bool := (s.frameOf seg).any (·.fill == .resident)

/-- SEGLD (R106): the fetch starts, and the token waits for it; a segment that is resident is marked most recently used,
and the token clears in the next cycle. -/
def execSegld (x : SI) (s : State) : Host.Outcome State Fault Refusal :=
  (s.run (.segld x) fun s =>
    let seg := s.segldNum x
    let tok : BitVec 3 := x.imm.setWidth 3
    if s.hasSegment seg then
      (((s.touchSegment seg).raise tok).land 1 [.token s.cur.q s.g.inSys tok])
    else (s.startFetch seg).tokened tok 0 (.segld seg)).next

end Sys2Proof.Machine
end

