-- ==== Sys2Proof/Machine/SeqMem.lean ====
section
/-! DEFINITION. The memory accesses of a sequencer at issue (R143 to R148): what is checked and read at issue, and the
access that is left to be performed (R157, R160). -/

namespace Sys2Proof.Machine

/-- The key of an access that has passed its checks, with the entry its translation may leave in the caches (R140). -/
def State.keyOf (s : State) (a : Access) : State × Nat :=
  match s.locateS a with
  | .at_ key (some e) => (s.fillTlbs e, key)
  | .at_ key none => (s, key)
  | _ => (s, 0)

/-- Issue a load or an atomic: its token is set, and it takes its place in program order (R146, R155). -/
def State.issueAcc (s : State) (x : SM) (a : Access) (k : AccKind) : State :=
  let sys := s.g.inSys
  let (s, key) := s.keyOf a
  let (n, s) := s.takeTicket
  ((s.raise x.tok).updG fun g => { g with loaded := true }).updSeq fun q =>
    { q with acc := q.acc ++ [⟨n, s.cur.q, x.tok, sys, k, x.d, a.va, key, a.size, x.sign == 1, none, false⟩] }

/-- Issue a store: it enters the store buffer (R146). -/
def State.issueStore (s : State) (x : SM) (a : Access) : State :=
  let sys := s.g.inSys
  let v := s.operand x.d
  let (s, key) := s.keyOf a
  let (n, s) := s.takeTicket
  (s.raise x.tok).updSeq fun q => { q with sb := q.sb ++ [⟨n, x.tok, sys, a.va, key, leBytes a.size v.toNat, true⟩] }

/-- LD (R145). -/
def execLd (x : SM) (s : State) : Host.Outcome State Fault Refusal :=
  (s.run (.ld x) fun s => s.issueAcc x ⟨s.immAddr x (SM.bytes x), SM.bytes x, 0⟩ .load).next

/-- ST (R145). -/
def execSt (x : SM) (s : State) : Host.Outcome State Fault Refusal :=
  (s.run (.st x) fun s => s.issueStore x ⟨s.immAddr x (SM.bytes x), SM.bytes x, 1⟩).next

/-- LDX (R145). -/
def execLdx (x : SM) (s : State) : Host.Outcome State Fault Refusal :=
  (s.run (.ldx x) fun s => s.issueAcc x ⟨s.idxAddr x, SM.bytes x, 0⟩ .load).next

/-- STX (R145). -/
def execStx (x : SM) (s : State) : Host.Outcome State Fault Refusal :=
  (s.run (.stx x) fun s => s.issueStore x ⟨s.idxAddr x, SM.bytes x, 1⟩).next

/-- The access of an atomic at A (R143). -/
def State.atomAcc (s : State) (x : SM) : Access := ⟨s.operand x.a, SM.bytes x, 2⟩

/-- AMO (R145): x is s[d] as read at issue. -/
def execAmo (x : SM) (s : State) : Host.Outcome State Fault Refusal :=
  (s.run (.amo x) fun s => s.issueAcc x (s.atomAcc x) (.amo x.b.toNat (s.seq.reg x.d))).next

/-- SWAP (R145). -/
def execSwap (x : SM) (s : State) : Host.Outcome State Fault Refusal :=
  (s.run (.swap x) fun s => s.issueAcc x (s.atomAcc x) (.swap (s.operand x.b))).next

/-- CAS (R145): the expected value is s[d] as read at issue. -/
def execCas (x : SM) (s : State) : Host.Outcome State Fault Refusal :=
  (s.run (.cas x) fun s => s.issueAcc x (s.atomAcc x) (.cas (s.seq.reg x.d) (s.operand x.b))).next

/-- INCB (R145). -/
def execIncb (x : SM) (s : State) : Host.Outcome State Fault Refusal :=
  (s.run (.incb x) fun s => s.issueAcc x (s.atomAcc x) (.incb (s.operand x.b))).next

/-- PREF (R147): it never faults; an address that would fault leaves nothing to fetch. -/
def execPref (x : SM) (s : State) : Host.Outcome State Fault Refusal :=
  (s.run (.pref x) fun s =>
    let a : Access := ⟨s.immAddr x 256, 256, 0⟩
    match s.locateS a with
    | .at_ _ _ => s.issueAcc x a .pref
    | _ => s.issueAcc x ⟨a.va, 0, 0⟩ .pref).next

/-- FENCE (R148). -/
def execFence (x : SR) (s : State) : Host.Outcome State Fault Refusal :=
  (s.run (.fence x) fun s =>
    let (n, s) := s.takeTicket
    s.blockOn (.fence x.f.toNat s.g.sealed n)).next

end Sys2Proof.Machine
end

