-- ==== Sys2Proof/Machine/BarrierOps.lean ====
section
/-! DEFINITION. The barrier instructions and SSTEP at issue (R248, R249, R251). Their events at the Barrier File stand
with the events. -/

namespace Sys2Proof.Machine

/-- A count operand: operand(b)[11:0], with 0 read as 1 (R248). -/
def barCount (w : Word) : Nat := if w.toNat % 2 ^ 12 = 0 then 1 else w.toNat % 2 ^ 12

/-- BAR.INIT (R248). -/
def execBarInit (x : SR) (s : State) : Host.Outcome State Fault Refusal :=
  (s.run (.barInit x) fun s =>
    s.tokened x.f 0 (.barInit x.d.toNat (bits (s.srA x).toNat 11 0) (bits (s.srA x).toNat 13 12) (s.srB x))).next

/-- BAR.ARRIVE (R248, R171). -/
def execBarArrive (x : SR) (s : State) : Host.Outcome State Fault Refusal :=
  (s.run (.barArrive x) fun s => s.tokened x.f x.d (.barArrive x.a.toNat (barCount (s.srB x)) s.g.sealed)).next

/-- BAR.WAIT (R249). -/
def execBarWait (x : SR) (s : State) : Host.Outcome State Fault Refusal :=
  (s.run (.barWait x) fun s => s.blockOn (.barWait x.a.toNat ((s.srB x).getLsbD 0) none)).next

/-- BAR.SYNC (R249). -/
def execBarSync (x : SR) (s : State) : Host.Outcome State Fault Refusal :=
  (s.run (.barSync x) fun s => s.blockOn (.barSync x.a.toNat (barCount (s.srB x)) s.g.sealed none)).next

/-- BAR.EXPECT (R248). -/
def execBarExpect (x : SR) (s : State) : Host.Outcome State Fault Refusal :=
  (s.run (.barExpect x) fun s => s.tokened x.f 0 (.barExpect x.a.toNat (s.srB x))).next

/-- BAR.TEST (R248). -/
def execBarTest (x : SR) (s : State) : Host.Outcome State Fault Refusal :=
  (s.run (.barTest x) fun s => s.tokened x.f x.d (.barTest x.a.toNat)).next

/-- SSTEP (R251). -/
def execSstep (x : SR) (s : State) : Host.Outcome State Fault Refusal :=
  (s.run (.sstep x) fun s => s.blockOn (.sstep none)).next

end Sys2Proof.Machine
end

