-- ==== Sys2Proof/Machine/QueueOps.lean ====
section
/-! DEFINITION. The device-side queue instructions at issue (R294 to R299). -/

namespace Sys2Proof.Machine

/-- QPUSH (R295). -/
def execQpush (x : SR) (s : State) : Host.Outcome State Fault Refusal :=
  (s.run (.qpush x) fun s =>
    let (s, desc) := s.keyOf ⟨s.srA x, 64, 2⟩
    let (s, pk) := s.keyOf ⟨s.srB x, 64, 0⟩
    s.tokened x.f x.d (.qpush desc pk)).next

/-- QRES (R295). -/
def execQres (x : SR) (s : State) : Host.Outcome State Fault Refusal :=
  (s.run (.qres x) fun s =>
    let n := s.srB x
    let (s, desc) := s.keyOf ⟨s.srA x, 64, 2⟩
    s.tokened x.f x.d (.qres desc n)).next

/-- SIG (R297). -/
def execSig (x : SR) (s : State) : Host.Outcome State Fault Refusal :=
  (s.run (.sig x) fun s =>
    let v := s.srB x
    let (s, key) := s.keyOf ⟨s.srA x, 8, 2⟩
    s.tokened x.f 0 (.sig key (x.d == 1) v s.g.sealed)).next

/-- The signed conditions of COND and SIGW, numbered 0 to 5 (R276, R298). -/
def sigCond (c : Nat) (v w : Word) : Bool := condHolds c v w

/-- SIGW (R298). -/
def execSigw (x : SR) (s : State) : Host.Outcome State Fault Refusal :=
  (s.run (.sigw x) fun s =>
    let w := s.srB x
    let (s, key) := s.keyOf ⟨s.srA x, 8, 0⟩
    s.blockOn (.sigw key x.d x.f.toNat w)).next

/-- An item as it lands: x | y << 32 (R299). -/
def itemWord (cx k : Nat) : Word := BitVec.ofNat 64 (k % cx + (k / cx) * 2 ^ 32)

/-- The least number of a list, or none. -/
def least (l : List Nat) : Option Nat := l.min?

/-- The items a die holds in reserve of a launch (R299). -/
def Launch.reserveOf (l : Launch) (die : Nat) : List Nat := ((l.reserve.filter fun r => r.1 == die).map (·.2)).flatten

/-- Change a die's reserve. -/
def Launch.setReserve (l : Launch) (die : Nat) (r : List Nat) : Launch :=
  { l with reserve := (l.reserve.filter fun e => e.1 != die) ++ [(die, r)] }

/-- NEXT (R299): the lowest item of the die's reserve, or the null value when everything is taken. -/
def State.drawItem (s : State) : State × Word :=
  match s.launch s.g.info.lid with
  | none => (s, BitVec.allOnes 64)
  | some l =>
    let r := l.reserveOf s.myDie
    match least r with
    | none => (s, BitVec.allOnes 64)
    | some k => (s.updLaunch l.info.lid fun l => l.setReserve s.myDie (r.erase k), itemWord l.cx k)

/-- NEXT (R299, R122). -/
def execNext (x : SR) (s : State) : Host.Outcome State Fault Refusal :=
  (s.run (.next x) fun s =>
    let (s, v) := s.drawItem
    s.land 24 [.queue s.cur.q x.d.toNat v]).next

end Sys2Proof.Machine
end

