-- ==== Sys2Proof/Machine/TimeOps.lean ====
section
/-! DEFINITION. The time instructions at issue (R305, R311 to R316), and the launch-wide trigger. -/

namespace Sys2Proof.Machine

/-- The trigger: deadline less budget, or 0 (R305). -/
def LInfo.trigger (l : LInfo) : Nat := l.deadline - l.budget

/-- TIME (R312). -/
def execTime (x : SR) (s : State) : Host.Outcome State Fault Refusal :=
  (s.run (.time x) fun s => s.landReg 4 x.d (BitVec.ofNat 64 (s.now s.myDie))).next

/-- The slack a gang sees (R312). -/
def State.slackWord (s : State) (trig : Bool) : Word :=
  if !s.g.info.dline then 0x7FFFFFFFFFFFFFFF
  else wordOf (((if trig then s.g.info.trigger else s.g.info.deadline) : Int) - s.now s.myDie)

/-- SLACK (R312). -/
def execSlack (x : SR) (s : State) : Host.Outcome State Fault Refusal :=
  (s.run (.slack x) fun s => s.landReg 4 x.d (s.slackWord (x.f == 1))).next

/-- PROG (R313). -/
def execProg (x : SR) (s : State) : Host.Outcome State Fault Refusal :=
  (s.run (.prog x) fun s => s.tokened x.f 0 (.prog ((s.srA x).toNat % 2 ^ 32))).next

/-- VSET (R314): one 8-byte atomic, or nothing when there is no such bit. -/
def execVset (x : SR) (s : State) : Host.Outcome State Fault Refusal :=
  (s.run (.vset x) fun s =>
    match s.bitmapWord (s.srA x) with
    | none => s.tokened x.f x.d .vsetNone
    | some a =>
      let k : AccKind := .vset ((s.srA x).toNat % 64) ((s.srB x).getLsbD 0)
      s.issueAcc ⟨x.d, 0, 0, 3, x.f, 0⟩ ⟨a, 8, 2⟩ k).next

/-- ECOMMIT (R315). -/
def execEcommit (x : SR) (s : State) : Host.Outcome State Fault Refusal :=
  (s.run (.ecommit x) fun s => s.tokened x.f x.d (.ecommit s.g.sealed)).next

/-- A gang that is asked to enter its endgame (R306, R307, R316): it drains, or it is marked when a pre-emption drains it,
when it is in SYS mode, frozen or away from a slot. One that is in its endgame, ending or stopped is not affected. -/
def Gang.askEndgame (g : Gang) (reason : Nat) : Gang :=
  if g.egReason ≠ 0 ∨ g.stopping ∨ g.halted ∨ g.egMark.isSome then g
  else match g.drain with
    | .endgame _ => g
    | .stop => g
    | .none =>
      if g.place.running && !g.inSys && !g.frozen then { g with drain := .endgame reason } else { g with egMark := some reason }
    | _ => { g with egMark := some reason }

/-- The trigger of a launch passes on some dies (R306, R316): on them its running instances drain, and no further instance
is taken anywhere. `all` is the launch-wide ENDG, which acts on swapped-out instances too. -/
def State.passTrigger (s : State) (lid : Nat) (reason : Nat) (all : Bool) (dies : List Nat) : State :=
  let s := s.updLaunch lid fun l =>
    let n := l.info.nx * l.info.ny * l.info.nz * l.info.stages
    { l with
      trig := (l.trig ++ dies).eraseDups, trigAll := l.trigAll || all, taken := n,
      tally := { l.tally with never := l.tally.never + (n - l.taken) } }
  s.mapGangs fun g =>
    if g.info.lid = lid ∧ (all ∨ dies.contains g.place.die ∨ !g.place.running) then g.askEndgame reason else g

/-- The primary's ENDG stops a fragment at its next boundary without a pending delay bundle, in a loop of its own too
(R316). -/
def Seq.cutShort (x : Seq) : Seq :=
  match x.xfer with
  | none => { x with frames := x.frames.filter (·.copied) }
  | some t => { x with xfer := some { t with after := if t.after = .endFragment then .endFragment else .dropFrames } }

/-- The bundle that issues is the drain point of an endgame with a reason. A gang that a pre-emption drains is swapped out
first, marked (R307). -/
def Gang.endgameHere (g : Gang) (r : Nat) : Gang :=
  let q1 := if g.split then g.q1.cutShort else g.q1
  let g := { g with q0 := { g.q0 with frames := [], atDrain := true }, q1 := q1 }
  match g.drain with
  | .preempt _ _ => { g with egMark := some r }
  | .suspend _ _ => { g with egMark := some r }
  | _ => { g with drain := .endgame r }

/-- ENDG (R316): every frame is discarded, the bundle is the drain point, and with f = 1 the rest of the launch follows. -/
def execEndg (x : SR) (s : State) : Host.Outcome State Fault Refusal :=
  (s.run (.endg x) fun s =>
    let r := if x.f = 1 then 3 else 2
    let s := s.updG fun g => g.endgameHere r
    (if x.f = 1 then s.passTrigger s.g.info.lid 3 true (List.range 4) else s).doneHere).next

end Sys2Proof.Machine
end

