-- ==== Sys2Proof/Machine/System.lean ====
section
/-! DEFINITION. The system instructions at issue (R319 to R344). -/

namespace Sys2Proof.Machine

/-- TRAP (R328): its bundle issues in full, then the gang traps at the head of the bundle that would have issued next. -/
def execTrap (x : SI) (s : State) : Host.Outcome State Fault Refusal :=
  (s.run (.trap x) fun s =>
    let e : Exc := ⟨.trap, s.operand x.a + x.imm.setWidth 64, 0⟩
    let t := s.finish
    t.trapNext s.cur.q e).next

/-- TRET (R329): it waits for the SYS tokens and the handler's results; the return follows. -/
def execTret (x : SR) (s : State) : Host.Outcome State Fault Refusal :=
  (s.run (.tret x) fun s => (s.blockOn .tret).doneHere).next

/-- SYSR (R326): its point in the memory order comes with its landing. -/
def execSysr (x : SR) (s : State) : Host.Outcome State Fault Refusal :=
  (s.run (.sysr x) fun s => s.land 4 [.sysread s.cur.q x.d (s.srA x)]).next

/-- SYSW (R326). -/
def execSysw (x : SR) (s : State) : Host.Outcome State Fault Refusal :=
  (s.run (.sysw x) fun s => s.land 4 [.sysreg s.cur.q (s.srA x) (s.srB x)]).next

/-- TLBINV (R336). -/
def execTlbinv (x : SR) (s : State) : Host.Outcome State Fault Refusal :=
  (s.run (.tlbinv x) fun s => s.tokened x.f 0 (.tlbinv (s.srA x) (s.srB x) s.g.sealed)).next

/-- A page instruction with the key of its command block (R337). -/
def State.pageOp (s : State) (x : SR) (k : PageKind) : State :=
  let (s, key) := s.keyOf ⟨s.srA x, 64, 2⟩
  s.tokened x.f 0 (.pages k key 0)

/-- PGSHARE (R338). -/
def execPgshare (x : SR) (s : State) : Host.Outcome State Fault Refusal :=
  (s.run (.pgshare x) fun s => s.pageOp x .share).next

/-- PGUNMAP (R338). -/
def execPgunmap (x : SR) (s : State) : Host.Outcome State Fault Refusal :=
  (s.run (.pgunmap x) fun s => s.pageOp x .unmap).next

/-- PGCOW (R338). -/
def execPgcow (x : SR) (s : State) : Host.Outcome State Fault Refusal :=
  (s.run (.pgcow x) fun s => s.pageOp x .cow).next

/-- CONT (R334). -/
def execCont (x : SR) (s : State) : Host.Outcome State Fault Refusal :=
  (s.run (.cont x) fun s => s.land 1 [.contpc (s.srA x)]).next

/-- CRESUME's effect (R335): unpark, restore what the continuation held aside, and go back to the convergence point. -/
def State.resumeCont (s : State) (m : Lanes) : State :=
  match s.g.held with
  | none => s
  | some h =>
    let s := s.updG fun g => { g.unpark m with held := none }
    s.updG fun g => g.updSeq 0 fun q =>
      { q with ds := h.ds, frames := h.frames, exec := h.exec, pc := g.trapPc.toNat, atEnd := false, xfer := h.xfer }

/-- CRESUME (R335). -/
def execCresume (x : SR) (s : State) : Host.Outcome State Fault Refusal :=
  (s.run (.cresume x) fun s => (s.resumeCont ((s.srA x).setWidth 16)).doneHere).next

/-- PARKRD (R331). -/
def State.parkRead (s : State) (v : Nat) : Word :=
  if bit v 4 then BitVec.ofNat 64 (s.g.ring.length + (if s.g.ovf then 16 else 0))
  else match s.g.ring[v % 8]? with
    | none => 0
    | some r =>
      if bit v 3 then r.info else r.word0

/-- PARKRD (R331). -/
def execParkrd (x : SR) (s : State) : Host.Outcome State Fault Refusal :=
  (s.run (.parkrd x) fun s => s.landReg 8 x.d (s.parkRead (s.srA x).toNat)).next

/-- UNPARK (R333). -/
def execUnpark (x : SR) (s : State) : Host.Outcome State Fault Refusal :=
  (s.run (.unpark x) fun s => s.land 1 [.unpark ((s.srA x).setWidth 16 &&& s.g.pmask)]).next

/-- Ask a context to drain for SUSPEND; one that is draining to its endgame is marked for it (R307, R343). One that another
SUSPEND has asked already is to write both images. -/
def Gang.askSuspend (g : Gang) (now at_ : Nat) : Gang :=
  match g.drain with
  | .endgame r => { g with drain := .suspend now [at_], egMark := some r }
  | .suspend t l => { g with drain := .suspend t (l ++ [at_]) }
  | _ => { g with drain := .suspend now [at_] }

/-- SUSPEND (R343): the target drains, and its context goes to memory. -/
def execSuspend (x : SR) (s : State) : Host.Outcome State Fault Refusal :=
  (s.run (.suspend x) fun s =>
    let v := (s.srA x).toNat
    match s.targetOf (v % 64) (bits v 6 6) with
    | none => s
    | some t =>
      let a := (s.srB x).toNat
      let at_ := a + s.g.info.part * 2 ^ 64
      let now := s.now t.place.die
      let s := s.tokened x.f 0 (.suspend t.gid a)
      s.mapGangs fun g => if g.gid = t.gid then g.askSuspend now at_ else g).next

end Sys2Proof.Machine
end

