-- ==== Sys2Proof/Machine/Local.lean ====
section
/-! DEFINITION. The local scratchpad accesses (R151 to R153): TLD, TST, TLDK, LDE and STE. -/

namespace Sys2Proof.Machine

/-- Do something for each active lane, in increasing order. -/
def State.eachLane (s : State) (f : State → Nat → State) : State := s.actives.foldl f s

/-- The local offset: operand(s) + e(ta) (R151). -/
def State.localOff (s : State) (x : VS) (l : Nat) : Nat := (s.operand x.s + (s.g.lane l).es x.ta).toNat

/-- The fault of a local offset that must be a multiple of `align` and whose n bytes must lie in the allocation (R132,
R141, R151). -/
def State.localFault (s : State) (off align n : Nat) : Option (Cause × Word) :=
  if off % align ≠ 0 then some (.align, infoOf 1 (off % 2 ^ 56))
  else if !s.g.inAlloc off n then some (.prot, infoOf 5 (off % 2 ^ 56))
  else none

/-- n bytes of a lane's scratchpad at a local offset. -/
def State.localBytes (s : State) (l off n : Nat) : List Byte := s.mem.bytes (s.g.localKey l off) n

/-- A record tells of the unit at u. -/
def Unseen.covers (u : Nat) (x : Unseen) : Bool := decide (x.key ≤ u) && decide (u < x.key + x.old.length)

/-- Units in rising order as runs of bytes. -/
def unitRuns : List Nat → List (Nat × Nat)
  | [] => []
  | u :: us =>
    match unitRuns us with
    | (k, n) :: rs => if k = u + 8 then (u, n + 8) :: rs else (u, 8) :: (k, n) :: rs
    | [] => [(u, 8)]

/-- Keep what the units of n bytes hold before a local write of the gang in focus (R168), where the last write of the unit is
not one of its own that is kept already. -/
def State.noteLocal (s : State) (key n : Nat) : State :=
  let lo := key / 8 * 8
  let m := (key + n + 7) / 8 * 8 - lo
  let xs := s.unseen.filter fun x => !x.ring && overlaps lo m x.key x.old.length
  let own (x : Unseen) : Bool := x.gid == s.g.gid && x.pid.isNone && x.reach.isEmpty
  let us := ((List.range (m / 8)).map fun k => lo + 8 * k).filter fun u => !((xs.find? (Unseen.covers u)).any own)
  { s with unseen := ((unitRuns us).map fun r => ⟨s.g.gid, none, r.1, s.mem.bytes r.1 r.2, [], false⟩) ++ s.unseen }

/-- Write bytes to a lane's scratchpad at a local offset: the engine's own reads find them, and other agents the old bytes
or the new ones until the gang publishes (R168). -/
def State.localPut (s : State) (l off : Nat) (bs : List Byte) : State :=
  let key := s.g.localKey l off
  { s.noteLocal key bs.length with mem := s.mem.put key bs }

/-- The pitch of a tile in the scratchpad (R151). -/
def pitchOf (mod : BitVec 2) (bytes : Nat) : Nat := if mod = 1 then bytes else 128

/-- The rows of a tile read from the scratchpad, with a shape (R152). -/
def State.loadRows (s : State) (l off pitch : Nat) (m : Word) (shape : Nat × Nat) : List (Nat × List Byte) :=
  (maskRows m shape.1).map fun i => atRow i 0 (s.localBytes l (off + i * pitch) shape.2)

/-- TLD in one lane. -/
def State.tldLane (x : VS) (s : State) (l : Nat) : State :=
  let off := s.localOff x l
  let sh := (s.g.lane l).shape x.td
  let pitch := pitchOf x.mod sh.2
  match s.localFault off 64 (sh.1 * pitch) with
  | some (c, i) => s.park l c i
  | none => s.land 12 [tileLand l x.td (s.loadRows l off pitch ((s.g.lane l).mask x.k) sh) none]

/-- TST in one lane: the tile is read, and the bytes stand in the scratchpad, at issue (R152, R153). -/
def State.tstLane (x : VS) (s : State) (l : Nat) : State :=
  let off := s.localOff x l
  let sh := (s.g.lane l).shape x.td
  let pitch := pitchOf x.mod sh.2
  match s.localFault off 64 (sh.1 * pitch) with
  | some (c, i) => s.park l c i
  | none =>
    (maskRows ((s.g.lane l).mask x.k) sh.1).foldl
      (fun s i => s.localPut l (off + i * pitch) ((s.g.lane l).row x.td i 0 sh.2)) s

/-- A shape a tag can hold: 4 to 64 rows in steps of 4, 8 to 128 bytes in steps of 8 (R197). -/
def shapeOk (r b : Nat) : Bool :=
  decide (4 ≤ r) && decide (r ≤ 64) && decide (r % 4 = 0) && decide (8 ≤ b) && decide (b ≤ 128) && decide (b % 8 = 0)

/-- TLDK in one lane: alignment, header range, header, then the rows under its shape (R151, R152). -/
def State.tldkLane (x : VS) (s : State) (l : Nat) : State :=
  let off := s.localOff x l
  match s.localFault off 64 64 with
  | some (c, i) => s.park l c i
  | none =>
    let h := leValue (s.localBytes l off 8)
    let sh := (bits h 6 0, bits h 15 8)
    if !shapeOk sh.1 sh.2 ∨ bits h 63 16 ≠ 0 ∨ bit h 7 then s.park l .shape (infoOf 0x06 (h % 2 ^ 56))
    else
      let pitch := pitchOf x.mod sh.2
      match s.localFault off 64 (64 + sh.1 * pitch) with
      | some (c, i) => s.park l c i
      | none =>
        s.land 12 [tileLand l x.td (s.loadRows l (off + 64) pitch ((s.g.lane l).mask x.k) sh) (some sh)]

/-- LDE in one lane. -/
def State.ldeLane (x : VS) (s : State) (l : Nat) : State :=
  let off := s.localOff x l
  let sz := 2 ^ x.mod.toNat
  match s.localFault off sz sz with
  | some (c, i) => s.park l c i
  | none =>
    let v := leValue (s.localBytes l off sz)
    s.land 8 [.esc l x.td (if x.fs.getLsbD 0 then wordOf (sextNat v (8 * sz)) else BitVec.ofNat 64 v)]

/-- STE in one lane. -/
def State.steLane (x : VS) (s : State) (l : Nat) : State :=
  let off := s.localOff x l
  let sz := 2 ^ x.mod.toNat
  match s.localFault off sz sz with
  | some (c, i) => s.park l c i
  | none => s.localPut l off (leBytes sz ((s.g.lane l).es x.td).toNat)

/-- TLD (R152). -/
def execTld (x : VS) (s : State) : Host.Outcome State Fault Refusal :=
  (s.run (.tld x) fun s => s.eachLane (State.tldLane x)).next

/-- TST (R152). -/
def execTst (x : VS) (s : State) : Host.Outcome State Fault Refusal :=
  (s.run (.tst x) fun s => s.eachLane (State.tstLane x)).next

/-- TLDK (R152). -/
def execTldk (x : VS) (s : State) : Host.Outcome State Fault Refusal :=
  (s.run (.tldk x) fun s => s.eachLane (State.tldkLane x)).next

/-- LDE (R152). -/
def execLde (x : VS) (s : State) : Host.Outcome State Fault Refusal :=
  (s.run (.lde x) fun s => s.eachLane (State.ldeLane x)).next

/-- STE (R152). -/
def execSte (x : VS) (s : State) : Host.Outcome State Fault Refusal :=
  (s.run (.ste x) fun s => s.eachLane (State.steLane x)).next

end Sys2Proof.Machine
end

