-- ==== Sys2Proof/Machine/EngMem.lean ====
section
/-! DEFINITION. The engine global accesses at issue (R149, R150): one part per active engine, with its scalars read. -/

namespace Sys2Proof.Machine

/-- The bytes of GLD and GST: 8, 64, 256 or 1,024 (R149). -/
def gldLen (mod : BitVec 2) : Nat :=
  match mod.toNat with
  | 0 => 8
  | 1 => 64
  | 2 => 256
  | _ => 1024

/-- Issue an engine global access: every active engine has a part; with none, the token clears in the next cycle (R42). -/
def State.engine (s : State) (x : XF) (f : Nat → EngKind × Word) : State :=
  let (n, s) := s.takeTicket
  match s.actives with
  | [] => (s.raise x.tok).land 1 [.token s.cur.q s.g.inSys x.tok]
  | ls =>
    ls.foldl (fun s l =>
      let k := f l
      (s.raise x.tok).updG fun g =>
        { g with loaded := true, eng := g.eng ++ [⟨n, s.cur.q, x.tok, l, s.cur.slot, s.cur.head, k.1, k.2, []⟩] }) s

/-- eN of a lane. -/
def State.engScalar (s : State) (x : XF) (l : Nat) : Word := (s.g.lane l).es (x.b.setWidth 4)

/-- e(N+1) of a lane. -/
def State.engScalar1 (s : State) (x : XF) (l : Nat) : Word := (s.g.lane l).es (x.b.setWidth 4 + 1)

/-- The address of GLD and GST: A + sext(eN[63:20], 44). -/
def State.gldAddr (s : State) (x : XF) (l : Nat) : Word :=
  s.operand x.a + wordOf (sextNat (bits (s.engScalar x l).toNat 63 20) 44)

/-- GLD (R149). -/
def execGld (x : XF) (s : State) : Host.Outcome State Fault Refusal :=
  (s.run (.gld x) fun s => s.engine x fun l =>
    (.gld (gldLen x.mod) (bits (s.engScalar x l).toNat 19 0), s.gldAddr x l)).next

/-- GST (R149). What its bytes hold at issue is kept, for one that a local write changes before the part completes
(R150). -/
def execGst (x : XF) (s : State) : Host.Outcome State Fault Refusal :=
  (s.run (.gst x) fun s => s.engine x fun l =>
    let off := bits (s.engScalar x l).toNat 19 0
    (.gst (gldLen x.mod) off (s.localBytes l off (gldLen x.mod)), s.gldAddr x l)).next

/-- GLDE (R149). -/
def execGlde (x : XF) (s : State) : Host.Outcome State Fault Refusal :=
  (s.run (.glde x) fun s => s.engine x fun l =>
    (.glde (x.b.setWidth 4) (2 ^ x.mod.toNat), s.operand x.a + s.engScalar x l)).next

/-- GSTE (R149). -/
def execGste (x : XF) (s : State) : Host.Outcome State Fault Refusal :=
  (s.run (.gste x) fun s => s.engine x fun l =>
    (.gste (2 ^ x.mod.toNat) (s.engScalar x l), s.operand x.a + s.engScalar1 x l)).next

/-- GAMO (R149). -/
def execGamo (x : XF) (s : State) : Host.Outcome State Fault Refusal :=
  (s.run (.gamo x) fun s => s.engine x fun l =>
    (.gamo (x.b.setWidth 4) x.mod.toNat (s.engScalar x l), s.operand x.a + s.engScalar1 x l)).next

end Sys2Proof.Machine
end

