-- ==== Sys2Proof/Machine/Special.lean ====
section
/-! DEFINITION. The special functions of R205, correctly rounded: exact values where the function has one, and otherwise
integer bounds of growing precision until both bounds encode alike. -/

namespace Sys2Proof.Machine

/-- A value to encode: an exact one, or bounds (the true value lies strictly between them and is not representable). -/
inductive Bounds where
  | exact (x : Formed)
  | between (lo hi : Val)
  deriving DecidableEq, Repr

/-- n / d rounded up. -/
def ceilDiv (n d : Nat) : Nat := (n + d - 1) / d

/-- Taylor terms of e^y for y = yn / 2^p, every division rounded down: a lower bound times 2^p. -/
def expLower (p yn : Nat) : Nat → Nat → Nat → Nat → Nat
  | 0, _, _, acc => acc
  | n + 1, i, t, acc =>
    let t := t * yn / (2 ^ p * i)
    expLower p yn n (i + 1) t (acc + t)

/-- The same rounded up, with twice the last term for the rest of the series: an upper bound times 2^p. -/
def expUpper (p yn : Nat) : Nat → Nat → Nat → Nat → Nat
  | 0, _, t, acc => acc + 2 * t + 1
  | n + 1, i, t, acc =>
    let t := ceilDiv (t * yn) (2 ^ p * i)
    expUpper p yn n (i + 1) t (acc + t)

/-- Terms enough for an argument below 2^k at p bits. -/
def expTerms (p yn : Nat) : Nat := p + 4 * (yn / 2 ^ p) + 8

/-- Bounds of e^y times 2^p, for y between two multiples of 2^-p. -/
def expBounds (p ylo yhi : Nat) : Nat × Nat :=
  (expLower p ylo (expTerms p yhi) 1 (2 ^ p) (2 ^ p), expUpper p yhi (expTerms p yhi) 1 (2 ^ p) (2 ^ p))

/-- Terms of atanh z for z = zn / 2^p: the sum of z^(2i+1) / (2i+1), rounded down. -/
def atanhLower (p zn : Nat) : Nat → Nat → Nat → Nat → Nat
  | 0, _, _, acc => acc
  | n + 1, i, t, acc => atanhLower p zn n (i + 2) (t * zn / 2 ^ p * zn / 2 ^ p) (acc + t / i)

/-- The same rounded up, with twice the last term for the rest. -/
def atanhUpper (p zn : Nat) : Nat → Nat → Nat → Nat → Nat
  | 0, _, t, acc => acc + 2 * t + 1
  | n + 1, i, t, acc => atanhUpper p zn n (i + 2) (ceilDiv (ceilDiv (t * zn) (2 ^ p) * zn) (2 ^ p)) (acc + ceilDiv t i)

/-- Bounds of ln x times 2^p, for x = n / d from 1 to 2. -/
def lnBounds (p n d : Nat) : Nat × Nat :=
  let lo := (n - d) * 2 ^ p / (n + d)
  let hi := ceilDiv ((n - d) * 2 ^ p) (n + d)
  (2 * atanhLower p lo p 1 lo 0, 2 * atanhUpper p hi p 1 hi 0)

/-- Bounds of ln 2 times 2^p. -/
def ln2Bounds (p : Nat) : Nat × Nat := lnBounds p 2 1

/-- n * 2^e as a value. -/
def natVal (neg : Bool) (n : Nat) (e : Int) : Val := if n = 0 then .zero neg else .num (if neg then -n else n) e 1

/-- n / d as a value. -/
def fracVal (neg : Bool) (n d : Nat) : Val := if n = 0 then .zero neg else .num (if neg then -n else n) 0 d

/-- floor and remainder of m * 2^e as an integer part and a fraction over 2^f. -/
def splitReal (m e : Int) : Int × Nat × Nat :=
  if 0 ≤ e then (m * 2 ^ e.toNat, 0, 0) else
  let f := (-e).toNat
  (m / 2 ^ f, (m % 2 ^ f).toNat, f)

/-- 2^a. -/
def exp2B (p : Nat) (m e : Int) : Bounds :=
  if 12 ≤ expOf m e 1 then
    if e < 0 ∧ m % 2 ^ (-e).toNat ≠ 0 then
      let r := Val.num 1 (if m < 0 then -4096 else 4096) 1
      .between r r
    else .exact (.num 1 (if m < 0 then -4096 else 4096) 1, 0)
  else
    let (n, r, f) := splitReal m e
    if r = 0 then .exact (.num 1 n 1, 0)
    else
      let (llo, lhi) := ln2Bounds p
      let (lo, hi) := expBounds p (llo * r / 2 ^ f) (ceilDiv (lhi * r) (2 ^ f))
      .between (natVal false lo (n - p)) (natVal false hi (n - p))

/-- log2 a for a above 0. -/
def log2B (p : Nat) (m e : Int) : Bounds :=
  let k := expOf m e 1
  let n := m.natAbs
  let d := 2 ^ Nat.log2 n
  if n = d then .exact (.ofInt k, 0)
  else
    let (xlo, xhi) := lnBounds p n d
    let (llo, lhi) := ln2Bounds p
    let lo : Int := k * 2 ^ p + ((xlo * 2 ^ p / lhi : Nat) : Int)
    let hi : Int := k * 2 ^ p + ((ceilDiv (xhi * 2 ^ p) llo : Nat) : Int)
    let v (i : Int) : Val := if i = 0 then .zero false else .num i (-(p : Int)) 1
    .between (v lo) (v hi)

/-- 1 / sqrt a and sqrt a: n * 2^e with e made even, at p bits; when the root is not exact, the odd number between the
two neighbours. -/
def rootB (p : Nat) (num den : Nat) (e : Int) : Bounds :=
  let (num, e) := if e % 2 = 0 then (num, e) else (2 * num, e - 1)
  let big := num * 2 ^ (2 * p) / den
  let r := Nat.sqrt big
  if r * r * den = num * 2 ^ (2 * p) then .exact (.num r (e / 2 - p) 1, 0)
  else
    let v := Val.num (2 * r + 1) (e / 2 - p - 1) 1
    .between v v

/-- tanh a for a above 0. -/
def tanhB (p : Nat) (m e : Int) : Val × Val :=
  let a := Val.num m e 1
  let cube := ((a.mul a).1.mul a).1
  if expOf m e 1 < -40 then
    ((a.sub 0 (cube.div (.ofInt 3)).1).1, (a.sub 0 (cube.div (.ofInt 4)).1).1)
  else if 6 ≤ expOf m e 1 then
    let v := Val.num (2 ^ 111 - 1) (-111) 1
    (v, v)
  else
    let (n, k) := scaled m (e + 1) 1 (-(p : Int))
    let (lo, hi) := expBounds p (n / k) (ceilDiv n k)
    (fracVal false (lo - 2 ^ p) (lo + 2 ^ p), fracVal false (hi - 2 ^ p) (hi + 2 ^ p))

/-- 1 / (1 + e^-a). -/
def sigmB (p : Nat) (m e : Int) : Val × Val :=
  let neg := decide (m < 0)
  if expOf m e 1 < -40 then
    let v := Val.num (2 ^ 60 + (if neg then -1 else 1)) (-61) 1
    (v, v)
  else if 9 ≤ expOf m e 1 then
    let v := if neg then Val.num 1 (-700) 1 else Val.num (2 ^ 111 - 1) (-111) 1
    (v, v)
  else
    let (n, k) := scaled m e 1 (-(p : Int))
    let (lo, hi) := expBounds p (n / k) (ceilDiv n k)
    if neg then (fracVal false (2 ^ p) (hi + 2 ^ p), fracVal false (2 ^ p) (lo + 2 ^ p))
    else (fracVal false lo (lo + 2 ^ p), fracVal false hi (hi + 2 ^ p))

/-- The seven functions, in the order of their opcodes 0x0B to 0x11: bounds at p bits (R205). -/
def specialB (fn p : Nat) (x : Val) : Bounds :=
  match fn, x with
  | _, .nan => .exact (.nan, 0)
  | 0, .inf n => .exact (if n then .zero false else .inf false, 0)
  | 0, .zero _ => .exact (.ofInt 1, 0)
  | 0, .num m e _ => exp2B p m e
  | 1, .inf n => .exact (if n then (.nan, fInvalid) else (.inf false, 0))
  | 1, .zero _ => .exact (.inf true, fDivzero)
  | 1, .num m e _ => if m < 0 then .exact (.nan, fInvalid) else log2B p m e
  | 2, x => .exact ((Val.ofInt 1).div x)
  | 3, .inf n => .exact (if n then (.nan, fInvalid) else (.zero false, 0))
  | 3, .zero n => .exact (.inf n, fDivzero)
  | 3, .num m e _ => if m < 0 then .exact (.nan, fInvalid) else rootB (p + 32) 1 m.natAbs (-e)
  | 4, .inf n => .exact (if n then (.nan, fInvalid) else (.inf false, 0))
  | 4, .zero n => .exact (.zero n, 0)
  | 4, .num m e _ => if m < 0 then .exact (.nan, fInvalid) else rootB p m.natAbs 1 e
  | 5, .inf n => .exact (.ofInt (if n then -1 else 1), 0)
  | 5, .zero n => .exact (.zero n, 0)
  | 5, .num m e _ =>
    if m < 0 then
      let (lo, hi) := tanhB p (-m) e
      .between hi.negate lo.negate
    else
      let (lo, hi) := tanhB p m e
      .between lo hi
  | _, .inf n => .exact (if n then .zero false else .ofInt 1, 0)
  | _, .zero _ => .exact (.num 1 (-1) 1, 0)
  | _, .num m e _ =>
    let (lo, hi) := sigmB p m e
    .between lo hi

/-- Encode with growing precision until the bounds agree; a value that no bound decides is left open. -/
def specialTry (fn elem : Nat) (f : Word) (x : Val) (raw : Nat) : List Nat → Nat × FlagBits
  | [] => (Config.specialRest fn elem (fRmode f) raw, fInexact)
  | p :: ps =>
    match specialB fn p x with
    | .exact v => encodeFormed elem f v
    | .between lo hi =>
      let a := encodeFloat elem f lo true
      let b := encodeFloat elem f hi true
      if a = b then a else specialTry fn elem f x raw ps

/-- A special function of an element, encoded once (R205). -/
def special (fn : Nat) (f : Word) (raw : Nat) : Nat × FlagBits :=
  specialTry fn (fElem f) f (decodeF f raw) raw [96, 192, 384, 768]

end Sys2Proof.Machine
end

