-- ==== Sys2Proof/Machine/Tile.lean ====
section
/-! DEFINITION. The elementwise tile class (R197 to R209): operating shapes, computed positions, float, integer and
bitwise operations, conversion, moves, transposition and shapes. -/

namespace Sys2Proof.Machine

/-- The operating shape over the tiles named as sources (R198). -/
def Lane.operating (l : Lane) (ts : List (BitVec 4)) : Nat × Nat :=
  ((ts.map l.rows).foldl min 64, (ts.map l.rowBytes).foldl min 128)

/-- The OR of the flags raised by a list of results. -/
def orFlags (rs : List (Nat × FlagBits)) : FlagBits := rs.foldl (fun a r => a ||| r.2) 0

/-- Land rows of a tile with its new shape and the flags raised (R199, R201). -/
def State.landTile (s : State) (lat l : Nat) (td : BitVec 4) (rows : List (Nat × List Byte))
    (shape : Option (Nat × Nat)) (fl : FlagBits) : State :=
  s.land lat ([tileLand l td rows shape] ++ if fl = 0 then [] else [.flags l fl])

/-- An elementwise operation in one lane over the raw elements of ta, tb and td (R199, R202): `srcs` are the tiles that
take part in the operating shape. -/
def State.mapTile (s : State) (lat w : Nat) (td ta tb : BitVec 4) (k : BitVec 3) (srcs : List (BitVec 4))
    (f : Nat → Nat → Nat → Nat × FlagBits) (l : Nat) : State :=
  let e := s.g.lane l
  let sh := e.operating srcs
  let res := (maskRows (e.mask k) sh.1).map fun i =>
    let ab := (e.rowElems w ta i sh.2).zip (e.rowElems w tb i sh.2)
    (i, List.zipWith (fun p d => f p.1 p.2 d) ab (e.rowElems w td i sh.2))
  s.landTile lat l td (res.map fun r => atRow r.1 0 (bytesOfElems w (r.2.map (·.1)))) (some sh)
    (res.foldl (fun a r => a ||| orFlags r.2) 0)

/-- An elementwise VT instruction on every active lane. -/
def State.tileOp (s : State) (i : Instr) (x : VT) (lat : Nat) (srcs : List (BitVec 4))
    (f : Word → Nat → Nat → Nat → Nat × FlagBits) : State :=
  s.run i fun s =>
    let d := s.fmt x.fs
    s.eachLane fun s l => s.mapTile lat (widthOf (fElem d)) x.td x.ta x.tb x.k srcs (f d) l

/-- The same for a VS instruction, with the scalar v that every engine receives (R203). -/
def State.tileOpS (s : State) (i : Instr) (x : VS) (lat : Nat) (f : Word → Val → Nat → Nat × FlagBits) : State :=
  s.run i fun s =>
    let d := s.fmt x.fs
    let v := decodeElem 0 false ((s.operand x.s).toNat % 2 ^ 32)
    s.eachLane fun s l =>
      s.mapTile lat (widthOf (fElem d)) x.td x.ta x.ta x.k [x.ta] (fun a _ _ => f d v a) l

/-- Encode a formed value under a descriptor. -/
def enc (d : Word) (x : Formed) : Nat × FlagBits := encodeFormed (fElem d) d x

/-- A float operation of one operand. -/
def un (f : Val → Formed) (d : Word) (a _b _c : Nat) : Nat × FlagBits := enc d (f (decodeF d a))

/-- A float or integer operation of two operands, with the rounding mode. -/
def bin (f : Nat → Val → Val → Formed) (d : Word) (a b _c : Nat) : Nat × FlagBits :=
  enc d (f (fRmode d) (decodeF d a) (decodeF d b))

/-- An operation of three operands. -/
def tern (f : Nat → Val → Val → Val → Formed) (d : Word) (a b c : Nat) : Nat × FlagBits :=
  enc d (f (fRmode d) (decodeF d a) (decodeF d b) (decodeF d c))

/-- A raw bit result of w bits. -/
def rawBits (f : Nat → Nat → Nat → Nat) (d : Word) (a b _c : Nat) : Nat × FlagBits :=
  (f (widthOf (fElem d)) a b % 2 ^ widthOf (fElem d), 0)

/-- The conditions of TCMP and KCMP (R204). -/
def valCond (c : Nat) (a b : Val) : Bool :=
  match c with
  | 0 => a.eqv b
  | 1 => !a.eqv b
  | 2 => a.lt b
  | 3 => a.lt b || a.eqv b
  | 4 => b.lt a
  | 5 => b.lt a || a.eqv b
  | 6 => !a.isNan && !b.isNan
  | _ => a.isNan || b.isNan

/-- The lesser or greater of two integer elements, as raw bits (R206). -/
def pickInt (greater : Bool) (d : Word) (a b _c : Nat) : Nat × FlagBits :=
  (if (decodeF d a).lt (decodeF d b) = greater then b else a, 0)

/-- An arithmetic right shift of w raw bits (R206). -/
def sarBits (w a b : Nat) : Nat := (sextNat a w / 2 ^ (b % w) % 2 ^ w).toNat

/-- TADD (R202). -/
def execTadd (x : VT) (s : State) : Host.Outcome State Fault Refusal :=
  (s.tileOp (.tadd x) x 6 [x.ta, x.tb] (bin Val.add)).next

/-- TSUB (R202). -/
def execTsub (x : VT) (s : State) : Host.Outcome State Fault Refusal :=
  (s.tileOp (.tsub x) x 6 [x.ta, x.tb] (bin Val.sub)).next

/-- TMUL (R202). -/
def execTmul (x : VT) (s : State) : Host.Outcome State Fault Refusal :=
  (s.tileOp (.tmul x) x 8 [x.ta, x.tb] (bin fun _ a b => a.mul b)).next

/-- TFMA (R202: a × b + d, rounded once). -/
def execTfma (x : VT) (s : State) : Host.Outcome State Fault Refusal :=
  (s.tileOp (.tfma x) x 8 [x.ta, x.tb, x.td] (tern fun r a b d => sumFormed r [a.mul b, (d, 0)])).next

/-- TFMS (R202: d − a × b, rounded once). -/
def execTfms (x : VT) (s : State) : Host.Outcome State Fault Refusal :=
  (s.tileOp (.tfms x) x 8 [x.ta, x.tb, x.td] (tern fun r a b d => sumFormed r [(d, 0), a.negate.mul b])).next

/-- TMIN (R204). -/
def execTmin (x : VT) (s : State) : Host.Outcome State Fault Refusal :=
  (s.tileOp (.tmin x) x 6 [x.ta, x.tb] (bin fun _ a b => (a.min2 b, 0))).next

/-- TMAX (R204). -/
def execTmax (x : VT) (s : State) : Host.Outcome State Fault Refusal :=
  (s.tileOp (.tmax x) x 6 [x.ta, x.tb] (bin fun _ a b => (a.max2 b, 0))).next

/-- TABS (R202). -/
def execTabs (x : VT) (s : State) : Host.Outcome State Fault Refusal :=
  (s.tileOp (.tabs x) x 6 [x.ta] (un fun a => (a.abs, 0))).next

/-- TNEG (R202). -/
def execTneg (x : VT) (s : State) : Host.Outcome State Fault Refusal :=
  (s.tileOp (.tneg x) x 6 [x.ta] (un fun a => (a.negate, 0))).next

/-- TSCL (R203). -/
def execTscl (x : VS) (s : State) : Host.Outcome State Fault Refusal :=
  (s.tileOpS (.tscl x) x 8 fun d v a => enc d ((decodeF d a).mul v)).next

/-- TADDS (R203). -/
def execTadds (x : VS) (s : State) : Host.Outcome State Fault Refusal :=
  (s.tileOpS (.tadds x) x 6 fun d v a => enc d ((decodeF d a).add (fRmode d) v)).next

/-- TEXP2 (R205). -/
def execTexp2 (x : VT) (s : State) : Host.Outcome State Fault Refusal :=
  (s.tileOp (.texp2 x) x 14 [x.ta] fun d a _ _ => special 0 d a).next

/-- TLOG2 (R205). -/
def execTlog2 (x : VT) (s : State) : Host.Outcome State Fault Refusal :=
  (s.tileOp (.tlog2 x) x 14 [x.ta] fun d a _ _ => special 1 d a).next

/-- TRCP (R205). -/
def execTrcp (x : VT) (s : State) : Host.Outcome State Fault Refusal :=
  (s.tileOp (.trcp x) x 14 [x.ta] fun d a _ _ => special 2 d a).next

/-- TRSQ (R205). -/
def execTrsq (x : VT) (s : State) : Host.Outcome State Fault Refusal :=
  (s.tileOp (.trsq x) x 14 [x.ta] fun d a _ _ => special 3 d a).next

/-- TSQRT (R205). -/
def execTsqrt (x : VT) (s : State) : Host.Outcome State Fault Refusal :=
  (s.tileOp (.tsqrt x) x 14 [x.ta] fun d a _ _ => special 4 d a).next

/-- TTANH (R205). -/
def execTtanh (x : VT) (s : State) : Host.Outcome State Fault Refusal :=
  (s.tileOp (.ttanh x) x 14 [x.ta] fun d a _ _ => special 5 d a).next

/-- TSIGM (R205). -/
def execTsigm (x : VT) (s : State) : Host.Outcome State Fault Refusal :=
  (s.tileOp (.tsigm x) x 14 [x.ta] fun d a _ _ => special 6 d a).next

/-- TCMP (R204). -/
def execTcmp (x : VT) (s : State) : Host.Outcome State Fault Refusal :=
  (s.tileOp (.tcmp x) x 6 [x.ta, x.tb] fun d a b _ =>
    (if valCond x.mod.toNat (decodeF d a) (decodeF d b) then 2 ^ widthOf (fElem d) - 1 else 0, 0)).next

/-- TSEL (R204). -/
def execTsel (x : VT) (s : State) : Host.Outcome State Fault Refusal :=
  (s.tileOp (.tsel x) x 6 [x.ta, x.tb, x.td] fun _ a b c => (if c ≠ 0 then a else b, 0)).next

/-- TCLAMP (R202, R204). -/
def execTclamp (x : VT) (s : State) : Host.Outcome State Fault Refusal :=
  (s.tileOp (.tclamp x) x 6 [x.ta, x.tb, x.td] (tern fun _ a b d => ((a.max2 d).min2 b, 0))).next

/-- TIADD (R206). -/
def execTiadd (x : VT) (s : State) : Host.Outcome State Fault Refusal :=
  (s.tileOp (.tiadd x) x 6 [x.ta, x.tb] (bin Val.add)).next

/-- TISUB (R206). -/
def execTisub (x : VT) (s : State) : Host.Outcome State Fault Refusal :=
  (s.tileOp (.tisub x) x 6 [x.ta, x.tb] (bin Val.sub)).next

/-- TIMUL (R206). -/
def execTimul (x : VT) (s : State) : Host.Outcome State Fault Refusal :=
  (s.tileOp (.timul x) x 8 [x.ta, x.tb] (bin fun _ a b => a.mul b)).next

/-- TAND (R206). -/
def execTand (x : VT) (s : State) : Host.Outcome State Fault Refusal :=
  (s.tileOp (.tand x) x 6 [x.ta, x.tb] (rawBits fun _ a b => a &&& b)).next

/-- TOR (R206). -/
def execTor (x : VT) (s : State) : Host.Outcome State Fault Refusal :=
  (s.tileOp (.tor x) x 6 [x.ta, x.tb] (rawBits fun _ a b => a ||| b)).next

/-- TXOR (R206). -/
def execTxor (x : VT) (s : State) : Host.Outcome State Fault Refusal :=
  (s.tileOp (.txor x) x 6 [x.ta, x.tb] (rawBits fun _ a b => a ^^^ b)).next

/-- TSHL (R206). -/
def execTshl (x : VT) (s : State) : Host.Outcome State Fault Refusal :=
  (s.tileOp (.tshl x) x 6 [x.ta, x.tb] (rawBits fun w a b => a <<< (b % w))).next

/-- TSHR (R206). -/
def execTshr (x : VT) (s : State) : Host.Outcome State Fault Refusal :=
  (s.tileOp (.tshr x) x 6 [x.ta, x.tb] (rawBits fun w a b => a >>> (b % w))).next

/-- TSAR (R206). -/
def execTsar (x : VT) (s : State) : Host.Outcome State Fault Refusal :=
  (s.tileOp (.tsar x) x 6 [x.ta, x.tb] (rawBits sarBits)).next

/-- TIMIN (R206). -/
def execTimin (x : VT) (s : State) : Host.Outcome State Fault Refusal :=
  (s.tileOp (.timin x) x 6 [x.ta, x.tb] (pickInt false)).next

/-- TIMAX (R206). -/
def execTimax (x : VT) (s : State) : Host.Outcome State Fault Refusal :=
  (s.tileOp (.timax x) x 6 [x.ta, x.tb] (pickInt true)).next

/-- TCVT in one lane (R207): fs is the destination slot, tb[2:0] the source slot and mod the part. -/
def State.cvtLane (x : VT) (s : State) (l : Nat) : State :=
  let e := s.g.lane l
  let fd := s.fmt x.fs
  let fsrc := s.fmt (x.tb.setWidth 3)
  let ws := widthOf (fElem fsrc)
  let wd := widthOf (fElem fd)
  let g := 1024 / wd
  let c := x.mod.toNat
  let n := e.rowBytes x.ta * 8 / ws
  let m := min (n - c * g) g
  let outB := if m = 0 then 8 else 8 * ((m * wd + 63) / 64)
  let res := (maskRows (e.mask x.k) (e.rows x.ta)).map fun i =>
    (i, (((e.rowElems ws x.ta i (e.rowBytes x.ta)).drop (c * g)).take m).map fun b =>
      encodeF (fElem fd) fd (decodeF fsrc b))
  let pad (bs : List Byte) : List Byte := (bs ++ List.replicate outB 0).take outB
  s.landTile 8 l x.td (res.map fun r => atRow r.1 0 (pad (bytesOfElems wd (r.2.map (·.1)))))
    (some (e.rows x.ta, outB)) (res.foldl (fun a r => a ||| orFlags r.2) 0)

/-- TCVT (R207). -/
def execTcvt (x : VT) (s : State) : Host.Outcome State Fault Refusal :=
  (s.run (.tcvt x) fun s => s.eachLane (State.cvtLane x)).next

/-- TMOV in one lane (R208). -/
def State.movLane (x : VT) (s : State) (l : Nat) : State :=
  let e := s.g.lane l
  let sh := e.shape x.ta
  s.landTile 6 l x.td ((maskRows (e.mask x.k) sh.1).map fun i => atRow i 0 (e.row x.ta i 0 sh.2)) (some sh) 0

/-- TMOV (R208). -/
def execTmov (x : VT) (s : State) : Host.Outcome State Fault Refusal :=
  (s.run (.tmov x) fun s => s.eachLane (State.movLane x)).next

/-- TZERO in one lane (R208). -/
def State.zeroLane (x : VT) (s : State) (l : Nat) : State :=
  let e := s.g.lane l
  let sh := e.shape x.td
  s.landTile 6 l x.td ((maskRows (e.mask x.k) sh.1).map fun i => atRow i 0 (List.replicate sh.2 0)) none 0

/-- TZERO (R208). -/
def execTzero (x : VT) (s : State) : Host.Outcome State Fault Refusal :=
  (s.run (.tzero x) fun s => s.eachLane (State.zeroLane x)).next

/-- TIOTA in one lane (R208). -/
def State.iotaLane (x : VT) (s : State) (l : Nat) : State :=
  let e := s.g.lane l
  let d := s.fmt x.fs
  let w := widthOf (fElem d)
  let sh := e.shape x.td
  let n := sh.2 * 8 / w
  let res := (maskRows (e.mask x.k) sh.1).map fun i =>
    (i, (List.range n).map fun j =>
      encodeF (fElem d) d (Val.ofInt ((if x.mod = 0 then j else if x.mod = 1 then i else i * n + j : Nat) : Int)))
  s.landTile 6 l x.td (res.map fun r => atRow r.1 0 (bytesOfElems w (r.2.map (·.1)))) none
    (res.foldl (fun a r => a ||| orFlags r.2) 0)

/-- TIOTA (R208). -/
def execTiota (x : VT) (s : State) : Host.Outcome State Fault Refusal :=
  (s.run (.tiota x) fun s => s.eachLane (State.iotaLane x)).next

/-- TTRN in one lane (R209): a result shape no tag can hold parks the engine. -/
def State.trnLane (x : VT) (s : State) (l : Nat) : State :=
  let e := s.g.lane l
  let w := widthOf (fElem (s.fmt x.fs))
  let sh := e.shape x.ta
  let n := sh.2 * 8 / w
  let b := sh.1 * w / 8
  if !shapeOk n b ∨ sh.1 * w % 8 ≠ 0 then s.park l .shape (infoOf 0x02 (sh.1 + n * 256))
  else
    s.landTile 20 l x.td ((maskRows (e.mask x.k) n).map fun j =>
      atRow j 0 (bytesOfElems w ((List.range sh.1).map fun i => e.elem w x.ta i j))) (some (n, b)) 0

/-- TTRN (R209). -/
def execTtrn (x : VT) (s : State) : Host.Outcome State Fault Refusal :=
  (s.run (.ttrn x) fun s => s.eachLane (State.trnLane x)).next

/-- SHAPE in one lane (R210, R211). -/
def State.shapeLane (x : VS) (s : State) (l : Nat) : State :=
  let v := (if x.mod = 0 then s.operand x.s else (s.g.lane l).es x.ta).toNat
  let sh := (bits v 6 0, bits v 15 8)
  if shapeOk sh.1 sh.2 then s.landTile 2 l x.td [] (some sh) 0
  else s.park l .shape (infoOf 0x01 (v % 2 ^ 16))

/-- SHAPE (R210). -/
def execShape (x : VS) (s : State) : Host.Outcome State Fault Refusal :=
  (s.run (.shape x) fun s => s.eachLane (State.shapeLane x)).next

/-- SHGET (R210). -/
def execShget (x : VT) (s : State) : Host.Outcome State Fault Refusal :=
  (s.run (.shget x) fun s => s.land 2 (s.actives.map fun l =>
    .esc l x.td (BitVec.ofNat 64 ((s.g.lane l).rows x.ta + (s.g.lane l).rowBytes x.ta * 256)))).next

end Sys2Proof.Machine
end

