-- ==== Sys2Proof/Machine/RowOps.lean ====
section
/-! DEFINITION. The row and column operations and the row masks of the tile class (R212 to R215). -/

namespace Sys2Proof.Machine

/-- Where the element or row at position j comes from (R212): rotated by v, or shifted, where a place outside the n there
are gives none. -/
def movedFrom (shift : Bool) (n : Nat) (v : Int) (j : Nat) : Option Nat :=
  let k : Int := (j : Int) - v
  if shift then (if k < 0 ∨ (n : Int) ≤ k then none else some k.toNat)
  else some (k % (n : Int)).toNat

/-- RROT in one lane. -/
def State.rrotLane (x : VS) (s : State) (l : Nat) : State :=
  let e := s.g.lane l
  let w := widthOf (fElem (s.fmt x.fs))
  let sh := e.shape x.ta
  let n := sh.2 * 8 / w
  let v := (s.operand x.s).toInt
  s.landTile 8 l x.td ((maskRows (e.mask x.k) sh.1).map fun i =>
    let row := e.rowElems w x.ta i sh.2
    atRow i 0 (bytesOfElems w ((List.range n).map fun j =>
      match movedFrom (x.mod == 1) n v j with
      | some p => row.getD p 0
      | none => 0))) (some sh) 0

/-- RROT (R212). -/
def execRrot (x : VS) (s : State) : Host.Outcome State Fault Refusal :=
  (s.run (.rrot x) fun s => s.eachLane (State.rrotLane x)).next

/-- CROT in one lane: k selects the destination rows. -/
def State.crotLane (x : VS) (s : State) (l : Nat) : State :=
  let e := s.g.lane l
  let sh := e.shape x.ta
  let v := (s.operand x.s).toInt
  s.landTile 16 l x.td ((maskRows (e.mask x.k) sh.1).map fun i =>
    atRow i 0 (match movedFrom (x.mod == 1) sh.1 v i with
      | some p => e.row x.ta p 0 sh.2
      | none => List.replicate sh.2 0)) (some sh) 0

/-- CROT (R212). -/
def execCrot (x : VS) (s : State) : Host.Outcome State Fault Refusal :=
  (s.run (.crot x) fun s => s.eachLane (State.crotLane x)).next

/-- The index of a broadcast: e(tb)[7:0] (R213). -/
def Lane.bcIndex (e : Lane) (t : BitVec 4) : Nat := (e.es t).toNat % 256

/-- RBC in one lane. -/
def State.rbcLane (x : VT) (s : State) (l : Nat) : State :=
  let e := s.g.lane l
  let w := widthOf (fElem (s.fmt x.fs))
  let sh := e.shape x.ta
  let n := sh.2 * 8 / w
  s.landTile 8 l x.td ((maskRows (e.mask x.k) sh.1).map fun i =>
    atRow i 0 (bytesOfElems w (List.replicate n (e.elem w x.ta i (e.bcIndex x.tb % n))))) (some sh) 0

/-- RBC (R213). -/
def execRbc (x : VT) (s : State) : Host.Outcome State Fault Refusal :=
  (s.run (.rbc x) fun s => s.eachLane (State.rbcLane x)).next

/-- CBC in one lane. -/
def State.cbcLane (x : VT) (s : State) (l : Nat) : State :=
  let e := s.g.lane l
  let sh := e.shape x.ta
  s.landTile 16 l x.td ((maskRows (e.mask x.k) sh.1).map fun i =>
    atRow i 0 (e.row x.ta (e.bcIndex x.tb % sh.1) 0 sh.2)) (some sh) 0

/-- CBC (R213). -/
def execCbc (x : VT) (s : State) : Host.Outcome State Fault Refusal :=
  (s.run (.cbc x) fun s => s.eachLane (State.cbcLane x)).next

/-- A reduction of values (R214, R240): add, max, min or maxabs; the empty set gives zero bits. -/
def reduceVals (op : Nat) (d : Word) (xs : List Val) : Nat × FlagBits :=
  match op, xs with
  | _, [] => (0, 0)
  | 0, xs => enc d (sumVals (fRmode d) xs)
  | 1, x :: xs => enc d (xs.foldl Val.max2 x, 0)
  | 2, x :: xs => enc d (xs.foldl Val.min2 x, 0)
  | _, x :: xs => enc d ((xs.map Val.abs).foldl Val.max2 x.abs, 0)

/-- RRED in one lane: element 0 of each selected row, zeros up to bit 63, and 8-byte rows. -/
def State.rredLane (x : VT) (s : State) (l : Nat) : State :=
  let e := s.g.lane l
  let d := s.fmt x.fs
  let w := widthOf (fElem d)
  let sh := e.shape x.ta
  let res := (maskRows (e.mask x.k) sh.1).map fun i =>
    (i, reduceVals x.mod.toNat d ((e.rowElems w x.ta i sh.2).map (decodeF d)))
  s.landTile 8 l x.td (res.map fun r => atRow r.1 0 (leBytes 8 r.2.1)) (some (sh.1, 8))
    (res.foldl (fun a r => a ||| r.2.2) 0)

/-- RRED (R214). -/
def execRred (x : VT) (s : State) : Host.Outcome State Fault Refusal :=
  (s.run (.rred x) fun s => s.eachLane (State.rredLane x)).next

/-- CRED in one lane: k selects the rows that contribute; rows 1 to 3 are cleared. -/
def State.credLane (x : VT) (s : State) (l : Nat) : State :=
  let e := s.g.lane l
  let d := s.fmt x.fs
  let w := widthOf (fElem d)
  let sh := e.shape x.ta
  let rows := (maskRows (e.mask x.k) sh.1).map fun i => (e.rowElems w x.ta i sh.2).map (decodeF d)
  let res := (List.range (sh.2 * 8 / w)).map fun j => reduceVals x.mod.toNat d (rows.map fun r => r.getD j .nan)
  s.landTile 16 l x.td
    (atRow 0 0 (bytesOfElems w (res.map (·.1))) :: [1, 2, 3].map fun i => atRow i 0 (List.replicate sh.2 0))
    (some (4, sh.2)) (orFlags res)

/-- CRED (R214). -/
def execCred (x : VT) (s : State) : Host.Outcome State Fault Refusal :=
  (s.run (.cred x) fun s => s.eachLane (State.credLane x)).next

/-! Row masks (R215). -/

/-- A 64-bit word from its bits. -/
def wordOfBits (f : Nat → Bool) : Word :=
  BitVec.ofNat 64 ((List.range 64).foldl (fun a i => if f i then a + 2 ^ i else a) 0)

/-- The mask KCMP gives in one lane. -/
def State.kcmpMask (s : State) (x : VT) (l : Nat) : Word :=
  let e := s.g.lane l
  let d := s.fmt x.fs
  let w := widthOf (fElem d)
  let r := (e.operating [x.ta, x.tb]).1
  wordOfBits fun i => decide (i < r) && (e.mask x.k).getLsbD i &&
    valCond x.mod.toNat (decodeF d (e.elem w x.ta i 0)) (decodeF d (e.elem w x.tb i 0))

/-- KCMP (R215). -/
def execKcmp (x : VT) (s : State) : Host.Outcome State Fault Refusal :=
  (s.run (.kcmp x) fun s => s.land 8 (s.actives.map fun l => .kmask l (x.td.setWidth 3) (s.kcmpMask x l))).next

/-- The functions of PLOG on two masks (R117, R215). -/
def maskFn (f : Nat) (a b : Word) : Word :=
  match f with
  | 0 => a &&& b
  | 1 => a ||| b
  | 2 => a ^^^ b
  | 3 => a &&& ~~~ b
  | 4 => a ||| ~~~ b
  | 5 => ~~~ (a &&& b)
  | 6 => ~~~ (a ||| b)
  | _ => ~~~ (a ^^^ b)

/-- KOP (R215). -/
def execKop (x : VT) (s : State) : Host.Outcome State Fault Refusal :=
  (s.run (.kop x) fun s => s.land 2 (s.actives.map fun l =>
    .kmask l (x.td.setWidth 3)
      (maskFn x.mod.toNat ((s.g.lane l).mask (x.ta.setWidth 3)) ((s.g.lane l).mask (x.tb.setWidth 3))))).next

/-- The mask KSET gives in one lane. -/
def State.ksetMask (s : State) (x : VS) (l : Nat) : Word :=
  match x.mod.toNat with
  | 0 => s.operand x.s
  | 1 => BitVec.ofNat 64 (2 ^ min (s.operand x.s).toNat 64 - 1)
  | _ => (s.g.lane l).es x.ta

/-- KSET (R215). -/
def execKset (x : VS) (s : State) : Host.Outcome State Fault Refusal :=
  (s.run (.kset x) fun s => s.land 2 (s.actives.map fun l => .kmask l (x.td.setWidth 3) (s.ksetMask x l))).next

/-- KCNT (R215). -/
def execKcnt (x : VT) (s : State) : Host.Outcome State Fault Refusal :=
  (s.run (.kcnt x) fun s => s.land 2 (s.actives.map fun l =>
    .esc l x.td (oneBits ((s.g.lane l).mask (x.ta.setWidth 3))))).next

end Sys2Proof.Machine
end

