-- ==== Sys2Proof/Machine/EngScalar.lean ====
section
/-! DEFINITION. The engine-scalar class (R216 to R218). -/

namespace Sys2Proof.Machine

/-- An engine-scalar result of e(ta) and e(tb), at issue + 2 in every active lane (R217). -/
def State.engOp (s : State) (i : Instr) (x : VT) (f : Word → Word → Word) : State :=
  s.run i fun s => s.land 2 (s.actives.map fun l => .esc l x.td (f ((s.g.lane l).es x.ta) ((s.g.lane l).es x.tb)))

/-- EADD (R217). -/
def execEadd (x : VT) (s : State) : Host.Outcome State Fault Refusal :=
  (s.engOp (.eadd x) x fun a b => a + b).next

/-- ESUB (R217). -/
def execEsub (x : VT) (s : State) : Host.Outcome State Fault Refusal :=
  (s.engOp (.esub x) x fun a b => a - b).next

/-- EMUL (R217). -/
def execEmul (x : VT) (s : State) : Host.Outcome State Fault Refusal :=
  (s.engOp (.emul x) x fun a b => a * b).next

/-- EAND (R217). -/
def execEand (x : VT) (s : State) : Host.Outcome State Fault Refusal :=
  (s.engOp (.eand x) x fun a b => a &&& b).next

/-- EOR (R217). -/
def execEor (x : VT) (s : State) : Host.Outcome State Fault Refusal :=
  (s.engOp (.eor x) x fun a b => a ||| b).next

/-- ESHL (R217). -/
def execEshl (x : VT) (s : State) : Host.Outcome State Fault Refusal :=
  (s.engOp (.eshl x) x fun a b => a <<< (b.toNat % 64)).next

/-- ESHR (R217): logical, or arithmetic. -/
def execEshr (x : VT) (s : State) : Host.Outcome State Fault Refusal :=
  (s.engOp (.eshr x) x fun a b =>
    if x.mod = 0 then a >>> (b.toNat % 64) else a.sshiftRight (b.toNat % 64)).next

/-- EMIN (R217). -/
def execEmin (x : VT) (s : State) : Host.Outcome State Fault Refusal :=
  (s.engOp (.emin x) x (minMax false x.mod.toNat)).next

/-- EMAX (R217). -/
def execEmax (x : VT) (s : State) : Host.Outcome State Fault Refusal :=
  (s.engOp (.emax x) x (minMax true x.mod.toNat)).next

/-- ECMP (R217). -/
def execEcmp (x : VT) (s : State) : Host.Outcome State Fault Refusal :=
  (s.run (.ecmp x) fun s => s.land 2 (s.actives.map fun l =>
    .cond l (x.td.setWidth 2) (condHolds x.mod.toNat ((s.g.lane l).es x.ta) ((s.g.lane l).es x.tb)))).next

/-- ESEL (R217). -/
def execEsel (x : VT) (s : State) : Host.Outcome State Fault Refusal :=
  (s.run (.esel x) fun s => s.land 2 (s.actives.map fun l =>
    .esc l x.td (if (s.g.lane l).cond (x.mod.toNat % 4) then (s.g.lane l).es x.ta else (s.g.lane l).es x.tb))).next

/-- EID (R217, R14). -/
def execEid (x : VT) (s : State) : Host.Outcome State Fault Refusal :=
  (s.run (.eid x) fun s => s.land 2 (s.actives.map fun l =>
    .esc l x.td (BitVec.ofNat 64 (if x.mod = 0 then l else s.g.engine l)))).next

/-- The position EMOVT and ETMOV name: row e(tb)[5:0], element e(tb)[15:8] (R218). -/
def Lane.position (e : Lane) (t : BitVec 4) : Nat × Nat := (bits (e.es t).toNat 5 0, bits (e.es t).toNat 15 8)

/-- A position lies in a tile's shape for elements of w bits. -/
def Lane.inShape (e : Lane) (w : Nat) (t : BitVec 4) (p : Nat × Nat) : Bool :=
  decide (p.1 < e.rows t) && decide (p.2 < e.rowBytes t * 8 / w)

/-- The value EMOVT gives in one lane. -/
def State.movtValue (s : State) (x : VT) (l : Nat) : Word :=
  let e := s.g.lane l
  let w := widthOf (fElem (s.fmt x.fs))
  let p := e.position x.tb
  if !e.inShape w x.ta p then 0
  else if x.mod = 0 then BitVec.ofNat 64 (e.elem w x.ta p.1 p.2)
  else wordOf (sextNat (e.elem w x.ta p.1 p.2) w)

/-- EMOVT (R218). -/
def execEmovt (x : VT) (s : State) : Host.Outcome State Fault Refusal :=
  (s.run (.emovt x) fun s => s.land 6 (s.actives.map fun l => .esc l x.td (s.movtValue x l))).next

/-- ETMOV in one lane (R218): a 4-bit element leaves its neighbour in the byte alone. -/
def State.tmovLane (x : VT) (s : State) (l : Nat) : State :=
  let e := s.g.lane l
  let w := widthOf (fElem (s.fmt x.fs))
  let p := e.position x.tb
  let v := (e.es x.ta).toNat % 2 ^ w
  if !e.inShape w x.td p then s
  else if w = 4 then s.land 6 [.nibble l x.td (128 * p.1 + p.2 / 2) (p.2 % 2 == 1) v]
  else s.land 6 [tileLand l x.td [atRow p.1 (p.2 * (w / 8)) (leBytes (w / 8) v)] none]

/-- ETMOV (R218). -/
def execEtmov (x : VT) (s : State) : Host.Outcome State Fault Refusal :=
  (s.run (.etmov x) fun s => s.eachLane (State.tmovLane x)).next

end Sys2Proof.Machine
end

