-- ==== Sys2Proof/Machine/GangX.lean ====
section
/-! DEFINITION. The gang exchanges and the lane operations of the S slot (R237 to R243). -/

namespace Sys2Proof.Machine

/-- A valid source: a lane below WIDTH that is active at issue (R238). -/
def State.validSource (s : State) (i : Int) : Option Nat :=
  if i < 0 ∨ (s.g.info.width : Int) ≤ i then none
  else if s.active i.toNat then some i.toNat else none

/-- An exchange in one reader (R239): the source's tile, or the fill in the reader's own shape, and c3. -/
def State.exchange (s : State) (lat w : Nat) (td ta : BitVec 4) (k : BitVec 3) (src : Option Nat) (fill : Nat)
    (l : Nat) : State :=
  let m := (s.g.lane l).mask k
  match src with
  | some o =>
    let e := s.g.lane o
    let sh := e.shape ta
    s.land lat [tileLand l td ((maskRows m sh.1).map fun i => atRow i 0 (e.row ta i 0 sh.2)) (some sh),
      .cond l 3 false]
  | none =>
    let sh := (s.g.lane l).shape ta
    let row := bytesOfElems w (List.replicate (sh.2 * 8 / w) (fill % 2 ^ w))
    s.land lat [tileLand l td ((maskRows m sh.1).map fun i => atRow i 0 row) (some sh), .cond l 3 true]

/-- GSHUF (R239): lane and fill come from the reader's e(tb). -/
def execGshuf (x : VT) (s : State) : Host.Outcome State Fault Refusal :=
  (s.run (.gshuf x) fun s => s.eachLane fun s l =>
    let v := ((s.g.lane l).es x.tb).toNat
    s.exchange 24 (widthOf (fElem (s.fmt x.fs))) x.td x.ta x.k (s.validSource (v % 16 : Nat)) (bits v 63 32) l).next

/-- GBC (R239). -/
def execGbc (x : VS) (s : State) : Host.Outcome State Fault Refusal :=
  (s.run (.gbc x) fun s => s.eachLane fun s l =>
    let v := (s.operand x.s).toNat
    s.exchange 20 (widthOf (fElem (s.fmt x.fs))) x.td x.ta x.k (s.validSource (v % 16 : Nat)) (bits v 63 32) l).next

/-- The source lane of GROT for reader l (R239). -/
def State.rotSource (s : State) (shift : Bool) (v : Nat) (l : Nat) : Int :=
  let i : Int := (l : Int) - sextNat v 8
  if shift then i else i % (s.g.info.width : Int)

/-- GROT (R239). -/
def execGrot (x : VS) (s : State) : Host.Outcome State Fault Refusal :=
  (s.run (.grot x) fun s => s.eachLane fun s l =>
    let v := (s.operand x.s).toNat
    s.exchange 20 (widthOf (fElem (s.fmt x.fs))) x.td x.ta x.k (s.validSource (s.rotSource (x.mod == 1) v l))
      (bits v 63 32) l).next

/-- The element values of row i of ta in every active lane whose own mask has the row (R240). -/
def State.gredRows (s : State) (x : VT) (b i : Nat) : List (List Val) :=
  let d := s.fmt x.fs
  (s.actives.filter fun l => ((s.g.lane l).mask x.k).getLsbD i).map fun l =>
    ((s.g.lane l).rowElems (widthOf (fElem d)) x.ta i b).map (decodeF d)

/-- GRED (R240): the result lands in every active lane; a lane raises the flags of the rows of its own mask. -/
def State.gangReduce (x : VT) (s : State) : State :=
  let d := s.fmt x.fs
  let w := widthOf (fElem d)
  let r := (s.actives.map fun l => (s.g.lane l).rows x.ta).foldl min 64
  let b := (s.actives.map fun l => (s.g.lane l).rowBytes x.ta).foldl min 128
  let res := (List.range r).map fun i =>
    let rows := s.gredRows x b i
    (i, (List.range (b * 8 / w)).map fun j => reduceVals x.mod.toNat d (rows.map fun row => row.getD j .nan))
  s.eachLane fun s l =>
    let fl := (res.filter fun q => ((s.g.lane l).mask x.k).getLsbD q.1).foldl (fun a q => a ||| orFlags q.2) 0
    s.landTile 40 l x.td (res.map fun q => atRow q.1 0 (bytesOfElems w (q.2.map (·.1)))) (some (r, b)) fl

/-- GRED (R240). -/
def execGred (x : VT) (s : State) : Host.Outcome State Fault Refusal :=
  (s.run (.gred x) (State.gangReduce x)).next

/-- GCOMP (R241): the rows the lanes select, in lane and row order, packed into the active lanes. -/
def State.gangPack (x : VT) (s : State) : State :=
  let b := (s.actives.map fun l => (s.g.lane l).rowBytes x.ta).foldl min 128
  let rows := (s.actives.map fun l =>
    (maskRows ((s.g.lane l).mask x.k) ((s.g.lane l).rows x.ta)).map fun i => (s.g.lane l).row x.ta i 0 b).flatten
  let t := rows.length
  (s.actives.zipIdx).foldl (fun s a =>
    let q := a.2
    let m := min 64 (t - 64 * q)
    let r := if m = 0 then 4 else 4 * ((m + 3) / 4)
    s.land 32 [tileLand a.1 x.td ((List.range r).map fun i =>
        atRow i 0 (if i < m then rows.getD (64 * q + i) [] else List.replicate b 0)) (some (r, b)),
      .esc a.1 x.tb (BitVec.ofNat 64 (m + t * 2 ^ 16 + q * 2 ^ 32))]) s

/-- GCOMP (R241). -/
def execGcomp (x : VT) (s : State) : Host.Outcome State Fault Refusal :=
  (s.run (.gcomp x) (State.gangPack x)).next

/-! Lane operations of the S slot (R243). -/

/-- GBALLOT (R243). -/
def execGballot (x : SR) (s : State) : Host.Outcome State Fault Refusal :=
  (s.run (.gballot x) fun s =>
    let m := (s.actives.filter fun l => (s.g.lane l).cond x.a.toNat != (x.f == 1)).foldl
      (fun m l => m ||| laneBit l) 0
    s.landReg 8 x.d (m.setWidth 64)).next

/-- The functions of GSCAN (R243). -/
def scanFn (f : Nat) (a b : Word) : Word :=
  match f with
  | 0 => a + b
  | 1 => a ||| b
  | _ => if a.ult b then b else a

/-- GSCAN (R243): each lane receives the scan of the lanes before it, the sequencer the whole. -/
def execGscan (x : SR) (s : State) : Host.Outcome State Fault Refusal :=
  (s.run (.gscan x) fun s =>
    let r := s.actives.foldl (fun (a : Word × List Landed) l =>
      (scanFn x.f.toNat a.1 ((s.g.lane l).es (x.a.setWidth 4)), a.2 ++ [Landed.esc l (x.b.setWidth 4) a.1]))
      ((0 : Word), ([] : List Landed))
    s.land 12 (r.2 ++ [.sreg s.cur.q x.d r.1])).next

/-- The functions of GREDS with their identities (R243). -/
def redsFn (f : Nat) : Word × (Word → Word → Word) :=
  match f with
  | 0 => (0, fun a b => a + b)
  | 1 => (BitVec.allOnes 64, fun a b => a &&& b)
  | 2 => (0, fun a b => a ||| b)
  | 3 => (0, fun a b => a ^^^ b)
  | 4 => (0x7FFFFFFFFFFFFFFF, minMax false 0)
  | 5 => (0x8000000000000000, minMax true 0)
  | 6 => (BitVec.allOnes 64, minMax false 1)
  | _ => (0, minMax true 1)

/-- GREDS (R243). -/
def execGreds (x : SR) (s : State) : Host.Outcome State Fault Refusal :=
  (s.run (.greds x) fun s =>
    let r := redsFn x.f.toNat
    s.landReg 20 x.d ((s.actives.map fun l => (s.g.lane l).es (x.a.setWidth 4)).foldl r.2 r.1)).next

end Sys2Proof.Machine
end

