-- ==== Sys2Proof/Machine/Matrix.lean ====
section
/-! DEFINITION. The matrix class (R219 to R234) and the two M-slot steps of the retrieval class (R257, R258). An
accumulator is read as it stands after every write accepted before, and every result lands (R220, R221). -/

namespace Sys2Proof.Machine

/-- The scale register named by the low two bits of a number. -/
def scReg (n : Nat) : BitVec 2 := BitVec.ofNat 2 n

/-- scale() of an element with scale register n of a lane (R71). -/
def Lane.scaleAt (e : Lane) (n : BitVec 2) (f : Word) (colDir : Bool) (row col : Nat) : Val :=
  scaleOf f (e.scByte n) colDir row col

/-- The decoded elements of row i of a tile, the first k of them. -/
def Lane.vals (e : Lane) (f : Word) (t : BitVec 4) (i k : Nat) : List Val :=
  ((e.rowElems (widthOf (fElem f)) t i (e.rowBytes t)).take k).map (decodeF f)

/-- The elements per row of a tile under a descriptor. -/
def Lane.perRow (e : Lane) (f : Word) (t : BitVec 4) : Nat := e.rowBytes t * 8 / widthOf (fElem f)

/-- The rows below n that k selects in a lane. -/
def Lane.sel (e : Lane) (k : BitVec 3) (n : Nat) : List Nat := maskRows (e.mask k) n

/-- A word of an accumulator as FP32, without FTZ. -/
def Lane.accVal (e : Lane) (a : BitVec 2) (i j : Nat) : Val := decodeElem 0 false (e.accWord a i j)

/-- The chunk of a dense product, by the wider operand format (R76). -/
def chunkOf (w : Nat) : Nat := if w = 16 then 8 else if w = 8 then 16 else 32

/-- Cut a list into chunks of n. -/
def chunksOf {α : Type} (n : Nat) : Nat → List α → List (List α)
  | 0, _ => []
  | m + 1, l => l.take n :: chunksOf n m (l.drop n)

/-- A value with 1 in place of NaN: a factor that is left out of a product whose other factors are judged (R66). -/
def Val.live (v : Val) : Val := if v.isNan then .ofInt 1 else v

/-- The terms that the product of two elements with the scales that vary along k gives an exact sum (R66, R76): the
product without its NaN scales, so that none of them suppresses an INVALID, and a NaN beside it where there is one. -/
def scaledProd (a sa b sb : Val) : List Formed :=
  let x := a.mul sa.live
  let y := b.mul sb.live
  let p := x.1.mul y.1
  (p.1, x.2 ||| y.2 ||| p.2) :: if sa.isNan || sb.isNan then [(.nan, 0)] else []

/-- A chunk's exact sum times the scales that are constant over it (R76). A NaN term or scale makes it NaN and suppresses
no INVALID (R66): what the terms and scales that are no NaN give, 0 times infinity among it, stands. -/
def chunkScaled (terms : List Formed) (ka kb : Val) : Formed :=
  let sum := sumFormed 0 ((.zero false, 0) :: terms)
  let rest := terms.filter fun t => !t.1.isNan
  let u := (sumFormed 0 ((.zero false, 0) :: rest)).1.mul ka.live
  let v := u.1.mul kb.live
  (if sum.1.isNan || ka.isNan || kb.isNan then .nan else v.1, sum.2 ||| if rest = [] then 0 else u.2 ||| v.2)

/-- One chunk added to an FP32 accumulator word (R76): the scaled sum, then one encode(). -/
def chunkFloat (acc : Nat × FlagBits) (terms : List Formed) (ka kb : Val) : Nat × FlagBits :=
  let v := chunkScaled terms ka kb
  let r := (decodeElem 0 false acc.1).add 0 v.1
  let (b, fl) := encodeF 0 fsRne r.1
  (b, acc.2 ||| v.2 ||| r.2 ||| fl)

/-- One chunk added to an I32 accumulator word (R77). -/
def chunkInt (sat : Bool) (acc : Nat × FlagBits) (sum : Int) : Nat × FlagBits :=
  let v := sextNat acc.1 32 + sum
  let (lo, hi) := intRange 6
  if sat ∧ (v < lo ∨ hi < v) then (((if v < lo then lo else hi) % 2 ^ 32).toNat, acc.2 ||| fOverflow)
  else ((v % 2 ^ 32).toNat, acc.2)

/-- The integer a decoded element of an integer format stands for. -/
def intVal : Val → Int
  | .num m e _ => m * 2 ^ e.toNat
  | _ => 0

/-- The operating size of a dense product (R224). -/
structure Dense where
  m : Nat
  n : Nat
  k : Nat
  chunk : Nat
  deriving DecidableEq, Repr

/-- M, N, K and the chunk of MMA and MMAZ, and of MMAT (R224). -/
def Lane.denseSize (e : Lane) (x : MF) (fa fb : Word) (trans : Bool) : Dense :=
  let nA := e.perRow fa x.ta
  let nB := e.perRow fb x.tb
  let chunk := chunkOf (widerOf fa fb)
  if trans then ⟨e.rows x.ta, e.rows x.tb, min (min nA nB) 64, chunk⟩
  else ⟨e.rows x.ta, min nB 64, min (min nA (e.rows x.tb)) 64, chunk⟩

/-- Column j of B along k: row j of tb for MMAT, and otherwise the elements tb[k][j]. -/
def Lane.bColumns (e : Lane) (x : MF) (fb : Word) (d : Dense) (trans : Bool) : List (List Val) :=
  if trans then (List.range d.n).map fun j => e.vals fb x.tb j d.k
  else
    let rows := (List.range d.k).map fun k => e.vals fb x.tb k d.n
    (List.range d.n).map fun j => rows.map fun r => r.getD j .nan

/-- One word of an integer product (R77). -/
def denseInt (sat : Bool) (d : Dense) (c : Nat) (as bs : List Val) : Nat × FlagBits :=
  (chunksOf d.chunk (d.k / d.chunk) (as.zip bs)).foldl
    (fun acc ch => chunkInt sat acc ((ch.map fun p => intVal p.1 * intVal p.2).foldl (· + ·) 0)) (c, 0)

/-- The scale of A at (i, k), and of B at (k, j), or at (j, k) in MMAT (R225). -/
def Lane.scaleB (e : Lane) (sc : BitVec 2) (fb : Word) (trans : Bool) (k j : Nat) : Val :=
  if trans then e.scaleAt sc fb false j k else e.scaleAt sc fb true k j

/-- One word of an FP32 product (R76). -/
def Lane.denseFloat (e : Lane) (x : MF) (fa fb : Word) (trans : Bool) (d : Dense) (i j c : Nat) (as bs : List Val) :
    Nat × FlagBits :=
  let scA := scReg (if x.mod.getLsbD 0 then 2 else 0)
  let scB := scReg (if x.mod.getLsbD 0 then 3 else 1)
  let aVaries := fSmode fa == 2
  let bVaries := fSmode fb == (if trans then 2 else 1)
  let one := Val.ofInt 1
  (chunksOf d.chunk (d.k / d.chunk) ((List.range d.k).zip (as.zip bs))).foldl (fun acc ch =>
    let k0 := (ch.map (·.1)).headD 0
    let terms := ch.flatMap fun p =>
      scaledProd p.2.1 (if aVaries then e.scaleAt scA fa false i p.1 else one)
        p.2.2 (if bVaries then e.scaleB scB fb trans p.1 j else one)
    chunkFloat acc terms (if aVaries then one else e.scaleAt scA fa false i k0)
      (if bVaries then one else e.scaleB scB fb trans k0 j)) (c, 0)

/-- Land runs of words of an accumulator of a lane, each from its row and column on, and their flags (R79, R221). -/
def State.landAcc (s : State) (lat l : Nat) (a : BitVec 2) (ws : List (Nat × Nat × List (Nat × FlagBits))) : State :=
  let fl := ws.foldl (fun f w => f ||| orFlags w.2.2) 0
  s.landAccRows lat l a (ws.map fun w => (256 * w.1 + 4 * w.2.1, bytesOfElems 32 (w.2.2.map (·.1))))
    (if fl = 0 then [] else [.flags l fl])

/-- MMA, MMAZ and MMAT in one lane (R224, R225). -/
def State.denseLane (x : MF) (zero trans : Bool) (s : State) (l : Nat) : State :=
  let e := s.g.accLane l
  let fa := s.fmt x.fsA
  let fb := s.fmt x.fsB
  let d := e.denseSize x fa fb trans
  if d.k % d.chunk ≠ 0 then s.park l .shape (infoOf 0x03 (d.k + d.chunk * 256))
  else
    let cols := (e.bColumns x fb d trans).zipIdx
    let int := isInt (fElem fa) && isInt (fElem fb) && fSmode fa == 0 && fSmode fb == 0
    s.landAcc (s.latM x) l x.acc ((e.sel x.k d.m).map fun i =>
      let as := e.vals fa x.ta i d.k
      (i, 0, cols.map fun b =>
        let c := if zero then 0 else e.accWord x.acc i b.2
        if int then denseInt (fSat fa) d c as b.1 else e.denseFloat x fa fb trans d i b.2 c as b.1))

/-- MMA (R225). -/
def execMma (x : MF) (s : State) : Host.Outcome State Fault Refusal :=
  (s.run (.mma x) fun s => s.eachLane (State.denseLane x false false)).next

/-- MMAZ (R225): the product replaces what was there. -/
def execMmaz (x : MF) (s : State) : Host.Outcome State Fault Refusal :=
  (s.run (.mmaz x) fun s => s.eachLane (State.denseLane x true false)).next

/-- MMAT (R225): B is read transposed. -/
def execMmat (x : MF) (s : State) : Host.Outcome State Fault Refusal :=
  (s.run (.mmat x) fun s => s.eachLane (State.denseLane x false true)).next

/-! Structured sparsity (R226 to R228). -/

/-- The metadata word of row i (R226). -/
def Lane.metaWord (e : Lane) (n : BitVec 2) (i : Nat) : Nat := e.store.le (scBase n + 8 * i) 8

/-- p0 and p1 of group g of a metadata word. -/
def metaPair (w g : Nat) : Nat × Nat := (bits w (4 * g + 1) (4 * g), bits w (4 * g + 3) (4 * g + 2))

/-- The first illegal group, in the order of rows and then of groups (R227). -/
def Lane.badMeta (e : Lane) (n : BitVec 2) (rows : List Nat) (groups : Nat) : Option (Nat × Nat) :=
  rows.findSome? fun i => ((List.range groups).find? fun g =>
    let p := metaPair (e.metaWord n i) g
    decide (p.2 ≤ p.1)).map fun g => (i, g)

/-- MMAS in one lane (R227). -/
def State.sparseLane (x : MF) (s : State) (l : Nat) : State :=
  let e := s.g.accLane l
  let fa := s.fmt x.fsA
  let fb := s.fmt x.fsB
  let nA := e.perRow fa x.ta
  let n := min (e.perRow fb x.tb) 64
  let k := min (min (2 * nA) (e.rows x.tb)) 64
  let sc := scReg x.mod.toNat
  let rows := e.sel x.k (e.rows x.ta)
  if k % 8 ≠ 0 then s.park l .shape (infoOf 0x03 (k + 8 * 256))
  else match e.badMeta sc rows (k / 4) with
    | some (i, g) => s.park l .spmeta (infoOf 1 (i + g * 256))
    | none =>
      let bRows := (List.range k).map fun q => e.vals fb x.tb q n
      s.landAcc 72 l x.acc (rows.map fun i =>
        let as := e.vals fa x.ta i (k / 2)
        let kept := (List.range (k / 4)).map fun g =>
          let p := metaPair (e.metaWord sc i) g
          [(as.getD (2 * g) .nan, 4 * g + p.1), (as.getD (2 * g + 1) .nan, 4 * g + p.2)]
        (i, 0, (List.range n).map fun j =>
          (chunksOf 2 (k / 8) kept).foldl (fun acc ch =>
            chunkFloat acc (ch.flatten.map fun a => a.1.mul ((bRows.getD a.2 []).getD j .nan)) (.ofInt 1) (.ofInt 1))
            (e.accWord x.acc i j, 0)))

/-- MMAS (R227). -/
def execMmas (x : MF) (s : State) : Host.Outcome State Fault Refusal :=
  (s.run (.mmas x) fun s => s.eachLane (State.sparseLane x)).next

/-- Whether element b ranks above element a in PRUNE (R228): a NaN above every number, and the greater magnitude. -/
def ranksAbove (a b : Val) : Bool := (b.isNan && !a.isNan) || (!a.isNan && !b.isNan && a.abs.lt b.abs)

/-- The positions of the two kept elements of a group of four, ascending: position p is kept when fewer than two others
come before it in the ranking, equal ranks in index order (R228). -/
def keptOf (vs : List Val) : List Nat :=
  (List.range 4).filter fun p =>
    let v := vs.getD p .nan
    decide (((List.range 4).filter fun q =>
      let u := vs.getD q .nan
      ranksAbove v u || (decide (q < p) && !ranksAbove u v)).length < 2)

/-- PRUNE in one lane (R228). -/
def State.pruneLane (x : MF) (s : State) (l : Nat) : State :=
  let e := s.g.lane l
  let f := s.fmt x.fsA
  let b := e.rowBytes x.ta
  let n := b * 8 / 16
  if b % 16 ≠ 0 then s.park l .shape (infoOf 0x04 b)
  else
    let res := (e.sel x.k (e.rows x.ta)).map fun i =>
      let raw := e.rowElems 16 x.ta i b
      (i, (List.range (n / 4)).map fun g =>
        let grp := (raw.drop (4 * g)).take 4
        let ks := keptOf (grp.map (decodeElem (fElem f) false))
        (ks.map fun p => grp.getD p 0, ks.getD 0 0 + 4 * ks.getD 1 0))
    s.landM 24 [tileLand l x.tb (res.map fun r => atRow r.1 0 (bytesOfElems 16 ((r.2.map (·.1)).flatten)))
        (some (e.rows x.ta, b / 2)),
      .scale l (scReg x.mod.toNat) (res.map fun r =>
        (8 * r.1, leBytes 8 ((r.2.map (·.2)).zipIdx.foldl (fun a g => a + g.1 * 16 ^ g.2) 0)))]

/-- PRUNE (R228). -/
def execPrune (x : MF) (s : State) : Host.Outcome State Fault Refusal :=
  (s.run (.prune x) fun s => s.eachLane (State.pruneLane x)).next

/-! Distances and selection (R229, R230). -/

/-- The exact square of a difference (R229). -/
def sqDiff (a b : Val) : Formed :=
  let d := a.sub 0 b
  let q := d.1.mul d.1
  (q.1, d.2 ||| q.2)

/-- SQD in one lane (R229). -/
def State.sqdLane (x : MF) (s : State) (l : Nat) : State :=
  let e := s.g.accLane l
  let fa := s.fmt x.fsA
  let fb := s.fmt x.fsB
  let k := min (min (e.perRow fa x.ta) (e.perRow fb x.tb)) 64
  if k % 8 ≠ 0 then s.park l .shape (infoOf 0x03 (k + 8 * 256))
  else
    let cols := ((List.range (e.rows x.tb)).map fun j => e.vals fb x.tb j k).zipIdx
    s.landAcc 140 l x.acc ((e.sel x.k (e.rows x.ta)).map fun i =>
      let as := e.vals fa x.ta i k
      (i, 0, cols.map fun b =>
        (chunksOf 8 (k / 8) (as.zip b.1)).foldl (fun acc ch =>
          chunkFloat acc (ch.map fun p => sqDiff p.1 p.2) (.ofInt 1) (.ofInt 1))
          (if x.mod.getLsbD 0 then e.accWord x.acc i b.2 else 0, 0)))

/-- SQD (R229). -/
def execSqd (x : MF) (s : State) : Host.Outcome State Fault Refusal :=
  (s.run (.sqd x) fun s => s.eachLane (State.sqdLane x)).next

/-- Insert a key with its column after every key it does not come before. -/
def insertKey (before : Val → Val → Bool) (v : Val × Nat) : List (Val × Nat) → List (Val × Nat)
  | [] => [v]
  | u :: us => if before v.1 u.1 then v :: u :: us else u :: insertKey before v us

/-- The order of TOPK (R230): NaN after every number, ascending or descending. -/
def topBefore (desc : Bool) (a b : Val) : Bool :=
  (!a.isNan && b.isNan) || (if desc then b.lt a else a.lt b)

/-- A TOPK control word is in range (R230). -/
def topkOk (v : Nat) : Bool :=
  decide (v / 2 ^ 16 = 0) && !bit v 7 && decide (4 ≤ bits v 15 8) && decide (bits v 15 8 ≤ 64)
    && decide (bits v 15 8 % 4 = 0) && decide (1 ≤ bits v 6 0) && decide (bits v 6 0 ≤ 64)

/-- TOPK in one lane (R230). -/
def State.topkLane (x : MF) (s : State) (l : Nat) : State :=
  let e := s.g.accLane l
  let v := (e.es x.ta).toNat
  if !topkOk v then s.park l .shape (infoOf 0x05 (v % 2 ^ 16))
  else
    let rows := bits v 15 8
    let n := bits v 6 0
    let cnt := 4 * 2 ^ bits x.mod.toNat 2 1
    s.landM 48 [tileLand l x.tb ((e.sel x.k rows).map fun i =>
      let srt := (List.range n).foldl
        (fun a j => insertKey (topBefore (x.mod.getLsbD 0)) (e.accVal x.acc i j, j) a) []
      atRow i 0 (bytesOfElems 32 ((List.range cnt).map fun r =>
        if r < n then (srt.map (·.2)).getD r 0 else 0xFFFFFFFF))) (some (rows, 4 * cnt))]

/-- TOPK (R230). -/
def execTopk (x : MF) (s : State) : Host.Outcome State Fault Refusal :=
  (s.run (.topk x) fun s => s.eachLane (State.topkLane x)).next

/-! Moves (R231 to R234). -/

/-- The columns a move covers: the first, and how many for n elements a row. -/
def viewCols (x : MF) (n : Nat) : Nat × Nat :=
  let c0 := if x.mod.getLsbD 2 then 32 else 0
  (c0, min n (64 - c0))

/-- ACCRD in one lane (R231). -/
def State.accrdLane (x : MF) (s : State) (l : Nat) : State :=
  let e := s.g.accLane l
  let ft := s.fmt x.fsA
  let fv := s.fmt x.fsB
  let (c0, m) := viewCols x (e.perRow ft x.tb)
  let res := (e.sel x.k (e.rows x.tb)).map fun i =>
    (i, (List.range m).map fun j =>
      let v := decodeElem (fElem fv) false (e.accWord x.acc i (c0 + j))
      enc ft (if fSmode ft = 0 then (v, 0) else v.div (e.scaleAt (scReg x.mod.toNat) ft false i j)))
  let fl := res.foldl (fun a r => a ||| orFlags r.2) 0
  s.landM 20 (tileLand l x.tb (res.map fun r => atRow r.1 0 (bytesOfElems (widthOf (fElem ft)) (r.2.map (·.1)))) none
    :: if fl = 0 then [] else [.flags l fl])

/-- ACCRD (R231). -/
def execAccrd (x : MF) (s : State) : Host.Outcome State Fault Refusal :=
  (s.run (.accrd x) fun s => s.eachLane (State.accrdLane x)).next

/-- ACCWR in one lane (R232). -/
def State.accwrLane (x : MF) (s : State) (l : Nat) : State :=
  let e := s.g.lane l
  let ft := s.fmt x.fsA
  let fv := s.fmt x.fsB
  let (c0, m) := viewCols x (e.perRow ft x.ta)
  s.landAcc 20 l x.acc ((e.sel x.k (e.rows x.ta)).map fun i =>
    (i, c0, (e.vals ft x.ta i m).zipIdx.map fun v =>
      enc fv (if fSmode ft = 0 then (v.1, 0) else v.1.mul (e.scaleAt (scReg x.mod.toNat) ft false i v.2))))

/-- ACCWR (R232). -/
def execAccwr (x : MF) (s : State) : Host.Outcome State Fault Refusal :=
  (s.run (.accwr x) fun s => s.eachLane (State.accwrLane x)).next

/-- ACCZ (R233): whole rows are cleared. -/
def execAccz (x : MF) (s : State) : Host.Outcome State Fault Refusal :=
  (s.run (.accz x) fun s => s.eachLane fun s l =>
    s.landAcc 4 l x.acc (((s.g.lane l).sel x.k 64).map fun i => (i, 0, List.replicate 64 (0, 0)))).next

/-- ACCSC function 0 in one lane (R234). -/
def State.accScaleLane (x : MF) (s : State) (l : Nat) : State :=
  let e := s.g.accLane l
  let f := s.fmt x.fsA
  s.landAcc 20 l x.acc ((e.sel x.k 64).map fun i => (i, 0, (List.range 64).map fun j =>
    enc fsRne ((e.accVal x.acc i j).mul (e.scaleAt (scReg x.mod.toNat) f false i j))))

/-- ACCSC, scale (R234). -/
def execAccscScale (x : MF) (s : State) : Host.Outcome State Fault Refusal :=
  (s.run (.accscScale x) fun s => s.eachLane (State.accScaleLane x)).next

/-- ACCSC, load (R234): the first 512 bytes of the tile, whatever its shape. -/
def execAccscLoad (x : MF) (s : State) : Host.Outcome State Fault Refusal :=
  (s.run (.accscLoad x) fun s => s.landM 20 (s.actives.map fun l =>
    .scale l (scReg x.mod.toNat) [(0, (s.g.lane l).row x.ta 0 0 512)])).next

/-- ACCSC, store (R234). -/
def execAccscStore (x : MF) (s : State) : Host.Outcome State Fault Refusal :=
  (s.run (.accscStore x) fun s => s.landM 20 (s.actives.map fun l =>
    tileLand l x.tb [(0, (s.g.lane l).store.bytes (scBase (scReg x.mod.toNat)) 512)] (some (4, 128)))).next

/-! HSIGN and HIDX (R257, R258). -/

/-- An HSIGN control word is in range (R257). -/
def hsignOk (v : Nat) : Bool :=
  decide (v / 2 ^ 31 = 0) && decide (bits v 23 21 = 0) && decide (bits v 15 14 = 0) && decide (bits v 7 5 = 0)
    && decide (4 ≤ bits v 30 24) && decide (bits v 30 24 ≤ 64) && decide (bits v 30 24 % 4 = 0)
    && decide (bits v 13 8 + bits v 4 0 ≤ 64) && decide (8 ≤ bits v 4 0) && decide (bits v 4 0 ≤ 24)

/-- A number at or above zero; -0 counts as +0 (R257). -/
def atLeastZero (v : Val) : Bool := !v.isNan && !v.lt (.zero false)

/-- HSIGN in one lane. -/
def State.hsignLane (x : MF) (s : State) (l : Nat) : State :=
  let e := s.g.accLane l
  let v := (e.es x.ta).toNat
  if !hsignOk v then s.park l .shape (infoOf 0x21 (v % 2 ^ 56))
  else
    let q := bits v 20 16
    s.landM 16 [tileLand l x.tb ((e.sel x.k (bits v 30 24)).map fun i =>
      let code := (List.range (bits v 4 0)).foldl
        (fun a j => if atLeastZero (e.accVal x.acc i (bits v 13 8 + j)) then a + 2 ^ j else a) 0
      atRow i (4 * q) (leBytes 4 code)) (some (bits v 30 24, 128))]

/-- HSIGN (R257). -/
def execHsign (x : MF) (s : State) : Host.Outcome State Fault Refusal :=
  (s.run (.hsign x) fun s => s.eachLane (State.hsignLane x)).next

/-- A family register of a die: SEED and K (R253). -/
def State.family (s : State) (die n : Nat) : BitVec 32 × Nat := (s.die die).fams.getD n (0, 0)

/-- The bucket index of a code under a family's seed (R258, R264). -/
def hashIndex (seed : BitVec 32) (code : BitVec 32) (b : Nat) : Nat := ((code ^^^ seed) * 0x9E3779B1).toNat >>> (32 - b)

/-- An enabled entry of HIDX breaks its rules (R258). -/
def State.hidxBad (s : State) (w : Nat) : Bool :=
  bit w 63 && (decide (bits w 62 29 ≠ 0) || decide (bits w 23 21 ≠ 0) || decide (bits w 15 13 ≠ 0)
    || decide (bits w 7 4 ≠ 0) || decide (bits w 12 8 < 4) || decide (24 < bits w 12 8)
    || decide ((s.family s.myDie (bits w 3 0)).2 = 0))

/-- HIDX in one lane. -/
def State.hidxLane (x : MF) (s : State) (l : Nat) : State :=
  let e := s.g.lane l
  let ws := (List.range 16).map fun h => (h, e.store.le (scBase (scReg x.mod.toNat) + 8 * h) 8)
  match ws.find? fun w => s.hidxBad w.2 with
  | some w => s.park l .shape (infoOf 0x22 w.1)
  | none =>
    let on := ws.filter fun w => bit w.2 63
    let rows := e.rows x.ta
    s.landM 8 [tileLand l x.tb (((e.sel x.k rows).map fun i => on.map fun w =>
      let fam := s.family s.myDie (bits w.2 3 0)
      let code := (e.elem 32 x.ta i (bits w.2 20 16)) % 2 ^ fam.2
      atRow i (4 * bits w.2 28 24) (leBytes 4 (hashIndex fam.1 (BitVec.ofNat 32 code) (bits w.2 12 8)))).flatten)
      (some (rows, 128))]

/-- HIDX (R258). -/
def execHidx (x : MF) (s : State) : Host.Outcome State Fault Refusal :=
  (s.run (.hidx x) fun s => s.eachLane (State.hidxLane x)).next

end Sys2Proof.Machine
end

