-- ==== Sys2Proof/Machine/CopyIssue.lean ====
section
/-! DEFINITION. The X-slot operations at issue (R175 to R178, R190, R191, R262): one part for each active lane, with its
command block as read at issue; SEAL and BWAIT, which act once for the gang. -/

namespace Sys2Proof.Machine

/-- The block's local offset: operand(a) + e(b[3:0]) modulo 2^64 (R176). -/
def State.blockOff (s : State) (x : XF) (l : Nat) : Nat := (s.operand x.a + (s.g.lane l).es (x.b.setWidth 4)).toNat

/-- One lane's part enters the command queue, or its engine parks at a block offset that breaks R176. A PREFT part whose
offset does so does nothing (R184): its block is left out. -/
def State.xPart (kind : PartKind) (x : XF) (n : Nat) (tkt : Nat) (s : State) (l : Nat) : State :=
  let off := s.blockOff x l
  let add (block : List Byte) (s : State) : State :=
    (s.raise x.tok).updG fun g => { g with parts := g.parts ++
      [⟨16 * tkt + l, s.cur.q, x.tok, s.cur.slot, s.cur.head, l, kind,
        if x.bar = 31 then none else some x.bar.toNat, block, off, none, false, [], [], 0, [], false, 1⟩] }
  match s.localFault off 64 n with
  | some (c, i) => if kind = .preft then add [] s else s.park l c i
  | none => add (s.localBytes l off n) s

/-- Issue an X-slot operation: its parts, or, when no lane has one, a token that clears in the next cycle (R42). -/
def State.xIssue (kind : PartKind) (x : XF) (n : Nat) (s : State) : State :=
  let (k, s) := s.takeTicket
  let t := s.actives.foldl (State.xPart kind x n k) s
  let m := t.g.parts.length - s.g.parts.length
  if m = 0 then (t.raise x.tok).land 1 [.token s.cur.q s.g.inSys x.tok]
  else t.updG fun g => { g with parts := g.parts.map fun p => if p.pid / 16 = k then { p with of := m } else p }

/-- COPY (R182). -/
def execCopy (x : XF) (s : State) : Host.Outcome State Fault Refusal :=
  (s.run (.copy x) (State.xIssue .copy x 256)).next

/-- GATHER (R185). -/
def execGather (x : XF) (s : State) : Host.Outcome State Fault Refusal :=
  (s.run (.gather x) (State.xIssue .gather x 64)).next

/-- SCATTER (R185). -/
def execScatter (x : XF) (s : State) : Host.Outcome State Fault Refusal :=
  (s.run (.scatter x) (State.xIssue .scatter x 64)).next

/-- PUT (R186). -/
def execPut (x : XF) (s : State) : Host.Outcome State Fault Refusal :=
  (s.run (.put x) (State.xIssue .put x 32)).next

/-- GET (R186). -/
def execGet (x : XF) (s : State) : Host.Outcome State Fault Refusal :=
  (s.run (.get x) (State.xIssue .get x 32)).next

/-- RGATH (R189). -/
def execRgath (x : XF) (s : State) : Host.Outcome State Fault Refusal :=
  (s.run (.rgath x) (State.xIssue .rgath x 32)).next

/-- FILL (R183). -/
def execFill (x : XF) (s : State) : Host.Outcome State Fault Refusal :=
  (s.run (.fill x) (State.xIssue .fill x 256)).next

/-- PREFT (R184). -/
def execPreft (x : XF) (s : State) : Host.Outcome State Fault Refusal :=
  (s.run (.preft x) (State.xIssue .preft x 256)).next

/-- PIN (R194). -/
def execPin (x : XF) (s : State) : Host.Outcome State Fault Refusal :=
  (s.run (.pin x) (State.xIssue .pin x 16)).next

/-- UNPIN (R194). -/
def execUnpin (x : XF) (s : State) : Host.Outcome State Fault Refusal :=
  (s.run (.unpin x) (State.xIssue .unpin x 16)).next

/-- The kinds of copy that a batch holds (R190). -/
def PartKind.batched : PartKind → Bool
  | .copy | .gather | .scatter | .put | .get | .rgath | .fill | .preft => true
  | _ => false

/-- SEAL (R190): every unsealed copy part of an earlier bundle joins the next batch. DESIGN CHOICE: of two SEALs of one bundle, in X0
and X1, each takes a number of its own, in slot order, though LASTBATCH reads the same to both; R190 orders only those of the two
sequencers. -/
def State.seal (x : XF) (s : State) : State :=
  let b := s.g.sealed + 1
  let s := s.updG fun g => { g with
    sealed := b
    parts := g.parts.map fun p =>
      if p.kind.batched && p.batch.isNone && decide (p.pid / 16 < s.cur.tkt0) then { p with batch := some b } else p
    wrote := g.wrote.map fun w =>
      if w.batch.isNone && decide (w.pid / 16 < s.cur.tkt0) then { w with batch := some b } else w }
  (s.raise x.tok).land 1 [.lastBatch b, .token s.cur.q s.g.inSys x.tok]

/-- SEAL (R190). -/
def execSeal (x : XF) (s : State) : Host.Outcome State Fault Refusal := (s.run (.seal x) (State.seal x)).next

/-- The batches BWAIT waits for: those sealed before it and not complete, up to n in rolling order (R191). -/
def State.bwaitFor (s : State) (x : XF) : List (BitVec 16) :=
  let v : BitVec 16 := (s.operand x.a).setWidth 16
  let n := if x.mod = 1 then s.g.lastBatch - v else v
  s.g.openBatches.filter fun m => decide ((n - m).toNat < 2 ^ 15) && decide ((s.g.lastBatch - m).toNat < 2 ^ 15)

/-- BWAIT (R191). -/
def execBwait (x : XF) (s : State) : Host.Outcome State Fault Refusal :=
  (s.run (.bwait x) fun s => s.tokened x.tok 0 (.bwait (s.bwaitFor x))).next

/-! The retrieval operations (R255, R262, R268). -/

/-- RFAM (R255). -/
def execRfam (x : SR) (s : State) : Host.Outcome State Fault Refusal :=
  (s.run (.rfam x) fun s => s.tokened x.f 0 (.rfam (s.srA x) (s.srB x))).next

/-- RSTAT (R268). -/
def execRstat (x : SR) (s : State) : Host.Outcome State Fault Refusal :=
  (s.run (.rstat x) fun s => s.tokened x.f x.d (.rstat (s.srA x) (s.srB x))).next

/-- RCUR (R268). -/
def execRcur (x : SR) (s : State) : Host.Outcome State Fault Refusal :=
  (s.run (.rcur x) fun s => s.tokened x.f x.d (.rcur (s.srA x))).next

/-- RPROBE (R263). -/
def execRprobe (x : XF) (s : State) : Host.Outcome State Fault Refusal :=
  (s.run (.rprobe x) (State.xIssue .rprobe x 32)).next

/-- RINS (R264). -/
def execRins (x : XF) (s : State) : Host.Outcome State Fault Refusal :=
  (s.run (.rins x) (State.xIssue .rins x 32)).next

/-- RDEL (R264). -/
def execRdel (x : XF) (s : State) : Host.Outcome State Fault Refusal :=
  (s.run (.rdel x) (State.xIssue .rdel x 32)).next

/-- RMIG (R265). -/
def execRmig (x : XF) (s : State) : Host.Outcome State Fault Refusal :=
  (s.run (.rmig x) (State.xIssue .rmig x 32)).next

/-- RRET (R266). -/
def execRret (x : XF) (s : State) : Host.Outcome State Fault Refusal :=
  (s.run (.rret x) (State.xIssue .rret x 32)).next

end Sys2Proof.Machine
end

