-- ==== Sys2Proof/Machine/Order.lean ====
section
/-! DEFINITION. The memory order (R155 to R163, R169 to R171): logical times of lines, read leases, program order among
the ordinary accesses of a gang, and publication. -/

namespace Sys2Proof.Machine

/-- The 256-byte line of a key. A scratchpad line takes its place in the order in the same way (R159). -/
def lineOf (key : Nat) : Nat := key / 256

/-- The logical times of a line: 0 and 0 until it has been accessed (R160). -/
def State.lineInfo (s : State) (n : Nat) : LineInfo := (s.lines.find? fun l => l.line == n).getD ⟨n, 0, 0, 0⟩

/-- Change a line's times or its pin count. -/
def State.setLine (s : State) (l : LineInfo) : State := { s with lines := l :: s.lines.filter fun x => x.line != l.line }

/-- The lines that n bytes at a key touch. -/
def linesFor (key n : Nat) : List Nat := (List.range (lineOf (key + n - 1) + 1 - lineOf key)).map (· + lineOf key)

/-- A load of a line at its home for a program time: the new program time (R160). -/
def State.readLineAt (s : State) (pts n : Nat) : State × Nat :=
  let i := s.lineInfo n
  let p := max pts i.wts
  let (k, s) := s.takeFree
  (s.setLine { i with rts := max i.rts (p + Config.lease k) }, p)

/-- A store to a line at its home (R160): beyond every lease granted on the line. -/
def State.writeLineAt (s : State) (pts n : Nat) : State × Nat :=
  let i := s.lineInfo n
  let w := max pts (i.rts + 1)
  (s.setLine { i with wts := w, rts := w }, w)

/-- The time at which a program time reads several lines at one point: after the last write to any of them (R157, R160). -/
def State.readTime (s : State) (pts : Nat) (ls : List Nat) : Nat := ls.foldl (fun p l => max p (s.lineInfo l).wts) pts

/-- The time at which a program time writes several lines at one point: beyond every lease granted on any of them (R157, R160). -/
def State.writeTime (s : State) (pts : Nat) (ls : List Nat) : Nat := ls.foldl (fun p l => max p ((s.lineInfo l).rts + 1)) pts

/-- A load of n bytes at a key, at the home of every line it touches; it is one point for all of them (R157). -/
def State.readAt (s : State) (pts key n : Nat) : State × Nat :=
  (linesFor key n).foldl (fun a l => a.1.readLineAt a.2 l) (s, s.readTime pts (linesFor key n))

/-- A message is one of a NOTIFY entry that has been sent in a microsecond. -/
def Msg.isNotify (m : Msg) (die entry us : Nat) : Bool :=
  match m with
  | .notify d e t _ => d == die && e == entry && t / 1000 == us
  | _ => false

/-- A write has been performed where a NOTIFY entry watches: a signal that is zero or negative now sends a message, which
may take the place of those of the same microsecond (R364). -/
def State.notifyOne (s : State) (die entry a : Nat) : State :=
  let (k, s) := s.takeFree
  let now := s.now die
  let v := BitVec.ofNat 64 (s.mem.le a 8)
  let s := if Config.sharesNotify k then { s with out := s.out.filter fun m => !m.isNotify die entry (now / 1000) } else s
  if v = 0 ∨ v.getLsbD 63 then s.emit (.notify die entry now v) else s

/-- The NOTIFY entries that watch bytes: die, number and signal (R364). A die whose boot has failed sends nothing (R369). -/
def State.watchers (s : State) (key n : Nat) : List (Nat × Nat × Nat) :=
  (((s.dies.zipIdx.filter fun d => !d.1.failed).map fun d => d.1.notify.zipIdx.map fun w => (d.2, w.2, bits w.1.toNat 51 3 * 8)).flatten).filter fun x =>
    x.2.2 != 0 && overlaps key n x.2.2 8

/-- n bytes at a key have been written: every NOTIFY entry that watches them is looked at (R364). -/
def State.notifyRange (s : State) (key n : Nat) : State :=
  (s.watchers key n).foldl (fun t x => t.notifyOne x.1 x.2.1 x.2.2) s

/-! Writes that are not published (R165, R168). -/

/-- A write that is ordered on its own, by a store or another agent, stands in the old contents as well as in the new. -/
def Unseen.patch (key : Nat) (bs : List Byte) (x : Unseen) : Unseen :=
  if overlaps key bs.length x.key x.old.length then
    { x with old := (List.range x.old.length).map fun k =>
        if key ≤ x.key + k then bs.getD (x.key + k - key) (x.old.getD k 0) else x.old.getD k 0 }
  else x

/-- What is left of a record without n bytes at a key. -/
def Unseen.without (key n : Nat) (x : Unseen) : List Unseen :=
  (cutRow key n (x.key, x.old)).map fun r => { x with key := r.1, old := r.2 }

/-- Old contents of n bytes are gone: what stands there now is all there is. -/
def State.settle (s : State) (key n : Nat) : State := { s with unseen := s.unseen.flatMap (Unseen.without key n) }

/-- A write is certain for a reader: it is its own gang's, or has been published to its place. 0 is the number of no gang;
a place is a die, and a number that is no die's stands for what lies outside the package. -/
def Unseen.certain (gid place : Nat) (x : Unseen) : Bool := x.gid == gid || x.reach.any (·.1 == place)

/-- The earlier contents of the unit at u that a reader may still obtain: those before each write, from the newest on, up to
one that is certain for it (R165, R168, R171). -/
def oldUnits (gid place u : Nat) : List Unseen → List (List Byte)
  | [] => []
  | x :: xs =>
    if !x.covers u || (x.ring && gid != 0) then oldUnits gid place u xs
    else if x.certain gid place then []
    else ((x.old.drop (u - x.key)).take 8) :: oldUnits gid place u xs

/-- The contents of the unit at u that a reader may obtain, the newest first. -/
def State.versions (s : State) (gid place u : Nat) : List (List Byte) :=
  s.mem.bytes u 8 :: oldUnits gid place u s.unseen

/-- The unit at u as a reader obtains it. -/
def State.viewUnit (s : State) (gid place u : Nat) : List Byte :=
  match s.versions gid place u with
  | [v] => v
  | vs => vs.getD (Config.oldPick ((s.free + 1) * 2 ^ 61 + u) % vs.length) []

/-- No write in n bytes at a key is unpublished. -/
def State.published (s : State) (key n : Nat) : Bool := s.unseen.all fun x => !overlaps key n x.key x.old.length

/-- n bytes at a key as a reader obtains them. -/
def State.viewBytes (s : State) (gid place key n : Nat) : List Byte :=
  if s.published key n then s.mem.bytes key n
  else
    let u := key / 8
    (((List.range ((key + n + 7) / 8 - u)).flatMap fun k => s.viewUnit gid place (8 * (u + k))).drop (key % 8)).take n

/-- Old contents that are read again may be read otherwise. -/
def State.freshPick (s : State) : State := if s.unseen = [] then s else { s with free := s.free + 1 }

/-- n bytes at a key as the gang in focus obtains them. -/
def State.gangBytes (s : State) (key n : Nat) : List Byte := s.viewBytes s.g.gid s.myDie key n

/-- A little-endian value of n bytes as the gang in focus obtains it. -/
def State.gangLe (s : State) (key n : Nat) : Nat := leValue (s.gangBytes key n)

/-- n bytes at a key as the gang in focus obtains them; another reading may find others. -/
def State.seen (s : State) (key n : Nat) : State × List Byte :=
  if s.published key n then (s, s.mem.bytes key n) else ({ s with free := s.free + 1 }, s.gangBytes key n)

/-- n bytes at a key as an agent at a place that is no gang obtains them (R165, R168, R274). -/
def State.agentBytes (s : State) (place key n : Nat) : List Byte := s.viewBytes 0 place key n

/-- The place of the control node and of peer packages. -/
def outside : Nat := 4

/-- A region as such an agent obtains it, by offset. -/
def State.agentRegion (s : State) (place a n : Nat) : Memory :=
  let units := (s.unseen.flatMap fun x => (List.range (x.old.length / 8)).map fun k => x.key + 8 * k).eraseDups
  (units.filter fun u => decide (a ≤ u) && decide (u + 8 ≤ a + n)).foldl
    (fun m u => m.put (u - a) (s.viewUnit 0 place u)) (s.mem.region a n)

/-! Keeping what a write replaces. -/

/-- Keep what the unit at u holds before a part of the gang in focus writes it; the units of a line that a part writes in
a row stand in one record. -/
def State.noteUnit (s : State) (pid u : Nat) : State :=
  let old := s.mem.bytes u 8
  match s.unseen with
  | x :: xs =>
    if x.gid = s.g.gid ∧ x.pid = some pid ∧ x.reach = [] ∧ x.key + x.old.length = u ∧ u % 256 ≠ 0 then
      { s with unseen := { x with old := x.old ++ old } :: xs }
    else { s with unseen := ⟨s.g.gid, some pid, u, old, [], false⟩ :: s.unseen }
  | [] => { s with unseen := [⟨s.g.gid, some pid, u, old, [], false⟩] }

/-! Stores and atomics. -/

/-- A store of bytes at a key; it is one point for all the lines it touches (R157). -/
def State.writeAt (s : State) (pts key : Nat) (bs : List Byte) : State × Nat :=
  let ls := linesFor key bs.length
  let r := ls.foldl (fun a l => a.1.writeLineAt a.2 l) (s, s.writeTime pts ls)
  let t := { r.1 with mem := r.1.mem.put key bs, unseen := r.1.unseen.map (Unseen.patch key bs) }
  (t.notifyRange key bs.length, r.2)

/-- Of a packet slot that a gang has reserved, its stores up to its FENCE change the type byte alone for certain (R274). -/
def Unseen.hold (gid : Nat) (a b : Unseen) : Unseen :=
  if a.ring ∧ a.gid = gid then { b with old := b.old.take 1 ++ a.old.drop 1 } else b

/-- A store of the gang in focus. -/
def State.gangWrite (s : State) (pts key : Nat) (bs : List Byte) : State × Nat :=
  let r := s.writeAt pts key bs
  ({ r.1 with unseen := (s.unseen.zip r.1.unseen).map fun x => Unseen.hold s.g.gid x.1 x.2 }, r.2)

/-- An atomic on n bytes of one unit at a key, for a program time: the value it finds there, and what it leaves. Where another
gang's copy of the unit is not published it may find the contents from before the copy, and the unit is then left, whole, as
the atomic applied to them or as the copy's value (R165, R167). -/
def State.atomicAt (s : State) (pts key n : Nat) (f : Nat → Nat) : State × Nat × Nat :=
  let u := key / 8 * 8
  let (s, pts) := s.readAt pts key n
  match s.versions s.g.gid s.myDie u with
  | [_] =>
    let old := s.mem.le key n
    let r := s.gangWrite pts key (leBytes n (f old))
    (r.1, r.2, old)
  | vs =>
    let (k, s) := s.takeFree
    let v := vs.getD (Config.oldPick k % vs.length) []
    let old := leValue ((v.drop (key % 8)).take n)
    let w := (Memory.put (Memory.put [] 0 v) (key % 8) (leBytes n (f old))).bytes 0 8
    let now := s.mem.bytes u 8
    let (j, s) := s.takeFree
    let r := s.gangWrite pts u w
    (if v ≠ now ∧ Config.oldPick j % 2 = 1 then { r.1 with mem := r.1.mem.put u now } else r.1, r.2, old)

/-- A write by an agent that has no program time, a Referee, the control node or a peer: it follows everything. -/
def State.agentWrite (s : State) (key : Nat) (bs : List Byte) : State :=
  let top := (s.lines.map (·.rts)).foldl max 0
  (s.writeAt top key bs).1

/-- The greatest write time of any line, with which an instance starts: what was published before it starts is seen. -/
def State.topTime (s : State) : Nat := (s.lines.map (·.wts)).foldl max 0

/-- Set a sequencer's program time. -/
def State.setPts (s : State) (q p : Nat) : State := s.updG fun g => g.updSeq q fun x => { x with pts := p }

/-- An access of ticket n of sequencer q has had its point at a program time. One that issued before the SPLIT precedes the
fragment's too (R156). -/
def State.tookPoint (s : State) (q n p : Nat) : State :=
  let s := s.setPts q p
  if s.g.split ∧ n < s.g.splitTkt then s.setPts (1 - q) (max (s.g.seq (1 - q)).pts p) else s

/-- The lines of a cache of read leases hold 32 KiB (R15). -/
def l0Lines : Nat := 128

/-- The lease of a line read at its home at a program time: it ends with what the home slice granted that read, so that a
gang whose pts advances reads a later store within the bound of R162 (DEDUCED). -/
def State.leaseOf (s : State) (n p k : Nat) : LeaseEnt := 
  ⟨n, p + Config.lease k, s.mem.region (256 * n) 256, (s.lineInfo n).wts, none⟩

/-- Put a lease into a cache of them, in the place of an earlier one on its line. -/
def keepEnt (e : LeaseEnt) (l : List LeaseEnt) : List LeaseEnt := (e :: l.filter fun y => y.line != e.line).take l0Lines

/-- A load of sequencer q at the home of the line of n bytes at a key, with the lease it takes (R146, R157, R160): the state,
the new program time and the lease's end. A scratchpad line is not leased. -/
def State.readLeased (s : State) (q key n : Nat) : State × Nat × Nat :=
  let (t, p) := s.readAt (s.g.seq q).pts key n
  let e := t.leaseOf (lineOf key) p s.free
  (if bit key 55 then t else t.updG fun g => g.updSeq q fun x => { x with l0 := keepEnt e x.l0 }, p, e.until_)

/-- A lease a sequencer holds on the line of a key, still valid at its program time. -/
def Seq.leaseFor (x : Seq) (key : Nat) : Option LeaseEnt :=
  x.l0.find? fun e => e.line == lineOf key && !bit key 55 && decide (x.pts ≤ e.until_)

/-- The leases of a gang are dropped, so that it sees what its own copies wrote (R166, R177). -/
def Gang.dropLeases (g : Gang) : Gang :=
  { g with q0 := { g.q0 with l0 := [] }, q1 := { g.q1 with l0 := [] }, paths := [] }

/-- The bytes that an engine path's copies give for n bytes at a key, and the latest write time among them: at one point, at which
the lease of every line is valid (R157, R160). -/
def Gang.pathBytes (g : Gang) (pts key n : Nat) : Option (List Byte × Nat) :=
  if bit key 55 then none
  else
    let es := (linesFor key n).map fun l => g.paths.find? fun e => e.line == l && decide (pts ≤ e.until_)
    let w := ((es.filterMap id).map (·.wts)).foldl max 0
    if es.all fun e => e.any fun e => decide (w ≤ e.until_) then
      some (((es.filterMap id).flatMap fun e => e.data.bytes 0 256).drop (key % 256) |>.take n, w)
    else none

/-- One line of an engine's read at its home, with its place in the order; the path may keep it under its lease (R160). -/
def State.readPath (s : State) (pts n : Nat) : State × Nat :=
  let k := s.free
  let (t, p) := s.readLineAt pts n
  (if Config.pathKeeps k ∧ !bit (256 * n) 55 then
    t.updG fun g => { g with paths := keepEnt (t.leaseOf n p k) g.paths }
  else t, p)

/-- An engine's read of n bytes at a key for sequencer q (R149, R160): from copies that its path holds under valid leases, or
at home. Either way the program time covers what it has read, so that neither side of a split reads anything older
afterwards (R157). -/
def State.engRead (s : State) (q tkt key n : Nat) : State × List Byte :=
  let pts := (s.g.seq q).pts
  match s.g.pathBytes pts key n with
  | some (bs, w) => (s.tookPoint q tkt (max pts w), bs)
  | none =>
    let r := (linesFor key n).foldl (fun a l => a.1.readPath a.2 l) (s, s.readTime pts (linesFor key n))
    (r.1.tookPoint q tkt r.2).seen key n

/-- What sequencer q has read and written since a state took one point in the order, at its program time: every line it has
written takes that time, and no lease on one it has read ends before it (R157, R174, R270). -/
def State.onePoint (s s0 : State) (q : Nat) (reads : List (Nat × Nat)) : State :=
  let p := (s.g.seq q).pts
  let ls := reads.flatMap fun x => linesFor x.1 x.2
  { s with lines := s.lines.map fun l =>
      if l.wts ≠ (s0.lineInfo l.line).wts then { l with wts := p, rts := max l.rts p }
      else if ls.contains l.line then { l with rts := max l.rts p } else l }

/-- The units of memory, scratchpads apart, that hold a write which is not published. -/
def State.openUnits (s : State) : List Nat :=
  ((s.unseen.filter fun x => !bit x.key 55).flatMap fun x => (List.range (x.old.length / 8)).map fun k => x.key + 8 * k).eraseDups

/-- Write units of memory. -/
def Memory.putUnits (m : Memory) (l : List (Nat × List Byte)) : Memory := l.foldl (fun m x => m.put x.1 x.2) m

/-- What an operation that found the unit at u as `v` leaves there, where memory held it in a state: a unit it has not written is
as it was; of one that it has, the whole of what it wrote, or, where it did not find the newest contents, the copy's value
(R165, R167). -/
def State.closeUnit (t s : State) (u : Nat) (v : List Byte) : State :=
  let w := t.mem.bytes u 8
  let now := s.mem.bytes u 8
  if w = v then { t with mem := t.mem.put u now }
  else
    let (j, t) := t.takeFree
    { t with
      mem := if v ≠ now ∧ Config.oldPick j % 2 = 1 then t.mem.put u now else t.mem
      unseen := t.unseen.map fun x => Unseen.hold t.g.gid x (x.patch u w) }

/-- Do something atomic to memory as the gang in focus obtains it: of each unit that a copy of another gang has written without
publishing it, it finds one of the contents whole and writes the unit whole (R165, R167, R174). -/
def State.inView (s : State) (f : State → State) : State :=
  if s.openUnits = [] then f s
  else
    let found := s.openUnits.map fun u => (u, s.viewUnit s.g.gid s.myDie u)
    let t := f { s with
      mem := s.mem.putUnits found, unseen := s.unseen.filter (fun x => bit x.key 55), free := s.free + 1 }
    found.foldl (fun t x => t.closeUnit s x.1 x.2) { t with unseen := t.unseen ++ s.unseen.filter (fun x => !bit x.key 55) }

/-! Publication (R169 to R171). -/

/-- Publish lines that copies have written: each takes a write time beyond every lease, and the publisher's time is
beyond it. -/
def State.publishLines (s : State) (pts : Nat) (ls : List Nat) : State × Nat :=
  ls.foldl (fun a l => a.1.writeLineAt a.2 l) (s, pts)

/-- The dies a scope below SYS reaches from a die (R154). -/
def scopeDies (scope die : Nat) : List Nat := if scope = 1 then [die] else [0, 1, 2, 3]

/-- A write has been published to a place at a time. -/
def Unseen.addReach (t : Nat) (x : Unseen) (place : Nat) : Unseen :=
  if x.reach.any fun r => r.1 == place && decide (r.2 ≤ t) then x else { x with reach := (place, t) :: x.reach }

/-- A publication of a gang on a die covers a write: a copy of a part it names; with `own`, a local write of the gang; or
another's, which had been published to the die by the gang's time (R170). -/
def Unseen.covered (gid : Nat) (own : Bool) (pids : List Nat) (die pts : Nat) (x : Unseen) : Bool :=
  (x.gid == gid && (match x.pid with
    | none => own
    | some p => pids.contains p)) || x.reach.any fun r => r.1 == die && decide (r.2 ≤ pts)

/-- The records left when those that a test selects are published to all: nobody obtains what stood before such a write
(R165, R171). `cuts` holds the places of the selected ones that are newer. -/
def shownToAll (f : Unseen → Bool) : List (Nat × Nat) → List Unseen → List Unseen
  | _, [] => []
  | cuts, x :: xs =>
    if f x then shownToAll f (if x.ring then cuts else (x.key, x.old.length) :: cuts) xs
    else cuts.foldl (fun l c => l.flatMap (Unseen.without c.1 c.2)) [x] ++ shownToAll f cuts xs

/-- Whose publications a barrier's entry carries, with one more: of one gang the latest (R170). -/
def Barrier.note (e : Barrier) (gid die t : Nat) : Barrier :=
  let t' := ((e.times.filter (·.1 == gid)).map (·.2.2)).foldl max t
  { e with times := (gid, die, t') :: e.times.filter (·.1 != gid) }

/-- The barriers that copies of the gang in focus name carry a time at which these were published (R171, R246). -/
def State.noteBars (s : State) (bs : List Nat) (t : Nat) : State :=
  match s.launch s.g.info.lid with
  | none => s
  | some l => bs.foldl (fun s b => s.updDie l.info.home fun d =>
      { d with barriers := updAt (32 * l.window + b) (fun e => e.note s.g.gid s.myDie t) d.barriers }) s

/-- What a publication at a time does to a copy's record: it is gone at SYS scope, and has the time below it. -/
def Wrote.shown (scope t : Nat) (f : Wrote → Bool) (w : Wrote) : Option Wrote :=
  if !f w then some w else if scope = 3 then none else some { w with time := some t }

/-- Publish the copies of the gang in focus that a test selects, and, when `own`, every local write of its engines, at a
scope for a program time (R170 to R172): each line takes a write time beyond every lease, once, and the publisher's time is
beyond it. At GANG scope nothing reaches another agent; at DIE and PKG scope the dies it names are reached, and at SYS scope
everybody, which is when a watched signal sends its message (R364). -/
def State.publish (s : State) (scope pts : Nat) (f : Wrote → Bool) (own : Bool := true) : State × Nat :=
  if scope = 0 then (s, pts)
  else
    let ws := s.g.wrote.filter f
    let hit := Unseen.covered s.g.gid own ((ws.map (·.pid)).eraseDups) s.myDie pts
    let (t, p) := s.publishLines ((ws.filterMap (·.time)).foldl max pts)
      (((ws.filter fun w => w.time.isNone).map (·.line)).eraseDups)
    let t := (t.noteBars ((ws.filterMap (·.bar)).eraseDups) p).updG fun g =>
      { g with wrote := g.wrote.filterMap (Wrote.shown scope p f) }
    if scope = 3 then
      ((s.unseen.filter fun x => hit x && !x.ring).foldl (fun t x => t.notifyRange x.key x.old.length)
        { t with unseen := shownToAll hit [] t.unseen }, p)
    else ({ t with unseen := t.unseen.map fun x => if hit x then (scopeDies scope s.myDie).foldl (Unseen.addReach p) x else x }, p)

/-- A copy belongs to a batch numbered up to n, in rolling order. -/
def Wrote.upTo (n : BitVec 16) (w : Wrote) : Bool :=
  match w.batch with
  | none => false
  | some m => decide ((n - m).toNat < 2 ^ 15)

/-- Publish every batch sealed up to n at a scope, for sequencer q (R171). -/
def State.publishBatches (s : State) (scope q : Nat) (n : BitVec 16) : State :=
  let r := s.publish scope (s.g.seq q).pts (Wrote.upTo n)
  r.1.setPts q r.2

/-- Publish every copy of the gang at a scope, for sequencer q (R171: SSTEP, and the end of an instance). -/
def State.publishAll (s : State) (scope q : Nat) : State :=
  let r := s.publish scope (s.g.seq q).pts fun _ => true
  r.1.setPts q r.2

/-- Sequencer q acquires what was published up to a time (R169). -/
def State.acquire (s : State) (q t : Nat) : State := s.setPts q (max (s.g.seq q).pts t)

/-! Values (R144). -/

/-- A value of n bytes as it lands. -/
def extended (sign : Bool) (n v : Nat) : Word := if sign then wordOf (sextNat v (8 * n)) else BitVec.ofNat 64 (v % 2 ^ (8 * n))

/-- The functions of AMO on n bytes (R145). -/
def amoFn (f n old x : Nat) : Nat :=
  let m := 2 ^ (8 * n)
  let a := old % m
  let b := x % m
  let sa := sextNat old (8 * n)
  let sb := sextNat x (8 * n)
  match f with
  | 0 => (a + b) % m
  | 1 => a &&& b
  | 2 => a ||| b
  | 3 => a ^^^ b
  | 4 => if sa < sb then a else b
  | 5 => if sa < sb then b else a
  | 6 => min a b
  | _ => max a b

/-- What an atomic leaves in memory (R145, R314). -/
def AccKind.newValue (k : AccKind) (n old : Nat) : Nat :=
  let m := 2 ^ (8 * n)
  match k with
  | .amo f x => amoFn f n old x.toNat
  | .swap x => x.toNat % m
  | .cas e x => if old = e.toNat % m then x.toNat % m else old
  | .incb b => if old < b.toNat % m then old + 1 else old
  | .vset b v => if v then (if bit old b then old else old + 2 ^ b) else (if bit old b then old - 2 ^ b else old)
  | _ => old

/-- What an access gives its destination (R145, R314). -/
def SeqAcc.result (a : SeqAcc) (old : Nat) : Word :=
  match a.kind with
  | .vset b _ => if bit old b then 1 else 0
  | _ => extended a.sign a.size old

end Sys2Proof.Machine
end

