-- ==== Sys2Proof/Machine/SeqEvents.lean ====
section
/-! DEFINITION. The events of a gang's sequencers and engines: accesses being performed (R145 to R150, R157 to R162),
walks (R139, R140), a fragment's end (R96), counts running out (R100), segments arriving (R104 to R107), landings (R45),
deferred causes (R371), the watchdog (R325) and errors (R322). An event whose condition does not hold changes nothing. -/

namespace Sys2Proof.Machine

/-! Accesses of a sequencer. -/

/-- The bytes a load has read at a key, with those of older buffered stores of its sequencer laid over them, youngest
last (R146). -/
def overlaid (bs : List Byte) (sb : List StoreEnt) (key tkt : Nat) : List Byte :=
  let m := (sb.filter fun e => decide (e.tkt < tkt)).foldl (fun m e => m.put e.key e.data) (Memory.put [] key bs)
  m.bytes key bs.length

/-- Whether every byte of a load stands in the youngest of the older buffered stores. -/
def coveredBy (sb : List StoreEnt) (key n tkt : Nat) : Bool :=
  match (sb.filter fun e => decide (e.tkt < tkt)).getLast? with
  | some e => decide (e.key ≤ key) && decide (key + n ≤ e.key + e.data.length)
  | none => false

/-- The access of a ticket leaves its sequencer, its token lowered. -/
def State.endAcc (s : State) (a : SeqAcc) : State :=
  (s.updG fun g => g.updSeq a.q fun x => { x with acc := x.acc.filter (·.tkt != a.tkt) }).lower a.q a.sys a.tok

/-- The value of an access reaches its register. -/
def State.showAcc (s : State) (a : SeqAcc) (v : Word) : State := s.updG fun g => g.updSeq a.q fun x => x.setReg a.d v

/-- Keep a changed access. -/
def State.putAcc (s : State) (a : SeqAcc) : State :=
  s.updG fun g => g.updSeq a.q fun x => { x with acc := x.acc.map fun b => if b.tkt = a.tkt then a else b }

/-- A load has its value for good: it completes, or its register shows the value before its token clears (R44). -/
def State.loadDone (s : State) (a : SeqAcc) (v : Word) (first : Bool) : State :=
  if first then (s.showAcc a v).putAcc { a with shown := true, got := some (v, 0) } else (s.showAcc a v).endAcc a

/-- A load or atomic whose register shows its value already completes: the value is written again, over whatever has landed
there since (R44, R46). -/
def State.shownDone (s : State) (a : SeqAcc) : State :=
  match a.got with
  | some (v, _) => (s.showAcc a v).endAcc a
  | none => s.endAcc a

/-- A load performed at its home at its place in the order, with the lease it takes (R157, R160). -/
def State.loadHome (s : State) (a : SeqAcc) (first : Bool) : State :=
  let (s, p, _) := s.readLeased a.q a.key a.size
  let (s, bs) := (s.tookPoint a.q a.tkt p).seen a.key a.size
  s.loadDone a (a.result (leValue bs)) first

/-- A load served from a lease that is still valid has its point at the program time; a lease holds the line's bytes by their
offset (R156, R160). -/
def State.loadLease (s : State) (a : SeqAcc) (e : LeaseEnt) : State :=
  (s.tookPoint a.q a.tkt (max (s.g.seq a.q).pts e.wts)).loadDone a
    (a.result (leValue (e.data.bytes (a.key % 256) a.size))) false

/-- A load performed ahead of older buffered stores (R146, R161). It is done when nothing but stores precedes it unperformed
and the youngest of them covers it whole: its place in the order is right after that store's. Else it is to be confirmed by
the lease it was read under. DEDUCED: R161 asks for no confirmation of buffered bytes, but where another access stands between
the store and the load, only one keeps the order of R157. -/
def State.loadEarly (s : State) (a : SeqAcc) : State :=
  let x := s.g.seq a.q
  let v (bs : List Byte) : Word := a.result (leValue (overlaid bs x.sb a.key a.tkt))
  if coveredBy x.sb a.key a.size a.tkt ∧ !s.g.olderAcc a.q a.tkt then
    (s.tookPoint a.q a.tkt x.pts).loadDone a (v (s.mem.bytes a.key a.size)) false
  else
    let (s, p, end_) := s.readLeased a.q a.key a.size
    let (s, bs) := (s.setPts a.q p).seen a.key a.size
    s.putAcc { a with got := some (v bs, end_) }

/-- LD and LDX. A load is performed early ahead of stores of its own sequencer alone (R161). -/
def State.performLoad (s : State) (a : SeqAcc) (how : AccHow) : State :=
  if s.g.olderStore a.q a.tkt then
    if how = .early ∧ !s.g.otherStore a.q a.tkt ∧ !s.g.olderUnread a.q a.tkt ∧ !s.g.olderEng a.q a.tkt
        ∧ !s.g.sysFlight a.q ∧ a.got.isNone then
      s.loadEarly a
    else s
  else if !s.g.inOrder a.q a.tkt ∨ a.got.isSome then s
  else match how, (s.g.seq a.q).leaseFor a.key with
    | .lease, some e => s.loadLease a e
    | how, _ => s.loadHome a (how == .valueFirst)

/-- An atomic: one point, its read and its write adjacent (R145, R157, R160). -/
def State.performAtomic (s : State) (a : SeqAcc) (first : Bool) : State :=
  if !s.g.inOrder a.q a.tkt then s
  else
    let (s, p, old) := s.atomicAt (s.g.seq a.q).pts a.key a.size (a.kind.newValue a.size)
    (s.tookPoint a.q a.tkt p).loadDone a (a.result old) first

/-- PREF (R147): its line under a read lease, or nothing for one that was dropped. -/
def State.performPref (s : State) (a : SeqAcc) : State :=
  if a.size = 0 then s.endAcc a
  else
    let (s, p, _) := s.readLeased a.q a.key a.size
    (s.tookPoint a.q a.tkt p).endAcc a

/-- One more uncorrectable error at the die of the gang in focus (R366). -/
def State.countHard (s : State) : State :=
  s.updDie s.myDie fun d => { d with health := { d.health with softU := d.health.softU + 1 } }

/-- An uncorrectable error on a sequencer access (R142): the register keeps its value, the token clears, and the cause is
deferred. -/
def State.accError (s : State) (q : Nat) (va : Word) (kind : Nat) : State :=
  s.countHard.updG fun g => g.defer q 0 ⟨.ecc, infoOf kind (va.toNat % 2 ^ 56), 0⟩

/-- A load, atomic or prefetch is performed. -/
def State.performAcc (s : State) (a : SeqAcc) (how : AccHow) : State :=
  if a.shown then s.shownDone a
  else match how with
    | .error kind => if a.kind = .pref then s.performPref a else (s.accError a.q a.va kind).endAcc a
    | _ =>
      match a.kind with
      | .load => s.performLoad a how
      | .pref => s.performPref a
      | _ => s.performAtomic a (how == .valueFirst)

/-- A buffered store leaves its buffer, its token lowered. -/
def State.endStore (s : State) (q : Nat) (e : StoreEnt) : State :=
  let t := s.updG fun g => g.updSeq q fun x => { x with sb := x.sb.filter (·.tkt != e.tkt) }
  if e.tokened then t.lower q e.sys e.tok else t

/-- A buffered store is performed at its home, in its place in the order (R146, R157, R160). -/
def State.performStore (s : State) (q : Nat) (e : StoreEnt) (how : AccHow) : State :=
  match how with
  | .error kind => (s.accError q e.va kind).endStore q e
  | _ =>
    if !s.g.inOrder q e.tkt then s
    else
      let (s, p) := s.gangWrite (s.g.seq q).pts e.key e.data
      (s.tookPoint q e.tkt p).endStore q e

/-- A gang's buffered stores may be performed: it is on its slot, or stopped; a save keeps the others until the context
resumes (R163, R310). -/
def Gang.mayStore (g : Gang) : Bool := g.place.running || g.stopping

/-- The access or store of a ticket, unless nothing answers for its line (R369); a prefetch that was dropped has none (R147). -/
def State.performTicket (s : State) (tkt : Nat) (how : AccHow) : State :=
  match (s.g.q0.acc ++ s.g.q1.acc).find? (·.tkt == tkt) with
  | some a => if a.size = 0 || s.reachesKey a.key then s.performAcc a how else s
  | none =>
    if !s.g.mayStore then s
    else match s.g.q0.sb.find? (·.tkt == tkt), s.g.q1.sb.find? (·.tkt == tkt) with
    | some e, _ => if s.reachesKey e.key then s.performStore 0 e how else s
    | none, some e => if s.reachesKey e.key then s.performStore 1 e how else s
    | none, none => s

/-- SEQ_ACCESS_COMPLETE (R145, R146, R157). -/
def execSeqAccessComplete (gid tkt : Nat) (how : AccHow) (s : State) : Host.Outcome State Fault Refusal :=
  (s.withGang gid fun s => s.performTicket tkt how).next

/-- LOAD_CONFIRM (R161), once everything before the load has had its point (R157): the value stands while its lease covers
pts, and the load has had its point then; else the load is performed again. -/
def execLoadConfirm (gid tkt : Nat) (s : State) : Host.Outcome State Fault Refusal :=
  (s.withGang gid fun s =>
    match (s.g.q0.acc ++ s.g.q1.acc).find? (·.tkt == tkt) with
    | none => s
    | some a =>
      match a.got with
      | none => s
      | some (v, until_) =>
        if a.shown ∨ !s.g.inOrder a.q a.tkt then s
        else if !s.reachesKey a.key then s
        else if (s.g.seq a.q).pts ≤ until_ then (s.tookPoint a.q a.tkt (s.g.seq a.q).pts).loadDone a v false
        else s.loadHome a false).next

/-- PTS_ADVANCE (R162). -/
def execPtsAdvance (gid n : Nat) (s : State) : Host.Outcome State Fault Refusal :=
  (s.withGang gid fun s => (s.setPts 0 (s.g.q0.pts + n)).setPts 1 ((s.g.seq 1).pts + n)).next

/-- TLB_WALK_COMPLETE (R139, R140): faulting translations are never cached. -/
def execTlbWalkComplete (die part va acc : Nat) (s : State) : Host.Outcome State Fault Refusal :=
  (match s.walk die part va acc with
    | .ok _ e => s.fillShared die e
    | _ => s).next

/-! Engine global accesses (R149, R150). -/

/-- The bytes one engine's access has. -/
def EngKind.bytes : EngKind → Nat
  | .gld len _ => len
  | .gst len _ _ => len
  | .glde _ size => size
  | .gste size _ => size
  | .gamo _ _ _ => 8

/-- The kind of access a translation is made for. -/
def EngKind.acc : EngKind → Acc
  | .gld _ _ => 0
  | .gst _ _ _ => 1
  | .glde _ _ => 0
  | .gste _ _ => 1
  | .gamo _ _ _ => 2

/-- The local offset and bytes that GLD and GST use. -/
def EngKind.localSide : EngKind → Option (Nat × Nat)
  | .gld len off => some (off, len)
  | .gst len off _ => some (off, len)
  | _ => none

/-- The functions of GAMO (R149). -/
def gamoFn (f old x : Nat) : Nat :=
  match f with
  | 0 => (old + x) % 2 ^ 64
  | 1 => old ||| x
  | 2 => max old x
  | _ => x

/-- One engine's part leaves the gang, its token lowered. -/
def State.endEng (s : State) (e : EngAcc) : State :=
  (s.updG fun g => { g with eng := g.eng.filter fun x => x.tkt != e.tkt || x.lane != e.lane }).lower e.q false e.tok

/-- A fault of one engine's part parks the engine (R142). -/
def State.engFault (s : State) (e : EngAcc) (c : Cause) (info : Word) : State :=
  (s.updG fun g => g.park e.lane e.head e.slot c info).endEng e

/-- Write the 8-byte units of a GLD's bytes that a test selects by their number. -/
def State.gldUnits (s : State) (e : EngAcc) (off : Nat) (bs : List Byte) (f : Nat → Bool) : State :=
  ((List.range (bs.length / 8)).filter f).foldl (fun s k =>
    s.localPut e.lane (off + 8 * k) ((bs.drop (8 * k)).take 8)) s

/-- A GLD has its bytes: it completes with all of them written; or, by a free choice, it has had its point alone, and a local
read finds some of its units written before the token clears (R150). -/
def State.gldLand (s : State) (e : EngAcc) (off : Nat) (bs : List Byte) : State :=
  let n := bs.length / 8
  let k := s.free
  let s := { s with free := s.free + n + 1 }
  if Config.gldAhead k then
    (s.gldUnits e off bs fun i => Config.gldAhead (k + 1 + i)).updG fun g =>
      { g with eng := g.eng.map fun x => if x.tkt = e.tkt ∧ x.lane = e.lane then { x with got := bs } else x }
  else (s.localPut e.lane off bs).endEng e

/-- What a GST stores: of each 8-byte unit that a local write has changed since issue, the value then or the value now
(R150). -/
def State.gstBytes (s : State) (e : EngAcc) (off : Nat) (src : List Byte) : State × List Byte :=
  let now := s.localBytes e.lane off src.length
  let unit (k : Nat) : List Byte :=
    ((if Config.gstLate (s.free + k) then now else src).drop (8 * k)).take 8
  if now = src then (s, src)
  else ({ s with free := s.free + src.length / 8 }, (List.range (src.length / 8)).flatMap unit)

/-- A store of one engine's part at its place in the order. -/
def State.engWrite (s : State) (e : EngAcc) (pts key : Nat) (bs : List Byte) : State :=
  let (s, p) := s.gangWrite pts key bs
  s.tookPoint e.q e.tkt p

/-- One engine's part is performed at a key. -/
def State.engPerform (s : State) (e : EngAcc) (key : Nat) : State :=
  let es (n : BitVec 4) (v : Nat) (s : State) : State := (s.landOne (.esc e.lane n (BitVec.ofNat 64 v))).endEng e
  match e.kind with
  | .gld len off =>
    let (s, bs) := s.engRead e.q e.tkt key len
    s.gldLand e off bs
  | .gst _ off src =>
    let (s, bs) := s.gstBytes e off src
    (s.engWrite e (s.g.seq e.q).pts key bs).endEng e
  | .glde n size =>
    let (s, bs) := s.engRead e.q e.tkt key size
    es n (leValue bs) s
  | .gste size v => (s.engWrite e (s.g.seq e.q).pts key (leBytes size v.toNat)).endEng e
  | .gamo n f v =>
    let (s, p, old) := s.atomicAt (s.g.seq e.q).pts key 8 fun x => gamoFn f x v.toNat
    es n old (s.tookPoint e.q e.tkt p)

/-- The local fault of a part, by its rank in R141: alignment before the translation, the allocation after it. -/
def State.engLocal (s : State) (e : EngAcc) (alloc : Bool) : Option (Cause × Word) :=
  match e.kind.localSide with
  | none => none
  | some (off, n) =>
    if !alloc then (if off % 8 ≠ 0 then some (.align, infoOf 1 off) else none)
    else if s.g.inAlloc off n then none else some (.prot, infoOf 5 off)

/-- A GLD that has had its point completes with all its bytes. -/
def State.gldEnd (s : State) (e : EngAcc) : State :=
  match e.kind with
  | .gld _ off => (s.localPut e.lane off e.got).endEng e
  | _ => s.endEng e

/-- One engine's part comes to its point: every check of R141, then the access, or an uncorrectable error. DESIGN CHOICE: where
the global address and the local offset of a GLD or GST fail at one rank, R141 gives no order, and the fault of the global
address is reported. -/
def State.engStep (s : State) (e : EngAcc) (ecc : Nat) : State :=
  if !e.got.isEmpty then s.gldEnd e else
  let loc := s.locateFor (some e.tkt) [] s.myDie s.g.info.part false e.va.toNat e.kind.bytes e.kind.acc
  let early (f : AFault) : Bool := f == (.page, 6) || f == (.align, 1)
  let other (s : State) : State :=
    match loc with
    | .fault f => s.engFault e f.1 (faultInfo f e.va.toNat)
    | .wait => s
    | .at_ key ent =>
      match s.engLocal e true with
      | some (c, i) => s.engFault e c i
      | none =>
        if ecc ≠ 0 then s.countHard.engFault e .ecc (infoOf ecc (e.va.toNat % 2 ^ 56))
        else
          let s := match ent with
            | some t => s.fillShared s.myDie t
            | none => s
          s.engPerform e key
  match loc with
  | .fault f =>
    if early f then s.engFault e f.1 (faultInfo f e.va.toNat)
    else match s.engLocal e false with
      | some (c, i) => s.engFault e c i
      | none => other s
  | _ =>
    match s.engLocal e false with
    | some (c, i) => s.engFault e c i
    | none => other s

/-- ENGINE_ACCESS_COMPLETE. -/
def execEngineAccessComplete (gid tkt lane ecc : Nat) (s : State) : Host.Outcome State Fault Refusal :=
  (s.withGang gid fun s =>
    match s.g.eng.find? fun e => e.tkt == tkt && e.lane == lane with
    | none => s
    | some e => if s.g.inOrder e.q e.tkt then s.engStep e ecc else s).next

/-! Ends and counts. -/

/-- A result in flight to a register of sequencer 1. -/
def Landed.ofFragment : Landed → Bool
  | .sreg q _ _ => q == 1
  | .sysread q _ _ => q == 1
  | .pred q _ _ => q == 1
  | .queue q _ _ => q == 1
  | _ => false

/-- The fragment is gone: the gang's pts is the greater of the two, and what was in flight to its registers is lost. -/
def Gang.joinFragment (g : Gang) : Gang :=
  let fl := g.fl.map fun x => { x with what := x.what.filter fun w => !w.ofFragment }
  let q0 := { g.q0 with pts := max g.q0.pts g.q1.pts }
  { g with split := false, q0 := q0, q1 := { Seq.start with utlb := g.q1.utlb }, fl := fl }

/-- The fragment has come to its end, or to its drain point under the endgame, at which it ends (R96, R307). -/
def Gang.fragmentDone (g : Gang) : Bool :=
  g.q1.block == .fragmentOver || (g.drainKind == .discard && g.q1.atDrain)

/-- FRAGMENT_END (R96): its tokens are clear and its stores performed; its registers are discarded. -/
def execFragmentEnd (gid : Nat) (s : State) : Host.Outcome State Fault Refusal :=
  (s.withGang gid fun s =>
    if s.g.split ∧ s.g.fragmentDone ∧ s.g.q1.toks.all (· == 0) ∧ s.g.q1.sb.isEmpty ∧ !s.g.inSys then
      s.updG Gang.joinFragment
    else s).next

/-- WAIT_COUNT_EXPIRY (R100). -/
def execWaitCountExpiry (gid q : Nat) (s : State) : Host.Outcome State Fault Refusal :=
  (s.withGang gid fun s =>
    if (s.g.seq q).block = .wait 0 then s.updG fun g => g.updSeq q fun x => { x with block := .none } else s).next

/-- A frame of a slot of a die. -/
def State.updFrame (s : State) (die slot frame : Nat) (f : SegFrame → SegFrame) : State :=
  s.updDie die fun d => { d with slots := updAt slot (fun sl => { sl with frames := updAt frame f sl.frames }) d.slots }

/-- The frame a segment fetch fills, when it is being filled. -/
def State.fillingFrame (s : State) (die slot frame : Nat) : Option SegFrame :=
  match (s.die die).slots[slot]? with
  | none => none
  | some sl => (sl.frames[frame]?).filter fun f => f.fill == .filling

/-- What a frame holds when its filling is over. -/
def State.fillFrame (s : State) (die slot frame : Nat) (m : Memory) (st : FrameFill) : State :=
  s.updFrame die slot frame fun f => { f with fill := st, data := m }

/-- SEGMENT_FETCH_COMPLETE (R104, R105, R107). -/
def execSegmentFetchComplete (die slot frame ecc : Nat) (s : State) : Host.Outcome State Fault Refusal :=
  (match s.fillingFrame die slot frame with
    | none => s
    | some f =>
      if ecc ≠ 0 then s.fillFrame die slot frame [] (.failed ⟨.ecc, infoOf ecc 0, 7⟩)
      else match s.readSegment die f 4 f.base f.len 0 [] with
        | (t, .ok m) => t.fillFrame die slot frame m .resident
        | (t, .error (some va)) => t.fillFrame die slot frame [] (.failed (segExc 5 va 7))
        | (_, .error none) => s).next

/-- RESULT_LANDING (R45, R46). -/
def execResultLanding (gid : Nat) (s : State) : Host.Outcome State Fault Refusal :=
  (s.withGang gid State.landDue).next

/-- EMPTY_BUNDLE (R26): a bundle with no slot word issues; fetch goes on. -/
def execEmptyBundle (s : State) : Host.Outcome State Fault Refusal :=
  (if s.cur.ready && !s.cur.done then s.finish else s).next

/-! Traps that no slot word raises. -/

/-- The bundle found at an address comes up in sequencer q, before its first slot is looked at. -/
def State.atBundle (s : State) (q head next : Nat) (b : Bundle) : State :=
  { s with cur :=
    { q := q, slot := 7, lit := b.lit, head := head, next := next, bits := b.head.bits, act := 0, sp := none,
      delay := (s.g.seq q).xfer.isSome, ready := false, done := false, tkt0 := 0, issued := s.cur.issued,
      woke := s.cur.woke } }

/-- A bundle of a fragment whose head is the END of a copied frame (R96); a trap handler's bundles are not the
fragment's. -/
def State.copiedEnd (s : State) : Bool :=
  s.g.isFragment s.cur.q && !s.g.inSys && s.seq.frames.any fun f => f.copied && f.fin == s.cur.head

/-- The instruction of a slot word of a bundle that has passed decode. -/
def slotInstr (w : Nat × Slotword) : Option (Nat × Instr) :=
  match decodeWord (slotKindOf w.1) w.2 with
  | .ok i => some (w.1, i)
  | .error _ => none

/-- Whether the state has a slot's instruction before it. -/
def State.atSlot (s : State) (slot : Nat) : State := { s with cur := { s.cur with slot := slot } }

/-- The words of a bundle that its guards and stages let execute. -/
def State.onWords (s : State) (b : Bundle) : List (Nat × Instr) :=
  (b.words.filterMap slotInstr).filter fun x => (s.atSlot x.1).enabled x.2

/-- The wait mask of a bundle is clear (R43). -/
def State.maskClear (s : State) (b : Bundle) : Bool :=
  !(List.range 8).any fun n => b.head.wait.getLsbD n && s.tokenSet (BitVec.ofNat 3 n)

/-- Nothing that comes before the operands holds a bundle: its wait mask is clear, and so are the units, tokens and rooms that its
words need (R42, R43, R48). -/
def State.mayIssue (s : State) (b : Bundle) : Bool :=
  s.maskClear b && (s.onWords b).all fun x => (s.atSlot x.1).structFree x.2

/-- An ILL of the head: its bits in [47:32] (R323). -/
def headExc (sub : Nat) (bits : BitVec 16) : Exc := ⟨.ill, infoOf sub (bits.toNat * 2 ^ 24), 7⟩

/-- The first fault decode finds in a bundle, with its rank in R40's table, and whether a slot's own instruction raises it
(R40, R41). `bad` says that the head or the line is refused; of a bundle that runs past its line the words that stand in
the line are decoded. The trap at the END of a copied frame is raised at issue: once nothing holds the bundle (R96). DESIGN CHOICE:
it comes before a cause that an operand shows, which R41's order does not place. -/
def State.decodeFault (s : State) (b : Bundle) (bad : Bool := false) : Option (Nat × Nat × Exc × Option Instr) :=
  let one (w : Nat × Slotword) : Option (Nat × Nat × Exc × Option Instr) :=
    let s := { s with cur := { s.cur with slot := w.1 } }
    match decodeWord (slotKindOf w.1) w.2 with
    | .error .reservedOpcode => some (0, w.1, illWord 0x01 w.2 w.1, none)
    | .error .reservedField => some (1, w.1, illWord 0x02 w.2 w.1, none)
    | .ok i => (s.staticFault i).map fun f => (f.1, w.1, f.2, some i)
  let line := if bad then [(if b.head.slots.isEmpty then 4 else 5, 7, headExc 0x05 b.head.bits, none)] else []
  let own := if s.copiedEnd && s.mayIssue b then [(11, 7, headExc 0x09 b.head.bits, none)] else []
  (b.words.filterMap one ++ line ++ own).foldl (fun a f =>
    match a with
    | none => some f
    | some g => if f.1 < g.1 then some f else some g) none

/-- The sequencers that take turns: the handler's in SYS mode, else both while a split runs (R96, R321). -/
def Gang.turns (g : Gang) : List Nat :=
  match g.mode with
  | .sys h => [h.q]
  | .user => if g.split then [0, 1] else [0]

/-- A sequencer of a gang may fetch: the gang is on a slot, not stopped, and not frozen by a pre-emption, and neither a freeze nor a
block of its own keeps the sequencer (R321, R340). -/
def Gang.fetches (g : Gang) (q : Nat) : Bool :=
  g.place.running && !g.stopping && !g.frozen && g.turns.contains q && (g.seq q).block == .none

/-- RESERVED_ENCODING (R40, R41): a head or a line that is refused, a word that no instruction has, or the END of a copied
frame. -/
def execReservedEncoding (gid q : Nat) (s : State) : Host.Outcome State Fault Refusal :=
  (s.withGang gid fun s =>
    if !s.g.fetches q then s else
    let fault (head : Nat) (f : Option (Nat × Nat × Exc × Option Instr)) : State :=
      match f with
      | some (_, _, e, none) => s.trapEnter q e head
      | _ => s
    match s.fetch (s.g.seq q).pc (s.g.seq q).atEnd with
    | .bad head b => fault head ((s.atBundle q head head b).decodeFault b true)
    | .bundle head next b => fault head ((s.atBundle q head next b).decodeFault b)
    | _ => s).next

/-- FETCH_FAULT (R80, R81, R107): TRAPPC is the address fetched (R324); an error raised as ECC is counted (R366). -/
def execFetchFault (gid q : Nat) (s : State) : Host.Outcome State Fault Refusal :=
  (s.withGang gid fun s =>
    if !s.g.fetches q then s else
    match s.fetch (s.g.seq q).pc (s.g.seq q).atEnd with
    | .fault pc e =>
      let t := if e.cause = .ecc then s.countHard else s
      (t.dropFailed (pc / 2 ^ 16)).trapEnter q e pc (e.pastSegment pc)
    | .absent seg =>
      match (s.forSeq q).askSegment seg 7 with
      | .trap e => s.trapEnter q e (s.g.seq q).pc
      | _ => s
    | _ => s).next

/-- DEFERRED_TRAP (R371): the first cause held is taken before the next bundle issues; a context that has drained to be saved
keeps it. -/
def execDeferredTrap (gid : Nat) (s : State) : Host.Outcome State Fault Refusal :=
  (s.withGang gid fun s =>
    match s.g.deferred with
    | [] => s
    | (q, _, e) :: r =>
      if s.g.place.running && !s.g.inSys && !s.g.holdsCauses && !s.g.stopping then
        (s.wakeSlot.updG fun g => { g with deferred := r, found := min g.found r.length }).trapNext (if s.g.split then q else 0) e
      else s).next

/-- WATCHDOG_EXPIRY (R325): a handler has run for 50 us. -/
def execWatchdogExpiry (gid : Nat) (s : State) : Host.Outcome State Fault Refusal :=
  (s.withGang gid fun s =>
    match s.g.mode with
    | .user => s
    | .sys h => if h.since + 50000 ≤ s.now s.myDie then s.killNow 7 (faultWord s.g.trapCause.toNat s.g.trapInfo) else s).next

/-- SOFT (R322): an uncorrectable soft error in register state freezes the gang, always. One that a pre-emption has frozen already
(R340) takes the trap when its context goes on, before a bundle issues (DEDUCED). -/
def execSoft (gid sub lane : Nat) (s : State) : Host.Outcome State Fault Refusal :=
  (s.withGang gid fun s =>
    if s.g.place.running && !s.g.stopping then
      let (n, s) := s.countHard.takeFree
      let e : Exc := ⟨.soft, if sub = 2 then infoOf 2 (lane % 16) else infoOf 1 0, (Config.softSlot n).toNat⟩
      if s.g.frozen then s.updG fun g => g.defer 0 0 e else s.wakeSlot.trapNext 0 e
    else s).next

/-- CORRECTED_ERROR (R322, R366): nothing is raised, and it is counted. -/
def execCorrectedError (die : Nat) (data : Bool) (s : State) : Host.Outcome State Fault Refusal :=
  (s.updDie die fun d =>
    { d with health := if data then { d.health with eccC := d.health.eccC + 1 }
        else { d.health with softC := d.health.softC + 1 } }).next

end Sys2Proof.Machine
end

