-- ==== Sys2Proof/Machine/RetUnit.lean ====
section
/-! DEFINITION. The Retrieval Unit (R253 to R270): families, tables and chains, and what RPROBE, RINS, RDEL, RMIG, RRET,
RFAM, RSTAT and RCUR do at their points in the memory order. -/

namespace Sys2Proof.Machine

/-- Why a retrieval operation stops: an RTAB with its subcode and value (R269), a park of its engine (R262, R263), or a
frame LOCK it waits for (R139). -/
inductive RErr where
  | rtab (sub value : Nat)
  | park (c : Cause) (info : Word)
  | wait
  deriving DecidableEq, Repr

/-- The physical address of a byte a retrieval operation uses; a fault is RTAB 7. -/
def State.rAddr (s : State) (va : Nat) (acc : Acc) : Except RErr Nat :=
  if !plainAddr va then .error (.rtab 7 va)
  else match s.translate [] s.myDie s.g.info.part va acc with
    | .ok pa _ => .ok pa
    | .fault _ => .error (.rtab 7 va)
    | .wait => .error .wait

/-- Refuse with an error unless a test holds. -/
def rCheck (ok : Bool) (e : RErr) : Except RErr Unit := if ok then .ok () else .error e

/-- A generation of a table: bucket array, ring-cursor array and bucket bits (R260). -/
structure Gen where
  base : Nat
  ring : Nat
  bits : Nat
  deriving DecidableEq, Repr

/-- A table descriptor (R260), with the address it stands at, that of its list entry, and where both are. -/
structure Table where
  lva : Nat
  va : Nat
  pa : Nat
  entry : Nat
  a : Gen
  b : Gen
  pool : Nat
  pooln : Nat
  free : Nat
  policy : Nat
  state : Nat
  cursor : Nat
  deriving DecidableEq, Repr

/-- The fields of a descriptor. -/
def State.tableAt (s : State) (lva va pa entry : Nat) : Table :=
  let f (o n : Nat) : Nat := s.gangLe (pa + o) n
  { lva := lva, va := va, pa := pa, entry := entry, a := ⟨f 0 8, f 0x10 8, f 0x30 1⟩,
    b := ⟨f 8 8, f 0x18 8, f 0x31 1⟩, pool := f 0x20 8, pooln := f 0x28 4, free := f 0x2C 4, policy := f 0x32 1, state := f 0x33 1, cursor := f 0x34 4 }

/-- The rules of R260 that a descriptor keeps: ranges, alignments and reserved fields; the ring arrays and the pool only
under the policies that use them. -/
def State.tableOk (s : State) (t : Table) : Bool :=
  decide (t.policy ≤ 2) && decide (t.state ≤ 1) && decide (4 ≤ t.a.bits) && decide (t.a.bits ≤ 24)
    && decide (t.a.base % 64 = 0)
    && (t.state == 0 || (decide (4 ≤ t.b.bits) && decide (t.b.bits ≤ 24) && decide (t.b.base % 64 = 0)))
    && (t.policy != 2 || decide (t.pool % 64 = 0)) && decide (t.pooln ≤ 2 ^ 28)
    && s.gangLe (t.pa + 0x38) 8 == 0 && s.gangLe (t.pa + 0x78) 8 == 0

/-- The bases of a descriptor, none of which may be a window address; the rings and the pool only under the policies that
use them (R260). -/
def Table.bases (t : Table) : List Nat :=
  [t.a.base, t.b.base] ++ (if t.policy = 1 then [t.a.ring, t.b.ring] else []) ++ if t.policy = 2 then [t.pool] else []

/-- What an operation reads of a table: its list entry and its descriptor. -/
def Table.reads (t : Table) : List (Nat × Nat) := [(t.entry, 8), (t.pa, 128)]

/-- A retrieval operation of sequencer q reads bytes at their home slices, at its one point in the memory order: the program
time covers every one, and no lease on any ends before it (R157, R174, R270). -/
def State.rRead (s : State) (q : Nat) (l : List (Nat × Nat)) : State :=
  let ls := l.flatMap fun x => linesFor x.1 x.2
  let r := ls.foldl (fun a n => a.1.readLineAt a.2 n) (s, s.readTime (s.g.seq q).pts ls)
  r.1.setPts q r.2

/-- The die's shared TLB takes the translations of the addresses that a retrieval operation has used (R140). -/
def State.rUse (s : State) (l : List (Nat × Acc)) : State := s.noteUse s.myDie s.g.info.part l

/-- The addresses by which an operation came to a table. -/
def Table.uses (t : Table) (acc : Acc) : List (Nat × Acc) := [(t.lva, 0), (t.va, acc)]

/-- A retrieval operation of sequencer q reads a table's list entry and descriptor. -/
def State.rTable (s : State) (q : Nat) (t : Table) (acc : Acc) : State := (s.rUse (t.uses acc)).rRead q t.reads

/-- Table n of the launch, through the list (R259, R260, R269). -/
def State.table (s : State) (n : Nat) (acc : Acc) : Except RErr Table := do
  let list := s.g.info.tabList.toNat
  rCheck (decide (n ≤ 7) && decide (list ≠ 0)) (.rtab 1 n)
  rCheck (plainAddr list) (.rtab 3 list)
  let lpa ← s.rAddr (list + 8 * n) 0
  let e := s.gangLe lpa 8
  rCheck (decide (e ≠ 0)) (.rtab 1 n)
  rCheck (decide (e % 128 = 0)) (.rtab 2 e)
  rCheck (plainAddr e) (.rtab 3 e)
  let pa ← s.rAddr e acc
  let t := s.tableAt (list + 8 * n) e pa lpa
  rCheck (s.tableOk t) (.rtab 3 e)
  match t.bases.find? fun b => !plainAddr b with
  | some b => .error (.rtab 3 b)
  | none => .ok t

/-- The generation of a table by its number. -/
def Table.gen (t : Table) (g : Nat) : Gen := if g = 0 then t.a else t.b

/-- The empty entry (R261). -/
def emptyEntry : Nat := 0xFFFFFFFF
/-- The first link value (R261). -/
def linkBase : Nat := 0xF0000000
/-- An entry that links to an overflow block. -/
def isLink (e : Nat) : Bool := decide (linkBase ≤ e) && decide (e < emptyEntry)
/-- An entry that holds a row id. -/
def isId (e : Nat) : Bool := decide (e < linkBase)

/-- The sixteen entries of a bucket or block. -/
def State.entries (s : State) (pa : Nat) : List Nat := (List.range 16).map fun k => s.gangLe (pa + 4 * k) 4

/-- A chain: the physical address and the entries of a bucket and of the blocks it links to (R261). -/
abbrev Chain := List (Nat × List Nat)

/-- What an operation reads of a chain. -/
def Chain.reads (c : Chain) : List (Nat × Nat) := c.map fun b => (b.1, 64)

/-- The chain from a block on, with `n` further blocks allowed. -/
def State.chainFrom (s : State) (t : Table) (acc : Acc) : Nat → Nat → Except RErr Chain
  | 0, _ => .error (.rtab 3 t.va)
  | n + 1, va => do
    let pa ← s.rAddr va acc
    let es := s.entries pa
    rCheck (!(es.take 15).any isLink) (.rtab 3 t.va)
    let e := es.getD 15 emptyEntry
    if !isLink e then .ok [(pa, es)]
    else do
      rCheck (decide (e - linkBase < t.pooln)) (.rtab 3 t.va)
      let rest ← s.chainFrom t acc n (t.pool + 64 * (e - linkBase))
      .ok ((pa, es) :: rest)

/-- The chain of a bucket: the bucket and at most 4 overflow blocks. -/
def State.chain (s : State) (t : Table) (g x : Nat) (acc : Acc) : Except RErr Chain :=
  s.chainFrom t acc 5 ((t.gen g).base + 64 * x)

/-- The addresses of a chain in a table: that of its bucket, and those its links name. -/
def Chain.uses (t : Table) (acc : Acc) : Nat → Chain → List (Nat × Acc)
  | _, [] => []
  | va, b :: c => (va, acc) :: Chain.uses t acc (t.pool + 64 * (b.2.getD 15 emptyEntry - linkBase)) c

/-- A retrieval operation of sequencer q reads a chain of a table, from the address of its bucket on. -/
def State.rChain (s : State) (q : Nat) (t : Table) (acc : Acc) (va : Nat) (c : Chain) : State :=
  (s.rUse (c.uses t acc va)).rRead q c.reads

/-- The ids of a chain, in chain order. -/
def Chain.ids (c : Chain) : List Nat := ((c.map (·.2)).flatten).filter isId

/-- Write n bytes of a value at a key as an ordinary store of the gang's sequencer q. -/
def State.rPut (s : State) (q key n v : Nat) : State :=
  let (s, p) := s.writeAt (s.g.seq q).pts key (leBytes n v)
  s.setPts q p

/-- Add to a counter of a descriptor modulo 2^64 (R268). -/
def State.rBump (s : State) (q : Nat) (t : Table) (off : Nat) (i : Int) : State :=
  s.rPut q (t.pa + off) 8 (wordOf ((s.gangLe (t.pa + off) 8 : Int) + i)).toNat

/-- NPROBE, NCAND, NINS, NDROP, NEVICT, NDEL and NCHAIN by number. -/
def counterOff (n : Nat) : Nat := 0x40 + 8 * n

/-! Command blocks (R262). -/

/-- The park for a field outside its range: the block's local offset (R262). -/
def Part.badBlock (p : Part) (sub : Nat) : RErr := .park .shape (infoOf sub (p.off % 2 ^ 56))

/-- n bytes at a local offset of the part's engine, or the park of R262. -/
def State.rLocal (s : State) (off n : Nat) : Except RErr Unit :=
  rCheck (s.g.inAlloc off n) (.park .prot (infoOf 5 (off % 2 ^ 56)))

/-- A little-endian value at a local offset of a lane. -/
def State.localLe (s : State) (l off n : Nat) : Nat := leValue (s.localBytes l off n)

/-! RPROBE (R263). -/

/-- Insert a number into an ascending list, once. -/
def insertOnce (x : Nat) : List Nat → List Nat
  | [] => [x]
  | y :: ys => if x < y then x :: y :: ys else if x = y then y :: ys else y :: insertOnce x ys

/-- The chains one row finds in one table, of both generations during a rehash. -/
def State.probeTable (s : State) (p : Part) (rec i n : Nat) (t : Table) : Except RErr (List Chain) :=
  (List.range (t.state + 1)).mapM fun g =>
    let x := s.localLe p.lane (rec + 4 * (2 * n + g)) 4
    if x = emptyEntry then .ok []
    else if 2 ^ (t.gen g).bits ≤ x then
      .error (.park .shape (infoOf 0x20 (x + (2 * n + g) * 2 ^ 32 + i * 2 ^ 36)))
    else s.chain t g x 0

/-- The addresses of the chains that one row finds in one table. -/
def State.probeUses (s : State) (p : Part) (rec n : Nat) (t : Table) (cs : List Chain) : List (Nat × Acc) :=
  cs.zipIdx.flatMap fun c => Chain.uses t 0 ((t.gen c.2).base + 64 * s.localLe p.lane (rec + 4 * (2 * n + c.2)) 4) c.1

/-- The ids of chains. -/
def chainIds (l : List Chain) : List Nat := l.flatMap Chain.ids

/-- RPROBE at its single point: it reads every list entry, descriptor, bucket and block there. -/
def State.probe (s : State) (p : Part) : Except RErr State := do
  let list := p.f 0 4
  let rs := p.f 4 4
  let out := p.f 8 4
  let rows := p.f 12 2
  let maxc := p.f 14 2
  let mask := p.f 16 1
  rCheck (decide (list % 4 = 0) && decide (rs % 4 = 0) && decide (64 ≤ rs) && decide (out % 4 = 0) && decide (1 ≤ rows)
    && decide (rows ≤ 64) && decide (1 ≤ maxc) && decide (maxc ≤ 256) && decide (mask ≠ 0) && p.f 0x11 3 == 0
    && p.f 0x18 8 == 0) (p.badBlock 0x24)
  s.rLocal list ((rows - 1) * rs + 8 * (Nat.log2 mask + 1))
  s.rLocal out (rows * (4 + 4 * maxc))
  let tabs ← ((List.range 8).filter (bit mask)).mapM fun n => (s.table n 2).map fun t => (n, t)
  let found ← (List.range rows).mapM fun i => tabs.mapM fun t => s.probeTable p (list + i * rs) i t.1 t.2
  let s0 := s
  let reads := tabs.flatMap (·.2.reads) ++ (found.flatten.flatten.flatMap Chain.reads).eraseDups
  let uses := found.zipIdx.flatMap fun r => (r.1.zip tabs).flatMap fun x => s.probeUses p (list + r.2 * rs) x.2.1 x.2.2 x.1
  let s := s.rUse (tabs.flatMap (·.2.uses 2) ++ uses.eraseDups)
  let s := s.rRead p.q reads
  let s := tabs.zipIdx.foldl (fun s t =>
    (s.rBump p.q t.1.2 (counterOff 0) rows).rBump p.q t.1.2 (counterOff 1)
      (found.map fun r => (chainIds (r.getD t.2 [])).length).sum) s
  let s := s.onePoint s0 p.q reads
  let lists := found.map fun r => (chainIds r.flatten).foldl (fun a x => insertOnce x a) []
  let s := lists.zipIdx.foldl (fun s l =>
    let ids := l.1.take maxc
    s.localPut p.lane (out + l.2 * (4 + 4 * maxc)) (((ids.length :: ids).map (leBytes 4)).flatten)) s
  .ok (s.localPut p.lane (p.off + 0x14) (leBytes 4 (lists.filter fun l => decide (maxc < l.length)).length))

/-! RINS and RDEL (R264). -/

/-- Where an entry of a value stands in a chain: its address. -/
def Chain.find (c : Chain) (v : Nat) : Option Nat :=
  c.findSome? fun b => ((List.range 16).find? fun k => b.2.getD k 0 == v).map fun k => b.1 + 4 * k

/-- RINS of an id in a chain: the state, the status and the victim. DESIGN CHOICE: under CHAIN a FREE that is neither 0xFFFF_FFFF
nor below POOLN, which R260 leaves without a range, is RTAB 3 at the RINS that would take the block, and at no other. -/
def State.insertId (s : State) (q : Nat) (t : Table) (g x id : Nat) (c : Chain) : Except RErr (State × Nat × Nat) :=
  match c.find id, c.find emptyEntry with
  | some _, _ => .ok (s, 1, emptyEntry)
  | none, some a => .ok ((s.rPut q a 4 id).rBump q t (counterOff 2) 1, 0, emptyEntry)
  | none, none =>
    if t.policy = 0 ∨ (t.policy = 2 ∧ (5 ≤ c.length ∨ t.free = emptyEntry)) then
      .ok (s.rBump q t (counterOff 3) 1, 2, emptyEntry)
    else if t.policy = 1 then do
      let ring ← s.rAddr ((t.gen g).ring + x) 2
      let s := (s.rUse [((t.gen g).ring + x, 2)]).rRead q [(ring, 1)]
      let k := s.gangLe ring 1 % 16
      let b := c.headD (0, [])
      let s := (s.rPut q (b.1 + 4 * k) 4 id).rPut q ring 1 ((k + 1) % 16)
      .ok ((s.rBump q t (counterOff 4) 1).rBump q t (counterOff 2) 1, 3, b.2.getD k emptyEntry)
    else do
      rCheck (decide (t.free < t.pooln)) (.rtab 3 t.va)
      let pa ← s.rAddr (t.pool + 64 * t.free) 2
      let s := (s.rUse [(t.pool + 64 * t.free, 2)]).rRead q [(pa, 4)]
      let next := s.gangLe pa 4
      let last := c.getLastD (0, [])
      let es := [last.2.getD 15 emptyEntry, id] ++ List.replicate 14 emptyEntry
      let (s, pts) := s.writeAt (s.g.seq q).pts pa ((es.map (leBytes 4)).flatten)
      let s := ((s.setPts q pts).rPut q (last.1 + 60) 4 (linkBase + t.free)).rPut q (t.pa + 0x2C) 4 next
      .ok ((s.rBump q t (counterOff 6) 1).rBump q t (counterOff 2) 1, 0, emptyEntry)

/-- RDEL of an id from a chain; an overflow block at the end that it empties goes to the free list. -/
def State.deleteId (s : State) (q : Nat) (t : Table) (id : Nat) (c : Chain) : State × Nat × Nat :=
  match c.find id with
  | none => (s, 4, emptyEntry)
  | some a =>
    let s := (s.rPut q a 4 emptyEntry).rBump q t (counterOff 5) 1
    let last := c.getLastD (0, [])
    let prev := c.dropLast.getLastD (0, [])
    if 2 ≤ c.length ∧ last.1 ≤ a ∧ a < last.1 + 64 ∧ (s.entries last.1).all (· == emptyEntry) then
      let n := prev.2.getD 15 emptyEntry - linkBase
      let s := ((s.rPut q (prev.1 + 60) 4 emptyEntry).rPut q last.1 4 t.free).rPut q (t.pa + 0x2C) 4 n
      (s.rBump q t (counterOff 6) (-1), 0, emptyEntry)
    else (s, 0, emptyEntry)

/-- One update record at its one point: the table, BADID, BADREF, and the chain. -/
def State.updateRecord (s : State) (p : Part) (rec : Nat) : Except RErr State := do
  let id := s.localLe p.lane rec 4
  let x := s.localLe p.lane (rec + 4) 4
  let n := s.localLe p.lane (rec + 8) 1
  let g := s.localLe p.lane (rec + 9) 1
  let t ← s.table n 2
  let s0 := s
  let s := s.rTable p.q t 2
  let r : (State × Nat × Nat) × List (Nat × Nat) ←
    if !isId id then .ok ((s, 5, emptyEntry), [])
    else if 1 < g ∨ (g = 1 ∧ t.state = 0) ∨ 2 ^ (t.gen g).bits ≤ x ∨ s.localLe p.lane (rec + 11) 1 ≠ 0 then
      .ok ((s, 6, emptyEntry), [])
    else do
      let c ← s.chain t g x 2
      let s := s.rChain p.q t 2 ((t.gen g).base + 64 * x) c
      let r ← if p.kind = .rins then s.insertId p.q t g x id c else .ok (s.deleteId p.q t id c)
      .ok (r, c.reads)
  let s := r.1.1.onePoint s0 p.q (t.reads ++ r.2)
  .ok ((s.localPut p.lane (rec + 10) (leBytes 1 r.1.2.1)).localPut p.lane (rec + 12) (leBytes 4 r.1.2.2))

/-- The next record of an update part, and whether it was the last. DESIGN CHOICE: a record list that runs past the allocation parks
the engine with LIST before any record is performed; R262 and R264 do not say whether the records that lie inside it are. -/
def State.updateStep (s : State) (p : Part) : Except RErr (State × Bool) := do
  let list := p.f 0 4
  let n := p.f 4 4
  rCheck (decide (list % 16 = 0) && decide (1 ≤ n) && decide (n ≤ 4096) && (p.block.drop 8).all (· == 0)) (p.badBlock 0x24)
  s.rLocal list (16 * n)
  let s ← s.updateRecord p (list + 16 * p.phase)
  .ok (s, decide (n ≤ p.phase + 1))

/-! RMIG and RRET (R265, R266). -/

/-- The claim of RMIG at the descriptor: the state, the first bucket and how many. A CURSOR past the table's end, for which R260
gives no range, makes the number negative, as R265 computes it in integers (R4). -/
def State.migClaim (s : State) (p : Part) : Except RErr (State × Nat × Int) := do
  let n := p.f 1 1
  let out := p.f 4 4
  rCheck (decide (p.f 0 1 ≤ 7) && decide (1 ≤ n) && decide (n ≤ 64) && p.f 2 2 == 0 && decide (out % 16 = 0)
    && decide (16 + 304 * n ≤ p.f 8 4) && (p.block.drop 12).all (· == 0)) (p.badBlock 0x24)
  s.rLocal out (p.f 8 4)
  let t ← s.table (p.f 0 1) 2
  let s0 := s
  let s := s.rTable p.q t 2
  if t.state = 0 then .ok (s, emptyEntry, 0)
  else
    let m : Int := min (n : Int) (2 ^ t.a.bits - (t.cursor : Int))
    .ok ((s.rPut p.q (t.pa + 0x34) 4 ((t.cursor : Int) + m).toNat).onePoint s0 p.q t.reads, t.cursor, m)

/-- What RMIG writes at OUT. -/
def State.migOut (s : State) (p : Part) (first m nids : Nat) (ids : List Nat) : State :=
  s.localPut p.lane (p.f 4 4) ((([first, m, nids, 0] ++ ids).map (leBytes 4)).flatten)

/-- RRET up to its swap: the state, the result, and the generation that was retired. R266 gives TABLE no range of its own,
so a number above 7 is an RTAB (R260). -/
def State.retire (s : State) (p : Part) : Except RErr (State × Nat × Option Gen) := do
  rCheck (p.f 1 3 == 0 && (p.block.drop 8).all (· == 0)) (p.badBlock 0x24)
  let t ← s.table (p.f 0 1) 2
  let s0 := s
  let s := s.rTable p.q t 2
  if t.state = 0 then .ok (s, 1, none)
  else if t.cursor < 2 ^ t.a.bits then .ok (s, 2, none)
  else
    let put (off n v : Nat) (s : State) : State := s.rPut p.q (t.pa + off) n v
    let s := put 0x34 4 0 (put 0x33 1 0 (put 0x10 8 t.b.ring (put 0x30 1 t.b.bits (put 0 8 t.b.base s))))
    .ok (s.onePoint s0 p.q t.reads, 0, some t.a)

/-- Push the overflow blocks of one chain on the free list of a table. -/
def State.freeChain (s : State) (q : Nat) (t : Table) (c : Chain) : State :=
  ((c.drop 1).zip c).foldl (fun s b =>
    let k := b.2.2.getD 15 emptyEntry - linkBase
    let s := (s.rPut q b.1.1 4 (s.gangLe (t.pa + 0x2C) 4)).rPut q (t.pa + 0x2C) 4 k
    s.rBump q t (counterOff 6) (-1)) s

/-- Free the overflow blocks of bucket x of a retired generation (R266). DESIGN CHOICE: the list entry and the descriptor, whose
free list and pool it uses, are read and checked again for each bucket; the spec does not say whether the operation's one
reading of them (R259) stands for all of its points. The bucket, which is read alone, is accessed as by an atomic too: with R and
W, and in a frame that is not shared, else RTAB 7; the spec does not say which access it is. -/
def State.freeBucket (s : State) (p : Part) (g : Gen) (x : Nat) : Except RErr State := do
  let t ← s.table (p.f 0 1) 2
  let c ← s.chainFrom t 2 5 (g.base + 64 * x)
  .ok ((((s.rTable p.q t 2).rChain p.q t 2 (g.base + 64 * x) c).freeChain p.q t c).onePoint s p.q (t.reads ++ c.reads))

/-! Parts (R262, R269). -/

/-- A part is over: it leaves the gang and its token is lowered. -/
def State.endPart (s : State) (p : Part) : State :=
  (s.updG fun g => { g with parts := g.parts.filter (·.pid != p.pid) }).lower p.q false p.tok

/-- A part changes. -/
def State.putPart (s : State) (p : Part) : State :=
  s.updG fun g => { g with parts := g.parts.map fun r => if r.pid = p.pid then p else r }

/-- What a part that meets an error does: it waits, its engine parks, or its gang has an RTAB to take; in the last two it
is over. -/
def State.retError (s : State) (p : Part) (e : RErr) : State :=
  match e with
  | .wait => s
  | .park c i => (s.updG fun g => g.park p.lane p.head p.slot c i).endPart p
  | .rtab sub v => (s.updG fun g => g.defer p.q p.lane ⟨.rtab, infoOf sub (v % 2 ^ 56), p.slot⟩).endPart p

/-- RMIG's next step: the claim, then one bucket, then what it writes (R265, R269). DESIGN CHOICE: each bucket at its own point
reads the list entry and the descriptor again, and so stands in generation A as that is then; and after a fault that follows
the claim the fourth word at OUT is 0, as without one. The spec says neither. -/
def State.migStep (s : State) (p : Part) : State :=
  if p.phase = 0 then
    match s.migClaim p with
    | .error e => s.retError p e
    | .ok (s, first, m) =>
      if m ≤ 0 then (s.migOut p first (m % 2 ^ 32).toNat 0 []).endPart p
      else s.putPart { p with phase := 1, started := true, done := [first, m.toNat] }
  else
    let first := p.done.getD 0 0
    let m := p.done.getD 1 0
    let r : Except RErr (Table × Chain) := do
      let t ← s.table (p.f 0 1) 0
      let c ← s.chain t 0 (first + p.phase - 1) 0
      .ok (t, c)
    match r with
    | .error .wait => s
    | .error e => (s.migOut p first m emptyEntry []).retError p e
    | .ok (t, c) =>
      let s := ((s.rTable p.q t 0).rChain p.q t 0 (t.a.base + 64 * (first + p.phase - 1)) c).onePoint s p.q (t.reads ++ c.reads)
      let all := p.done2 ++ c.ids
      if m ≤ p.phase then (s.migOut p first m all.length all).endPart p
      else s.putPart { p with phase := p.phase + 1, done2 := all }

/-- RRET's next step: the swap, then the old generation's blocks bucket by bucket, which `done` names; a fault then keeps
the swap and what was freed (R266, R269). -/
def State.retStep (s : State) (p : Part) : State :=
  match p.done with
  | [base, ring, n] =>
    match s.freeBucket p ⟨base, ring, n⟩ p.phase with
    | .error e => s.retError p e
    | .ok s => if 2 ^ n ≤ p.phase + 1 then s.endPart p else s.putPart { p with phase := p.phase + 1 }
  | _ =>
    match s.retire p with
    | .error e => s.retError p e
    | .ok (s, res, old) =>
      let s := s.localPut p.lane (p.off + 4) (leBytes 4 res)
      match old with
      | none => s.endPart p
      | some g => s.putPart { p with started := true, done := [g.base, g.ring, g.bits] }

/-- The next step of a retrieval part. -/
def State.retrievalStep (s : State) (p : Part) : State :=
  match p.kind with
  | .rprobe =>
    match s.probe p with
    | .ok s => s.endPart p
    | .error e => s.retError p e
  | .rins | .rdel =>
    match s.updateStep p with
    | .ok (s, true) => s.endPart p
    | .ok (s, false) => s.putPart { p with phase := p.phase + 1, started := true }
    | .error e => s.retError p e
  | .rmig => s.migStep p
  | .rret => s.retStep p
  | _ => s

/-- RETRIEVAL_PART_COMPLETE (R262, R270): in the gang's program order, on memory as the gang obtains it (R167). -/
def execRetrievalPartComplete (gid pid : Nat) (s : State) : Host.Outcome State Fault Refusal :=
  (s.withGang gid fun s =>
    match s.g.parts.find? fun p => p.pid == pid && p.kind.retrieval with
    | none => s
    | some p =>
      if s.g.inOrder p.q (p.pid / 16) then
        let t := s.inView fun s => s.retrievalStep p
        t.tookPoint p.q (p.pid / 16) (t.g.seq p.q).pts
      else s).next

/-! The S-slot operations (R255, R268). -/

/-- The bytes of a family descriptor: where they stand, page by page (R255). -/
def State.familyAt (s : State) (addr : Nat) : Except RErr (List (Nat × Nat)) := do
  let n := min 64 (2 ^ 17 - addr % 2 ^ 17)
  let pa ← s.rAddr addr 0
  if n = 64 then .ok [(pa, 64)]
  else do
    rCheck (plainAddr (addr + n)) (.rtab 4 addr)
    let pb ← s.rAddr (addr + n) 0
    .ok [(pa, n), (pb, 64 - n)]

/-- RFAM at its point. DESIGN CHOICE: the family register changes in the one event in which the token clears, so that an HIDX issued
before reads the old pair; R255 lets it read either. -/
def State.loadFamily (s : State) (q n addr : Nat) : Except RErr State := do
  rCheck (decide (n ≤ 15)) (.rtab 4 n)
  rCheck (plainAddr addr) (.rtab 4 addr)
  let at_ ← s.familyAt addr
  let bs := at_.flatMap fun x => s.gangBytes x.1 x.2
  let k := leValue ((bs.drop 4).take 1)
  rCheck (decide (addr % 64 = 0) && decide (8 ≤ k) && decide (k ≤ 24) && (bs.drop 5).all (· == 0)) (.rtab 4 addr)
  let s := s.rUse (if at_.length = 1 then [(addr, 0)] else [(addr, 0), (addr + 63, 0)])
  .ok ((s.rRead q at_).updDie s.myDie fun d =>
    { d with fams := updAt n (fun _ => (BitVec.ofNat 32 (leValue (bs.take 4)), k)) d.fams })

/-- RSTAT at its point. -/
def State.readCounter (s : State) (q t c : Nat) : Except RErr (State × Word) := do
  rCheck (decide (c % 128 ≤ 6) && decide (c / 256 = 0)) (.rtab 6 c)
  let t ← s.table t (if bit c 7 then 2 else 0)
  let key := t.pa + counterOff (c % 128)
  let r := s.rTable q t (if bit c 7 then 2 else 0)
  .ok (if bit c 7 then (r.rPut q key 8 0).onePoint s q t.reads else r, BitVec.ofNat 64 (s.gangLe key 8))

/-- RCUR at its point. -/
def State.readCursor (s : State) (q t : Nat) : Except RErr (State × Word) := do
  let t ← s.table t 0
  .ok (s.rTable q t 0, BitVec.ofNat 64 (t.cursor + t.state * 2 ^ 32 + t.a.bits * 2 ^ 40 + t.b.bits * 2 ^ 48))

end Sys2Proof.Machine
end

