-- ==== Sys2Proof/Machine/Desc.lean ====
section
/-! DEFINITION. What an agent other than a gang reads and writes through a partition (R372), queue descriptors (R271), and
the completion record (R284, R315, R318). -/

namespace Sys2Proof.Machine

/-- Why an agent's access is not made: a fault, or none for a frame LOCK it waits for (R139). -/
abbrev AgentErr := Option AFault

/-- The physical address of a translated address for an agent of a die, in a partition (R372). -/
def State.agentAddr (s : State) (die part va : Nat) (acc : Acc) : Except AgentErr Nat :=
  if !plainAddr va then .error (some (.page, if 2 ^ 56 ≤ va then 6 else 5))
  else match s.translate [] die part va acc with
    | .ok pa _ => .ok pa
    | .fault f => .error (some f)
    | .wait => .error none

/-- The physical address of a translated address that an agent of a die uses; the die's shared TLB takes the translation (R140,
R372). -/
def State.agentUse (s : State) (die part va : Nat) (acc : Acc) : Except AgentErr (State × Nat) :=
  (s.agentAddr die part va acc).map fun pa => (s.noteUse die part [(va, acc)], pa)

/-- Where up to 128 KiB at a translated address stand for an agent: the part in its first page, and the rest. -/
def State.agentSpan (s : State) (die part va n : Nat) (acc : Acc) : Except AgentErr (List (Nat × Nat)) := do
  let m := min n (2 ^ 17 - va % 2 ^ 17)
  let pa ← s.agentAddr die part va acc
  if m = n then .ok [(pa, n)]
  else do
    let pb ← s.agentAddr die part (va + m) acc
    .ok [(pa, m), (pb, n - m)]

/-- n bytes that an agent reads at a translated address. -/
def State.agentRead (s : State) (die part va n : Nat) : Except AgentErr (List Byte) :=
  (s.agentSpan die part va n 0).map fun l => l.flatMap fun x => s.agentBytes die x.1 x.2

/-- Write bytes over places one after the other. -/
def State.agentPut (s : State) (bs : List Byte) : List (Nat × Nat) → State
  | [] => s
  | x :: xs => (s.agentWrite x.1 (bs.take x.2)).agentPut (bs.drop x.2) xs

/-- Bytes that an agent writes at a translated address, whose translation the die's shared TLB takes (R140, R372). -/
def State.agentStore (s : State) (die part va : Nat) (bs : List Byte) : Except AgentErr State :=
  (s.agentSpan die part va bs.length 1).map ((s.noteUse die part (pagesOf va bs.length 1)).agentPut bs)

/-- A little-endian field of a run of bytes. -/
def byteField (bs : List Byte) (off n : Nat) : Nat := leValue ((bs.drop off).take n)

/-- Every byte of a field is zero. -/
def zeroField (bs : List Byte) (off n : Nat) : Bool := ((bs.drop off).take n).all (· == 0)

/-! Queue descriptors (R271). -/

/-- A queue descriptor as it stands in memory. -/
structure QDesc where
  rbase : Nat
  rsize : Nat
  widx : Nat
  ridx : Nat
  cls : Nat
  home : Nat
  qflags : Nat
  scope : Nat
  state : Nat
  part : Nat
  zeros : Bool
  deriving DecidableEq, Repr

/-- The descriptor at a key. -/
def State.qdesc (s : State) (key : Nat) : QDesc :=
  let b := s.agentBytes (homeDie key) key 64
  let f := byteField b
  { rbase := f 0 8, rsize := f 8 4, widx := f 0x10 8, ridx := f 0x18 8, cls := f 0x20 1, home := f 0x21 1,
    qflags := f 0x22 1, scope := f 0x23 1, state := f 0x24 1, part := f 0x25 1,
    zeros := zeroField b 0x0C 4 && zeroField b 0x26 2 && zeroField b 0x31 15 }

/-- The descriptor breaks R271. DESIGN CHOICE: an RBASE that is not 64-byte aligned, which R275 lists under no reason, counts as
one that is out of range, reason 3. -/
def QDesc.bad (d : QDesc) : Bool :=
  !(decide (d.rbase % 64 = 0) && decide (2 ≤ d.rsize) && decide (d.rsize ≤ 2 ^ 20) && d.rsize == 2 ^ Nat.log2 d.rsize
    && decide (d.cls ≤ 3) && decide (d.home ≤ 3) && decide (d.qflags ≤ 1) && decide (1 ≤ d.scope) && decide (d.scope ≤ 3)
    && decide (d.state ≤ 2) && decide (d.part ≤ 15) && d.zeros)

/-- The virtual address of the slot of an index. -/
def QDesc.slotVa (d : QDesc) (i : Nat) : Nat := d.rbase + 64 * (i % d.rsize)

/-! The completion record (R284). -/

/-- The instances of a launch. -/
def LInfo.count (l : LInfo) : Nat := l.nx * l.ny * l.nz * l.stages

/-- Items that no NEXT has taken: not handed out yet, returned, or in a die's reserve (R284, R299). -/
def Launch.undeliv (l : Launch) : Nat :=
  l.cx * l.cy - l.drawn + l.returned.length + ((l.reserve.map fun r => r.2.length).foldl (· + ·) 0)

/-- The 64 bytes of a completion record (R284). -/
def recordBytes (status reason now ended never undeliv : Nat) (fault : Word) : List Byte :=
  leBytes 1 status ++ leBytes 1 reason ++ leBytes 6 0 ++ leBytes 8 now ++ leBytes 4 ended ++ leBytes 4 never
    ++ leBytes 8 undeliv ++ leBytes 8 fault.toNat ++ leBytes 24 0

/-- The fault word of the first instance that was killed, or 0. -/
def Tally.faultWord (t : Tally) : Word :=
  match t.killed with
  | some (_, w) => w
  | none => 0

/-- The record of a launch, with its counts as they stand. -/
def State.launchRecord (s : State) (l : Launch) (status reason : Nat) : List Byte :=
  recordBytes status reason (s.now l.info.home) l.tally.ended l.tally.never l.undeliv l.tally.faultWord

/-- Where a launch's record goes: none for an address of 0 or one that faults at the time of the write (R284); an error is
a wait for a LOCK. -/
def State.recordAt (s : State) (home part crec : Nat) : Except Unit (Option Nat) :=
  if crec = 0 then .ok none
  else match s.agentAddr home part crec 1 with
    | .ok pa => .ok (some pa)
    | .error none => .error ()
    | .error (some _) => .ok none

/-- STATUS and REASON of an uncommitted launch whose last instance has ended (R318). -/
def Tally.outcome (t : Tally) (trigger : Bool) : Nat × Nat :=
  if t.aborted then (3, 0)
  else match t.killed with
    | some (r, _) => (4, r)
    | none =>
      if t.missed then (2, 4)
      else if trigger && t.inEndgame then (2, 5)
      else if trigger && t.never != 0 then (2, 6)
      else (0, 0)

end Sys2Proof.Machine
end

