-- ==== Sys2Proof/Machine/Pages.lean ====
section
/-! DEFINITION. Removing cached translations (R336) and the page operations PGSHARE, PGUNMAP and PGCOW, page by page
(R337, R338). -/

namespace Sys2Proof.Machine

/-! TLBINV (R336). -/

/-- Whether a cached entry is one that KIND, a partition and an address name. -/
def TlbEnt.named (e : TlbEnt) (kind part va : Nat) : Bool :=
  match kind with
  | 0 => (e.part == part || e.glob) && (va % 2 ^ 56 / (if e.big then 2 ^ 30 else 2 ^ 17) == e.page)
  | 1 => e.part == part && !e.glob
  | _ => true

/-- The sequencers of a context lose the named entries. -/
def Gang.flush (g : Gang) (f : TlbEnt → Bool) : Gang :=
  { g with q0 := { g.q0 with utlb := g.q0.utlb.filter (!f ·) }, q1 := { g.q1 with utlb := g.q1.utlb.filter (!f ·) } }

/-- Remove the named translations from the caches of one die, or of all four. -/
def State.flushTlbs (s : State) (die : Option Nat) (kind part va : Nat) : State :=
  let f (e : TlbEnt) : Bool := e.named kind part va
  let here (d : Nat) : Bool := match die with
    | none => true
    | some x => x == d
  let s := (List.range 4).foldl (fun s d =>
    if here d then s.updDie d fun x => { x with tlb := x.tlb.filter (!f ·) } else s) s
  s.mapGangs fun g => if here g.place.die then g.flush f else g

/-! The page command block (R337). -/

/-- A page command block. -/
structure PageBlock where
  sva : Nat
  dva : Nat
  npage : Nat
  spart : Nat
  dpart : Nat
  perm : Nat
  aux : Nat
  zeros : Bool
  deriving DecidableEq, Repr

/-- The block at a key. -/
def State.pageBlock (s : State) (key : Nat) : PageBlock :=
  let b := s.gangBytes key 64
  let f := byteField b
  { sva := f 0 8, dva := f 8 8, npage := f 0x10 4, spart := f 0x14 1, dpart := f 0x15 1, perm := f 0x16 1, aux := f 0x18 8,
    zeros := zeroField b 0x17 1 && zeroField b 0x28 24 }

/-- An address of a page that SVA and DVA may hold. -/
def pageVa (va : Nat) : Bool := decide (va % 2 ^ 17 = 0) && plainAddr va

/-- The block keeps the ranges of R337. -/
def PageBlock.ok (b : PageBlock) (k : PageKind) : Bool :=
  decide (b.spart ≤ 15) && decide (b.dpart ≤ 15) && decide (b.perm < 8) && b.zeros && decide (1 ≤ b.npage)
    && decide (b.npage ≤ 4096) && (k != .cow || b.npage == 1) && pageVa b.dva && (k != .share || pageVa b.sva)

/-! The tables (R136 to R138). -/

/-- Where the third-level entry of an address stands, when the tables reach that far. -/
def State.thirdLevel (s : State) (part va : Nat) : Option Nat :=
  let r : Except AFault (Option Nat) := do
    let e1 ← s.read8 (s.root s.myDie part + 8 * bits va 55 43)
    if !bit e1 0 || bit e1 6 || tableBad e1 then .ok none
    else do
      let e2 ← s.read8 (bits e1 51 16 * 2 ^ 16 + 8 * bits va 42 30)
      if !bit e2 0 || bit e2 6 || tableBad e2 then .ok none
      else
        let a := bits e2 51 16 * 2 ^ 16 + 8 * bits va 29 17
        .ok (if s.backed a then some a else none)
  match r with
  | .ok x => x
  | .error _ => none

/-- The descriptor of the frame of a physical address (R138). -/
def State.frameDesc (s : State) (pa : Nat) : Option Nat :=
  let d := s.die s.myDie
  let a := d.ftbase.toNat + 8 * (pa / 2 ^ 17)
  if pa / 2 ^ 17 < d.ftlen.toNat ∧ s.backed a then some a else none

/-- A valid 128 KiB leaf whose frame has a descriptor. -/
structure PageLeaf where
  at_ : Nat
  entry : Nat
  frame : Nat
  desc : Nat
  deriving DecidableEq, Repr

/-- The leaf of an address in a partition. -/
def State.pageLeaf (s : State) (part va : Nat) : Option PageLeaf :=
  match s.thirdLevel part va with
  | none => none
  | some a =>
    let e := s.mem.le a 8
    let fr := bits e 51 17 * 2 ^ 17
    if !bit e 0 || !bit e 6 || leafBad e || bit e 16 then none
    else (s.frameDesc fr).map fun d => ⟨a, e, fr, d⟩

/-- Nothing answers for the tables of a page of the die's partition, or for the descriptor of its frame (R369). -/
def State.pageSilent (s : State) (part va : Nat) : Bool :=
  match s.leaf (s.root s.myDie part) va with
  | .error f => f == unanswered
  | .ok (pa, _, _) => match s.frameDesc pa with
    | some d => !s.reaches d
    | none => false

/-- What one page comes to: it waits, for a LOCK or for memory that nothing answers for, it fails with a STATUS, it is done, or it ends with STATUS 1. -/
inductive PageStep where
  | wait
  | fail (status : Nat)
  | done (s : State)
  | single
  deriving DecidableEq, Repr

/-- A LOCK that another agent holds (R138). -/
def State.locked (s : State) (desc : Nat) : Bool := bit (s.mem.le desc 8) 16

/-- COUNT of a descriptor. -/
def State.shareCount (s : State) (desc : Nat) : Nat := s.mem.le desc 8 % 2 ^ 16

/-- Change COUNT of a descriptor. -/
def State.setCount (s : State) (q desc n : Nat) : State := s.rPut q desc 2 n

/-- PGSHARE of one page (R338). -/
def State.sharePage (s : State) (q : Nat) (b : PageBlock) (off : Nat) : PageStep :=
  match s.pageLeaf b.spart (b.sva + off) with
  | none => .fail 2
  | some l =>
    match s.thirdLevel b.dpart (b.dva + off) with
    | none => .fail 3
    | some d =>
      if bit (s.mem.le d 8) 0 then .fail 3
      else if s.locked l.desc then .wait
      else if s.shareCount l.desc = 0xFFFF then .fail 4
      else
        let keep := l.entry - 2 * bits l.entry 3 1 - 32 * bits l.entry 5 5
        .done ((s.setCount q l.desc (s.shareCount l.desc + 1)).rPut q d 8 (keep + 2 * b.perm))

/-- Zero a frame of 128 KiB (R338). -/
def State.zeroFrame (s : State) (q fr : Nat) : State :=
  let r := s.publishLines (s.g.seq q).pts (linesFor fr (2 ^ 17))
  let s := r.1.setPts q r.2
  { s.settle fr (2 ^ 17) with mem := s.mem.clear fr (2 ^ 17) }.notifyRange fr (2 ^ 17)

/-- Append a frame number to the list of freed frames; what R133 does not back takes nothing. -/
def State.appendFrame (s : State) (q list n : Nat) : State :=
  let put (a v : Nat) (s : State) : State := if s.backed a then s.rPut q a 8 v else s
  let k := s.mem.le list 8
  put list (k + 1) (put (list + 8 + 8 * k) n s)

/-- The list of freed frames, and a frame that is to be zeroed, are answered for (R369). -/
def State.freeAnswered (s : State) (zof : Bool) (frame list : Nat) : Bool :=
  !(zof && s.silent frame) && !s.silent list && !s.silent (list + 8 + 8 * s.mem.le list 8)

/-- PGUNMAP of one page (R338). -/
def State.unmapPage (s : State) (q : Nat) (b : PageBlock) (off : Nat) : PageStep :=
  match s.pageLeaf b.dpart (b.dva + off) with
  | none => .fail 2
  | some l =>
    if s.locked l.desc then .wait
    else
      let n := s.shareCount l.desc
      if n = 0 then .fail 4
      else
        let zof := bit (s.mem.le l.desc 8) 17
        if n = 1 ∧ !s.freeAnswered zof l.frame (b.aux % 2 ^ 52) then .wait
        else
        let s := (s.rPut q l.at_ 8 0).setCount q l.desc (n - 1)
        .done (if n = 1 then
          (if zof then s.zeroFrame q l.frame else s).appendFrame q (b.aux % 2 ^ 52) (l.frame / 2 ^ 17)
        else s)

/-- Copy a frame of 128 KiB (R338). -/
def State.copyFrame (s : State) (q src dst : Nat) : State :=
  let r := s.publishLines (s.g.seq q).pts (linesFor dst (2 ^ 17))
  let s := r.1.setPts q r.2
  { s.settle dst (2 ^ 17) with mem := s.mem.setRegion dst (2 ^ 17) (s.mem.region src (2 ^ 17)) }.notifyRange dst (2 ^ 17)

/-- PGCOW (R338): W and COUNT of the old frame come before the new frame. It waits for memory that nothing answers for (R369). -/
def State.cowPage (s : State) (q : Nat) (b : PageBlock) : PageStep :=
  match s.pageLeaf b.dpart b.dva with
  | none => .fail 2
  | some l =>
    if !bit l.entry 2 then .fail 5
    else if s.locked l.desc then .wait
    else if s.shareCount l.desc ≤ 1 then .single
    else match (if b.aux % 2 ^ 17 = 0 ∧ b.aux < 2 ^ 52 then s.frameDesc b.aux else none) with
      | none => .fail 6
      | some nd =>
        if !s.reaches nd ∨ s.locked nd then .wait
        else if s.shareCount nd ≠ 0 then .fail 6
        else if s.silent l.frame ∨ s.silent b.aux then .wait
        else
          let n := s.shareCount l.desc
          let s := (s.setCount q nd 1).copyFrame q l.frame b.aux
          .done ((s.rPut q l.at_ 8 (l.entry - bits l.entry 51 17 * 2 ^ 17 + b.aux)).setCount q l.desc (n - 1))

/-- The next page of an operation. -/
def State.pageStep (s : State) (q : Nat) (k : PageKind) (b : PageBlock) (done : Nat) : PageStep :=
  match k with
  | .share => s.sharePage q b (done * 2 ^ 17)
  | .unmap => s.unmapPage q b (done * 2 ^ 17)
  | .cow => s.cowPage q b

end Sys2Proof.Machine
end

