-- ==== Sys2Proof/Machine/TokEvents.lean ====
section
/-! DEFINITION. Barrier events (R246 to R248), and the tokened operations of the S slot taking effect (R42, R44): queue
pushes, signals, progress, ECOMMIT, TLBINV, page operations, segment fetches, batch waits and the retrieval reads. -/

namespace Sys2Proof.Machine

/-! Fences (R148). -/

/-- A kind of access that is an atomic. -/
def AccKind.atomic : AccKind → Bool
  | .load => false
  | .pref => false
  | _ => true

/-- A part that is an atomic of an engine. -/
def EngKind.atomic : EngKind → Bool
  | .gamo _ _ _ => true
  | _ => false

/-- A tokened operation of the S slot that is an atomic: SIG, and RSTAT with a clear (R268, R297). -/
def OpKind.atomic : OpKind → Bool
  | .sig _ _ _ _ => true
  | .rstat _ c => c.getLsbD 7
  | _ => false

/-- The descriptor of a QPUSH or QRES. -/
def OpKind.queueKey : OpKind → Option Nat
  | .qpush d _ => some d
  | .qres d _ => some d
  | _ => none

/-- A QPUSH. -/
def OpKind.push : OpKind → Bool
  | .qpush _ _ => true
  | _ => false

/-- A QPUSH comes before an access. -/
def Gang.olderPush (g : Gang) (q n : Nat) : Bool := g.ops.any fun o => o.kind.push && g.before o.q o.oid q n

/-- A QPUSH or QRES at one queue comes before another there; those of different queues are not ordered (R173). -/
def Gang.olderQueueOp (g : Gang) (q n key : Nat) : Bool :=
  g.ops.any fun o => o.kind.queueKey == some key && g.before o.q o.oid q n

/-- An atomic that has not been performed comes before an access. -/
def Gang.olderAtomic (g : Gang) (q n : Nat) : Bool :=
  (g.q0.acc.any fun a => a.kind.atomic && !a.shown && g.before 0 a.tkt q n)
    || (g.q1.acc.any fun a => a.kind.atomic && !a.shown && g.before 1 a.tkt q n)
    || (g.eng.any fun e => e.kind.atomic && g.before e.q e.tkt q n)
    || g.ops.any fun o => o.kind.atomic && g.before o.q o.oid q n

/-- A retrieval operation of an X slot comes before an access. -/
def Gang.olderRet (g : Gang) (q n : Nat) : Bool :=
  g.parts.any fun p => p.kind.retrieval && g.before p.q (p.pid / 16) q n

/-- What a FENCE of sequencer q, numbered n, waits for has been performed: stores, atomics, the batches sealed up to b, and
QPUSHes (R148); and retrieval operations, whose updates of tables are atomics and whose lists are local writes that it covers
(R170). -/
def Gang.fenced (g : Gang) (q n : Nat) (b : BitVec 16) : Bool :=
  !g.olderStore q n && !g.olderAtomic q n && g.batchesDone b && !g.olderPush q n && !g.olderRet q n

/-- What ECOMMIT, numbered n, waits for of the whole gang, whichever sequencer issued it: every store, atomic and QPUSH, and
the batches sealed up to b (R315). -/
def Gang.fencedAll (g : Gang) (n : Nat) (b : BitVec 16) : Bool :=
  ((g.q0.sb ++ g.q1.sb).all fun e => decide (n ≤ e.tkt))
    && ((g.q0.acc ++ g.q1.acc).all fun a => !a.kind.atomic || a.shown || decide (n ≤ a.tkt))
    && (g.eng.all fun e => !e.kind.atomic || decide (n ≤ e.tkt))
    && (g.ops.all fun o => !(o.kind.push || o.kind.atomic) || decide (n ≤ o.oid))
    && (g.parts.all fun p => !p.kind.retrieval || decide (n ≤ p.pid / 16)) && g.batchesDone b

/-! Barrier events (R246, R169, R171). -/

/-- The time a waiter acquires at an entry's scope (R249, R172): of its own gang, of its die, or of every publisher. -/
def Barrier.timeFor (e : Barrier) (gid die : Nat) : Nat :=
  ((e.times.filter fun x => decide (2 ≤ e.scope) || (e.scope == 1 && x.2.1 == die) || x.1 == gid).map (·.2.2)).foldl max 0

/-- The copies of a gang that name a barrier are published at its scope when a phase of it completes (R171); what the gang
publishes later follows them. -/
def State.publishFor (b scope : Nat) (s : State) (g : Gang) : State :=
  s.withGang g.gid fun s =>
    if !s.g.wrote.any (·.bar == some b) then s
    else
      let (s, p) := s.publish scope (max s.g.q0.pts s.g.q1.pts) (fun w => w.bar == some b) false
      let s := (s.setPts 0 p).setPts 1 p
      match s.launch g.info.lid with
      | none => s
      | some l =>
        s.updDie l.info.home fun d =>
          { d with barriers := updAt (32 * l.window + b) (fun e => e.note g.gid g.place.die p) d.barriers }

/-- One event at barrier b of a launch: the entry changes and completes its phase if it is due; a completed phase
publishes the copies that named the barrier. -/
def State.barEvent (s : State) (l : Launch) (b : Nat) (e : Barrier) : State :=
  let s := s.setBarrier l b e
  if e.settle.phases = e.phases then s
  else (s.gangs.filter fun g => g.info.lid == l.info.lid).foldl (State.publishFor b e.scope) s

/-- An arrival of sequencer q of the gang in focus: the rejection, or the entry as it stands before the phase completes
(R248). -/
def State.arriveAt (s : State) (q b cnt : Nat) (batch : BitVec 16) : Except Exc (State × Barrier) :=
  match s.launch s.g.info.lid with
  | none => .error (barErr b 1 0 0)
  | some l =>
    let e := s.barrier l b
    if !e.initd then .error (barErr b 1 0 0)
    else if e.exp < e.arr + cnt then .error (barErr b 2 cnt 0)
    else
      let s := s.publishBatches e.scope q batch
      let e := { s.barrier l b with arr := e.arr + cnt }.note s.g.gid s.myDie (s.g.seq q).pts
      .ok (s.barEvent l b e, e)

/-- BAR.INIT at its entry (R248). -/
def Barrier.init (e : Barrier) (b n sc : Nat) (pb : Word) : Except Exc Barrier :=
  if n = 0 then .error (barErr b 6 0 0)
  else if 2 ^ 36 ≤ pb.toNat then .error (barErr b 3 pb.toNat 0)
  else if e.initd ∧ e.exp = n ∧ e.scope = sc then .ok e
  else if e.initd ∧ (e.arr ≠ 0 ∨ e.pend ≠ 0) then .error (barErr b 5 (n + sc * 2 ^ 12) 0)
  else .ok { e with initd := true, exp := n, scope := sc, pend := pb.toNat, arr := 0 }

/-- BAR.EXPECT at its entry (R248). -/
def Barrier.expect (e : Barrier) (b : Nat) (bytes : Word) : Except Exc Barrier :=
  if !e.initd then .error (barErr b 1 0 0)
  else if 2 ^ 36 ≤ e.pend + bytes.toNat then .error (barErr b 3 bytes.toNat 0)
  else .ok { e with pend := e.pend + bytes.toNat }

/-- The instructions whose events the Barrier File takes in a sequencer's program order (R246). -/
def OpKind.barrier : OpKind → Bool
  | .barInit _ _ _ _ => true
  | .barArrive _ _ _ => true
  | .barExpect _ _ => true
  | .barTest _ => true
  | _ => false

/-- A barrier instruction comes before another. -/
def Gang.olderBar (g : Gang) (q n : Nat) : Bool := g.ops.any fun o => o.kind.barrier && g.before o.q o.oid q n

/-! The end of an operation. -/

/-- An operation leaves its gang, its token lowered. -/
def State.endOp (s : State) (o : TokOp) : State :=
  (s.updG fun g => { g with ops := g.ops.filter (·.oid != o.oid) }).lower o.q o.sys o.tok

/-- An operation ends with a result in its register (R44). DESIGN CHOICE: of every tokened operation of the S slot but a load, an
atomic and VSET, the register changes in the one event in which the token clears, so that a read before finds the old value;
R44 lets it find either. -/
def State.opResult (s : State) (o : TokOp) (v : Word) : State :=
  (s.updG fun g => g.updSeq o.q fun x => x.setReg o.d v).endOp o

/-- An operation ends with a deferred cause of its gang (R371). -/
def State.opFail (s : State) (o : TokOp) (e : Exc) : State :=
  (s.updG fun g => g.defer o.q 0 { e with slot := o.slot }).endOp o

/-- A barrier event of the gang's launch that a test may reject. -/
def State.barOp (s : State) (o : TokOp) (b : Nat) (f : Barrier → Except Exc Barrier) : State :=
  match s.launch s.g.info.lid with
  | none => s.endOp o
  | some l =>
    match f (s.barrier l b) with
    | .ok e => (s.barEvent l b e).endOp o
    | .error e => s.opFail o e

/-- BAR.ARRIVE (R248, R171). -/
def State.arriveOp (s : State) (o : TokOp) (b cnt : Nat) (batch : BitVec 16) : State :=
  if !s.g.batchesDone batch ∨ !s.g.inOrder o.q o.oid then s
  else match s.arriveAt o.q b cnt batch with
    | .error e => s.opFail o e
    | .ok (s, e) => s.opResult o (BitVec.ofNat 64 ((if e.phase then 1 else 0) + 2 * e.arr))

/-- BAR.TEST (R248). -/
def State.testOp (s : State) (o : TokOp) (b : Nat) : State :=
  match s.launch s.g.info.lid with
  | none => s.endOp o
  | some l => s.opResult o (s.barrier l b).word

/-! Queue instructions (R295 to R297). -/

/-- QSCOPE's subcode, or none (R296). -/
def State.scopeFault (s : State) (d : QDesc) : Option Nat :=
  if d.bad then some 3
  else if d.part ≠ s.g.info.part then some 2
  else if d.scope = 1 ∧ d.home ≠ s.myDie then some 1
  else none

/-- The value of a full queue. -/
def allOnes : Word := BitVec.allOnes 64

/-- QPUSH at the descriptor's home, whose die translates the slot (R295): what the gang's engines wrote locally is published
at the queue's scope, and the packet stands in its slot before WIDX shows it. -/
def State.pushOp (s : State) (o : TokOp) (desc pk : Nat) : State :=
  let d := s.qdesc desc
  match s.scopeFault d with
  | some sub => s.opFail o ⟨.qscope, infoOf sub 0, 0⟩
  | none =>
    if d.ridx + d.rsize ≤ d.widx then s.opResult o allOnes
    else match s.agentAddr (homeDie desc) d.part (d.slotVa d.widx) 1 with
      | .error none => s
      | .error (some f) => s.opFail o ⟨f.1, faultInfo f (d.slotVa d.widx), 0⟩
      | .ok pa =>
        let s := s.noteUse (homeDie desc) d.part [(d.slotVa d.widx, 1)]
        let (s, p) := s.publish d.scope (s.g.seq o.q).pts fun _ => false
        let (s, p) := s.readAt p pk 64
        let (s, bs) := s.seen pk 64
        let (s, p) := s.writeAt p pa bs
        ((s.tookPoint o.q o.oid p).rPut o.q (desc + 0x10) 8 (d.widx + 1)).opResult o (BitVec.ofNat 64 d.widx)

/-- Keep what a packet slot holds when a gang reserves it (R274). -/
def State.noteSlot (s : State) (d : QDesc) (die idx : Nat) : State :=
  match s.agentAddr die d.part (d.slotVa idx) 1 with
  | .ok pa => { s with unseen := ⟨s.g.gid, none, pa, s.mem.bytes pa 64, [], true⟩ :: s.unseen }
  | .error _ => s

/-- QRES at the descriptor's home (R295): the slots' contents up to the gang's FENCE are open to a Referee (R274). -/
def State.reserveOp (s : State) (o : TokOp) (desc : Nat) (n : Word) : State :=
  let d := s.qdesc desc
  match s.scopeFault d with
  | some sub => s.opFail o ⟨.qscope, infoOf sub 0, 0⟩
  | none =>
    if n = 0 ∨ d.ridx + d.rsize < d.widx + n.toNat then s.opResult o allOnes
    else ((List.range n.toNat).foldl (fun s k => s.noteSlot d (homeDie desc) (d.widx + k))
      (s.rPut o.q (desc + 0x10) 8 (d.widx + n.toNat))).opResult o (BitVec.ofNat 64 d.widx)

/-- SIG (R297). -/
def State.sigOp (s : State) (o : TokOp) (key : Nat) (set : Bool) (v : Word) (batch : BitVec 16) : State :=
  if !s.g.fenced o.q o.oid batch ∨ !s.g.inOrder o.q o.oid then s
  else
    let s := s.publishBatches 3 o.q batch
    let (s, p, _) := s.atomicAt (s.g.seq o.q).pts key 8 fun x => if set then v.toNat else (x + v.toNat) % 2 ^ 64
    (s.tookPoint o.q o.oid p).endOp o

/-- ECOMMIT (R315): the commit, and the record it writes. -/
def State.commitOp (s : State) (o : TokOp) (batch : BitVec 16) : State :=
  match s.launch s.g.info.lid with
  | none => s.endOp o
  | some l =>
    if !s.g.fencedAll o.oid batch ∨ !s.g.inOrder o.q o.oid then s
    else if l.tally.committed then s.opResult o 1
    else match s.recordAt l.info.home l.info.part l.crec with
      | .error () => s
      | .ok pa =>
        let s := (s.publishBatches 3 o.q batch).updLaunch l.info.lid fun l =>
          { l with tally := { l.tally with committed := true } }
        match pa with
        | none => s.opResult o 2
        | some pa =>
          let s := s.noteUse l.info.home l.info.part [(l.crec, 1)]
          let (s, p) := s.writeAt (max s.g.q0.pts s.g.q1.pts) pa (s.launchRecord l 1 s.g.egReason)
          (s.tookPoint o.q o.oid p).opResult o 0

/-- PROG (R313). -/
def State.progOp (s : State) (o : TokOp) (u : Nat) : State :=
  (s.updLaunch s.g.info.lid fun l => { l with progress := min (l.progress + u) (2 ^ 64 - 1) }).endOp o

/-! Retrieval reads, TLBINV, pages, segments. -/

/-- A retrieval operation of the S slot at its point, in program order, on memory as the gang obtains it (R156, R167, R255, R268,
R269). -/
def State.retOp (s : State) (o : TokOp) (f : State → Except RErr (State × Option Word)) : State :=
  if !s.g.inOrder o.q o.oid then s
  else s.inView fun s => match f s with
    | .ok (s, some v) => (s.tookPoint o.q o.oid (s.g.seq o.q).pts).opResult o v
    | .ok (s, none) => (s.tookPoint o.q o.oid (s.g.seq o.q).pts).endOp o
    | .error .wait => s
    | .error (.rtab sub v) => s.opFail o ⟨.rtab, infoOf sub (v % 2 ^ 56), 0⟩
    | .error (.park c i) => s.opFail o ⟨c, i, 0⟩

/-- TLBINV (R336), first treated as a FENCE at its scope: DIE for the issuing die, PKG for all dies. -/
def State.invOp (s : State) (o : TokOp) (va c : Word) (batch : BitVec 16) : State :=
  if !s.g.fenced o.q o.oid batch then s
  else
    let s := s.publishBatches (1 + bits c.toNat 7 6) o.q batch
    let die := if bits c.toNat 7 6 = 0 then some s.myDie else none
    (s.flushTlbs die (bits c.toNat 5 4) (bits c.toNat 3 0) va.toNat).endOp o

/-- The end of a page operation: STATUS and DONE are written, and the token clears (R337). -/
def State.pagesEnd (s : State) (o : TokOp) (key status done : Nat) : State :=
  ((s.rPut o.q (key + 0x20) 4 status).rPut o.q (key + 0x24) 4 done).endOp o

/-- The next page of a page operation: one indivisible update (R337). PGSHARE removes the source page's translations as
well as the target's: one filled for a write would pass the COW test of the frame that is shared from now on (R338). -/
def State.pagesOp (s : State) (o : TokOp) (k : PageKind) (key done : Nat) : State :=
  let b := s.pageBlock key
  if !b.ok k then s.pagesEnd o key 7 0
  else if s.pageSilent b.dpart (b.dva + done * 2 ^ 17) ∨ (k = .share ∧ s.pageSilent b.spart (b.sva + done * 2 ^ 17)) then s
  else match s.pageStep o.q k b done with
    | .wait => s
    | .fail st => s.pagesEnd o key st done
    | .single => s.pagesEnd o key 1 1
    | .done s =>
      let s := s.flushTlbs none 0 b.dpart (b.dva + done * 2 ^ 17)
      let s := if k = .share then s.flushTlbs none 0 b.spart (b.sva + done * 2 ^ 17) else s
      if b.npage ≤ done + 1 then s.pagesEnd o key 0 (done + 1)
      else s.updG fun g =>
        { g with ops := g.ops.map fun x => if x.oid = o.oid then { x with kind := .pages k key (done + 1) } else x }

/-- SEGLD (R106): done when the segment is resident; a failed filling ends it too, and a fetch that was given up starts
again. One of a handler ends with the gang, when that is stopped in SYS mode (R310). -/
def State.segOp (s : State) (o : TokOp) (seg : Nat) : State :=
  if s.g.inSys != o.sys then (if s.g.stopping then s.endOp o else s)
  else match s.frameOf seg with
    | some f =>
      match f.fill with
      | .resident => s.endOp o
      | .failed _ => s.endOp o
      | _ => s
    | none =>
      match (s.forSeq o.q).askSegment seg 0 with
      | .trap _ => s.endOp o
      | _ =>
        if s.mySlot.wants.any fun w => w.is s.imageOwner s.imageTab s.g.info.part seg then s else (s.forSeq o.q).startFetch seg

/-- The physical keys that an operation acts at: a descriptor and the packet that goes to its queue, a signal, a page command block
(R295, R297, R337). -/
def OpKind.keys : OpKind → List Nat
  | .qpush desc pk => [desc, pk]
  | .qres desc _ => [desc]
  | .sig key _ _ _ => [key]
  | .pages _ key _ => [key]
  | _ => []

/-- A tokened operation comes to its effect. -/
def State.opStep (s : State) (o : TokOp) : State :=
  if o.kind.barrier ∧ s.g.olderBar o.q o.oid then s
  else match o.kind with
    | .barInit b n sc pb => s.barOp o b fun e => e.init b n sc pb
    | .barArrive b cnt batch => s.arriveOp o b cnt batch
    | .barExpect b bytes => s.barOp o b fun e => e.expect b bytes
    | .barTest b => s.testOp o b
    | .qpush desc pk => if s.g.olderQueueOp o.q o.oid desc ∨ !s.g.inOrder o.q o.oid then s else s.pushOp o desc pk
    | .qres desc n => if s.g.olderQueueOp o.q o.oid desc ∨ !s.g.inOrder o.q o.oid then s else s.reserveOp o desc n
    | .sig key set v batch => s.sigOp o key set v batch
    | .prog u => s.progOp o u
    | .vsetNone => s.opResult o 2
    | .ecommit batch => s.commitOp o batch
    | .rfam n a => s.retOp o fun s => (s.loadFamily o.q n.toNat a.toNat).map fun s => (s, none)
    | .rstat t c => s.retOp o fun s => (s.readCounter o.q t.toNat c.toNat).map fun r => (r.1, some r.2)
    | .rcur t => s.retOp o fun s => (s.readCursor o.q t.toNat).map fun r => (r.1, some r.2)
    | .tlbinv va c batch => s.invOp o va c batch
    | .pages k key done => s.pagesOp o k key done
    | .suspend gid _ => if s.gangs.any fun g => g.gid == gid && !g.stopping && !g.halted then s else s.endOp o
    | .segld seg => s.segOp o seg
    | .bwait ms => if s.g.parts.any fun p => match p.batch with
        | some m => ms.contains m
        | none => false then s else (s.updG Gang.dropLeases).endOp o
    | .soon => s.endOp o

/-- TOKENED_OPERATION_COMPLETE (R42, R44), unless nothing answers for a line it acts on (R369). -/
def execTokenedOperationComplete (gid oid : Nat) (s : State) : Host.Outcome State Fault Refusal :=
  (s.withGang gid fun s =>
    match s.g.ops.find? (·.oid == oid) with
    | none => s
    | some o => if o.kind.keys.all s.reachesKey then s.opStep o else s).next

end Sys2Proof.Machine
end

