-- ==== Sys2Proof/Machine/CopyPlan.lean ====
section
/-! DEFINITION. Copy parts: their command blocks and the checks of them (R179 to R189, R194), and the moves a part is made
of, unit by unit (R164, R182 to R189). -/

namespace Sys2Proof.Machine

/-! Tensor descriptors (R180). -/

/-- A tensor descriptor. -/
structure Tensor where
  base : Nat
  fmt : Nat
  ndim : Nat
  flags : Nat
  dims : List Nat
  strides : List Int
  zeros : Bool
  deriving DecidableEq, Repr

/-- The entries of a list at an index and above are zero. -/
def zerosFrom {α : Type} [DecidableEq α] [OfNat α 0] (n : Nat) (l : List α) : Bool := (l.drop n).all (· == 0)

/-- The descriptor at an offset of a part's block, with whether its reserved fields and unused entries are zero. -/
def Part.tensor (p : Part) (o : Nat) : Tensor :=
  let nd := p.f (o + 9) 1
  let dims := (List.range 6).map fun k => p.f (o + 0x10 + 4 * k) 4
  let strides := (List.range 6).map fun k => sextNat (p.f (o + 0x28 + 8 * k) 8) 64
  let z := decide (p.f (o + 10) 1 ≤ 1) && p.f (o + 11) 5 == 0 && p.f (o + 0x58) 8 == 0 && strides.getD 0 0 == 0
  { base := p.f o 8, fmt := p.f (o + 8) 1, ndim := nd, flags := p.f (o + 10) 1, dims := dims, strides := strides,
    zeros := z && zerosFrom nd dims && zerosFrom nd strides }

/-- The two descriptors. A FILL's source is its value (R183). -/
def Part.src (p : Part) : Tensor := p.tensor 0
/-- The destination descriptor. -/
def Part.dst (p : Part) : Tensor := p.tensor 0x60
/-- ORG. -/
def Part.org (p : Part) : List Nat := (List.range 6).map fun k => p.f (0xC0 + 4 * k) 4
/-- EXT. -/
def Part.ext (p : Part) : List Nat := (List.range 6).map fun k => p.f (0xD8 + 4 * k) 4
/-- MODE. -/
def Part.mode (p : Part) : Nat := p.f 0xF0 1
/-- BM. -/
def Part.bm (p : Part) : Nat := p.f 0xF8 8

/-- The descriptors a part uses. -/
def Part.used (p : Part) : List Tensor := if p.kind = .fill then [p.dst] else [p.src, p.dst]

/-- The tensor the region's origin applies to (R182, R183). -/
def Part.regionOf (p : Part) : Tensor := if p.kind = .fill ∨ p.mode = 3 then p.dst else p.src

/-- n, the dimensions that the elements of the region are counted by: SRC.NDIM in every mode of COPY (R182), and of a FILL, which
has no source, DST.NDIM (R183). -/
def Part.rank (p : Part) : Nat := if p.kind = .fill then p.dst.ndim else p.src.ndim

/-- The elements of the region. -/
def Part.cells (p : Part) : Nat := (p.ext.take p.rank).foldl (· * ·) 1

/-- The width of the elements in bits. -/
def Part.width (p : Part) : Nat := widthOf p.dst.fmt

/-- Why a part stops, or none for a LOCK it waits for. -/
abbrev CopyErr := Option (Cause × Word)

/-- SHAPE with the block's offset (R181). -/
def Part.shapeErr (p : Part) (sub : Nat) : CopyErr := some (.shape, infoOf sub (p.off % 2 ^ 56))

/-- ALIGN 1 with an address (R180, R182, R185, R186). -/
def alignErr (a : Nat) : CopyErr := some (.align, infoOf 1 (a % 2 ^ 56))

/-- Fail unless a test holds. -/
def cCheck (ok : Bool) (e : CopyErr) : Except CopyErr Unit := if ok then .ok () else .error e

/-- a_k + b_k ≤ c_k below n. -/
def within (n : Nat) (a b c : List Nat) : Bool := (List.range n).all fun k => decide (a.getD k 0 + b.getD k 0 ≤ c.getD k 0)

/-- The region lies inside the tensors (R182), which bounds it for modes 0 to 3 alone, in every dimension of the tensor that its origin applies to. DESIGN CHOICE: a transpose of fewer than two dimensions, which has no DIM[1],
passes here and is reported by the later row of R181's table, 0x14. -/
def Part.regionOk (p : Part) : Bool :=
  let n := p.regionOf.ndim
  let z := List.replicate 6 0
  let d := p.dst.dims
  let e := p.ext
  (p.kind != .fill && decide (3 < p.mode) || within n p.org e p.regionOf.dims)
    && (p.kind == .fill || p.mode != 0 || within n z e d)
    && (p.kind == .fill || p.mode != 1 || decide (n < 2)
      || (decide (e.getD 0 0 ≤ d.getD 1 0) && decide (e.getD 1 0 ≤ d.getD 0 0)
        && within (n - 2) z (e.drop 2) (d.drop 2)))

/-- The destination bytes of a zero-pack of the elements `vs` (R182). -/
def Part.packBytes (p : Part) (vs : List Nat) : Nat :=
  ((vs.filter (· != 0)).length * p.width + 7) / 8 + 8 + (vs.length + 7) / 8

/-- The checks of COPY and FILL, in the order of R181's table, then the alignments (R180, R182). What a zero-pack lands
depends on its elements: it is tested when they have been read. DESIGN CHOICE: the NDIM at and above which ORG and EXT must be
zero, and below which no EXT may be, is that of the tensor that ORG applies to, in mode 3 DST; and of several misaligned
addresses the first of SRC.BASE, DST.BASE and BM is reported. R180 to R182 say neither. -/
def Part.checkTensor (p : Part) : Except CopyErr Unit := do
  let fill := p.kind == .fill
  let packs := !fill && (p.mode == 2 || p.mode == 3)
  let n := p.regionOf.ndim
  let packed := if p.mode = 2 then p.dst else p.src
  let w := p.width
  cCheck (decide (p.f 0xF1 1 ≤ 1) && p.f 0xF2 6 == 0 && p.used.all (·.zeros)
    && (if fill then p.f 8 88 == 0 && p.bm == 0 else packs || p.bm == 0)
    && zerosFrom n p.org && zerosFrom n p.ext) (p.shapeErr 0x10)
  cCheck (p.used.all (fun t => decide (1 ≤ t.ndim) && decide (t.ndim ≤ 6))
    && (fill || decide (2 ≤ p.mode) || p.src.ndim == p.dst.ndim)) (p.shapeErr 0x11)
  cCheck (p.used.all (fun t => decide (t.fmt ≤ 9)) && (fill || widthOf p.src.fmt == w)) (p.shapeErr 0x12)
  cCheck (p.used.all (fun t => (t.dims.take t.ndim).all (· != 0)) && (p.ext.take n).all (· != 0) && p.regionOk)
    (p.shapeErr 0x13)
  cCheck (decide (p.mode ≤ 3) && (!fill || p.mode == 0) && (p.mode != 1 || (decide (2 ≤ n) && w != 4))) (p.shapeErr 0x14)
  cCheck (w != 4 || (p.org.getD 0 0 % 2 == 0 && p.ext.getD 0 0 % 2 == 0)) (p.shapeErr 0x15)
  cCheck (!packs || (packed.ndim == 1 && decide (p.cells ≤ packed.dims.getD 0 0))) (p.shapeErr 0x16)
  cCheck (decide (p.cells ≤ 2 ^ 32) && ((!fill && p.mode == 2) || decide (p.cells * w / 8 ≤ 2 ^ 32))) (p.shapeErr 0x17)
  match p.used.find? fun t => decide (8 ≤ w) && (t.base % (w / 8) != 0 || t.strides.any fun i => i % (w / 8 : Nat) != 0) with
  | some t => .error (alignErr t.base)
  | none => cCheck (!packs || p.bm % 8 == 0) (alignErr p.bm)

/-- The checks of GATHER and SCATTER (R185). DESIGN CHOICE: where TBASE and XBASE are both misaligned, TBASE is reported; R185 gives
no order. -/
def Part.checkRows (p : Part) : Except CopyErr Unit := do
  cCheck (decide (p.f 0x30 4 < 16) && p.f 0x34 12 == 0) (p.shapeErr 0x10)
  cCheck (p.f 8 8 % 8 == 0 && decide (8 ≤ p.f 0x10 4) && decide (p.f 0x10 4 ≤ 65536) && p.f 0x10 4 % 8 == 0
    && decide (p.f 0x14 4 ≤ 65536) && p.f 0x18 4 % 4 == 0 && p.f 0x28 8 % 8 == 0) (p.shapeErr 0x18)
  cCheck (p.f 0 8 % 8 == 0) (alignErr (p.f 0 8))
  cCheck (p.f 0x20 8 % 8 == 0) (alignErr (p.f 0x20 8))

/-- The peer side's address: DADDR of a PUT, SADDR of a GET. -/
def Part.peerAddr (p : Part) : Nat := if p.kind = .put then p.f 0 8 else p.f 8 8

/-- A port in service (R365). -/
def State.portOn (s : State) (n : Nat) : Bool :=
  match s.ports[n]? with
  | some q => q.up && q.en
  | none => false

/-- PAGE with a subcode and the peer side's address (R187). -/
def Part.peerErr (p : Part) (sub : Nat) : CopyErr := some (.page, infoOf sub (p.peerAddr % 2 ^ 56))

/-- The checks of PUT and GET (R186, R187). DESIGN CHOICE: where DADDR and SADDR are both misaligned, DADDR is reported; R186 gives no
order. -/
def State.checkPut (s : State) (p : Part) : Except CopyErr Unit := do
  cCheck (decide (p.f 0x15 1 < 4) && p.f 0x16 10 == 0) (p.shapeErr 0x10)
  let n := p.f 0x10 4
  let flag := if p.kind = .put then bit (p.f 0x15 1) 0 else bit (p.f 0x15 1) 1
  cCheck (decide (8 ≤ n) && decide (n ≤ 2 ^ 24) && n % 8 == 0 && decide (p.f 0x14 1 ≤ 8) && !(p.peer.isSome && flag))
    (p.shapeErr 0x1A)
  match p.peer with
  | some k => cCheck (s.portOn k) (p.peerErr 8)
  | none => .ok ()
  cCheck (p.f 0 8 % 8 == 0) (alignErr (p.f 0 8))
  cCheck (p.f 8 8 % 8 == 0) (alignErr (p.f 8 8))

/-- The checks of RGATH (R189): BASE is a window address whose OFF is zero. DESIGN CHOICE: nonzero bits [44:20], which R130
gives no window address, are of the same class and give 0x18; a SLOT of 12 to 15 or an absent die is left to the access, which
meets PAGE 5. -/
def Part.checkReply (p : Part) : Except CopyErr Unit :=
  let base := p.f 0x18 8
  cCheck (p.f 0 4 % 4 == 0 && decide (p.f 4 4 ≤ 4096) && p.f 8 4 % 8 == 0 && decide (8 ≤ p.f 0xC 4)
    && decide (p.f 0xC 4 ≤ 1024) && p.f 0xC 4 % 8 == 0 && p.f 0x10 4 % 8 == 0 && p.f 0x14 4 % 8 == 0
    && decide (base / 2 ^ 55 = 1) && bits base 44 0 == 0) (p.shapeErr 0x18)

/-- The checks of PIN and UNPIN (R194). -/
def Part.checkPin (p : Part) : Except CopyErr Unit := do
  let n := p.f 8 8
  cCheck (decide (256 ≤ n) && decide (n ≤ 2 ^ 26) && n % 256 == 0) (p.shapeErr 0x1A)
  cCheck (p.f 0 8 % 256 == 0) (alignErr (p.f 0 8))

/-! Places and moves (R164, R180). -/

/-- One side of a move: a local offset of the part's engine, which no slice makes finite (R4), or a data address. -/
inductive Ref where
  | loc (off : Int)
  | va (a : Nat)
  deriving DecidableEq, Repr

/-- A place by its flag. -/
def refOf (loc : Bool) (a : Nat) : Ref := if loc then .loc a else .va a

/-- The place some signed bytes from a base, by its flag: the sum of a local offset is exact, that of an address has 64 bits
(R4). -/
def placeOf (loc : Bool) (base : Nat) (i : Int) : Ref := if loc then .loc (base + i) else .va (addOff base i)

/-- A place some bytes on. -/
def Ref.plus (r : Ref) (n : Nat) : Ref :=
  match r with
  | .loc o => .loc (o + n)
  | .va a => .va ((a + n) % 2 ^ 64)

/-- One move of 4, 8, 16, 32 or 64 bits to a place, of the upper nibble when `hi`: a value, or what stands at a source. -/
structure UnitMove where
  dst : Ref
  hi : Bool
  bits : Nat
  value : Nat
  src : Option (Ref × Bool)
  deriving DecidableEq, Repr

/-- The bytes a move touches at either side. -/
def UnitMove.bytes (m : UnitMove) : Nat := (m.bits + 7) / 8

/-- The index vectors of a region, i0 varying fastest (R182). -/
def indexes : List Nat → List (List Nat)
  | [] => [[]]
  | e :: es => ((indexes es).map fun t => (List.range e).map (· :: t)).flatten

/-- Where element x of a tensor stands, and whether it is an upper nibble (R180). -/
def Tensor.at_ (t : Tensor) (w : Nat) (x : List Nat) : Ref × Bool :=
  let far := ((List.range 6).drop 1).foldl (fun a k => a + (x.getD k 0 : Int) * t.strides.getD k 0) (0 : Int)
  (placeOf (bit t.flags 0) t.base (far + (x.getD 0 0 * w / 8 : Nat)), w == 4 && x.getD 0 0 % 2 == 1)

/-- Add an index vector to an origin; one of fewer dimensions is 0 in the others. -/
def addIdx (a b : List Nat) : List Nat := a.zipIdx.map fun x => x.1 + b.getD x.2 0

/-- j := i with j0 and j1 exchanged. -/
def swapIdx : List Nat → List Nat
  | a :: b :: r => b :: a :: r
  | l => l

/-- The index vectors of the part's region. -/
def Part.region (p : Part) : List (List Nat) := indexes (p.ext.take p.rank)

/-- The places of the source elements in region order. -/
def Part.sources (p : Part) : List (Ref × Bool) :=
  if p.kind != .copy then []
  else if p.mode = 3 then (List.range (p.done2.filter (· != 0)).length).map fun k => p.src.at_ p.width [k]
  else p.region.map fun i => p.src.at_ p.width (addIdx p.org i)

/-- Whether an element packs as zero (R182). -/
def isZeroElem (fmt v : Nat) : Bool :=
  match decodeElem fmt false v with
  | .zero _ => true
  | _ => false

/-- The 64-bit units of a value of n bytes at a place of 8-byte alignment. -/
def unitsOf (r : Ref) (bs : List Byte) : List UnitMove :=
  (List.range ((bs.length + 7) / 8)).map fun k =>
    let u := (bs.drop (8 * k)).take 8
    ⟨r.plus (8 * k), false, 8 * u.length, leValue u, none⟩

/-- The bitmap of a list of values, as bytes. -/
def bitmapOf (vs : List Nat) : List Byte :=
  leBytes ((vs.length + 7) / 8) (vs.zipIdx.foldl (fun a x => if x.1 = 0 then a else a + 2 ^ x.2) 0)

/-- Where the bitmap's block begins. -/
def Part.bmRef (p : Part) : Ref := refOf (bit (p.f 0xF1 1) 0) p.bm

/-- The moves of a COPY or FILL. `done2` holds the source's elements for zero-pack and the bitmap for zero-unpack. -/
def Part.tensorMoves (p : Part) : List UnitMove :=
  let w := p.width
  let mv (d : Ref × Bool) (v : Nat) (s : Option (Ref × Bool)) : UnitMove := ⟨d.1, d.2, w, v, s⟩
  if p.kind = .fill then p.region.map fun i => mv (p.dst.at_ w (addIdx p.org i)) (p.f 0 8 % 2 ^ w) none
  else match p.mode with
    | 0 => p.region.map fun i => mv (p.dst.at_ w i) 0 (some (p.src.at_ w (addIdx p.org i)))
    | 1 => p.region.map fun i => mv (p.dst.at_ w (swapIdx i)) 0 (some (p.src.at_ w (addIdx p.org i)))
    | 2 =>
      let vs := p.done2.map fun v => if isZeroElem p.src.fmt v then 0 else v + 1
      let keep := vs.filter (· != 0)
      let pad := if w = 4 ∧ keep.length % 2 = 1 then [mv (p.dst.at_ w [keep.length]) 0 none] else []
      (keep.zipIdx.map fun x => mv (p.dst.at_ w [x.2]) (x.1 - 1) none) ++ pad
        ++ unitsOf p.bmRef (leBytes 8 keep.length ++ bitmapOf vs)
    | _ =>
      (p.region.zip p.done2).foldl (fun (a : List UnitMove × Nat) x =>
        let d := p.dst.at_ w (addIdx p.org x.1)
        if x.2 = 0 then (a.1 ++ [mv d 0 none], a.2)
        else (a.1 ++ [mv d 0 (some (p.src.at_ w [a.2]))], a.2 + 1)) ([], 0) |>.1

/-- A row of n bytes, in units, from a place or of zeros. -/
def rowMoves (dst : Ref) (src : Option Ref) (n : Nat) : List UnitMove :=
  (List.range (n / 8)).map fun k => ⟨dst.plus (8 * k), false, 64, 0, src.map fun r => (r.plus (8 * k), false)⟩

/-- The null id. -/
def nullId : Nat := 0xFFFFFFFF

/-- The moves of a GATHER or SCATTER; `done2` holds the ids (R185). -/
def Part.rowsMoves (p : Part) : List UnitMove :=
  let fl := p.f 0x30 4
  let rb := p.f 0x10 4
  let row (i id : Nat) : List UnitMove :=
    let t := placeOf (bit fl 0) (p.f 0 8) ((id : Int) * sextNat (p.f 8 8) 64)
    let x := placeOf (bit fl 1) (p.f 0x20 8) ((i : Int) * sextNat (p.f 0x28 8) 64)
    if bit fl 3 ∧ id = nullId then (if p.kind = .gather then rowMoves x none rb else [])
    else if p.kind = .gather then rowMoves x (some t) rb
    else rowMoves t (some x) rb
  (p.done2.zipIdx.map fun x => row x.2 x.1).flatten

/-- The moves of an RGATH; `done2` holds the ids (R189). -/
def Part.replyMoves (p : Part) : List UnitMove :=
  let rb := p.f 0xC 4
  let row (i id : Nat) : List UnitMove :=
    rowMoves (.loc (p.f 8 4 + i * rb : Nat))
      (if id = nullId then none
       else some (.va ((p.f 0x18 8 + id / 2 ^ 28 * 2 ^ 45 + p.f 0x10 4 + id % 2 ^ 28 * p.f 0x14 4) % 2 ^ 64))) rb
  (p.done2.zipIdx.map fun x => row x.2 x.1).flatten

/-- The moves of a PUT or GET. What a peer has sent stands in `got`; a PUT to a peer moves nothing here. -/
def Part.putMoves (p : Part) : List UnitMove :=
  let n := p.f 0x10 4
  let d := refOf (bit (p.f 0x15 1) 0) (p.f 0 8)
  let s := refOf (bit (p.f 0x15 1) 1) (p.f 8 8)
  match p.peer with
  | none => rowMoves d (some s) n
  | some _ => if p.kind = .put then [] else unitsOf d (((p.got.map (·.2)).flatten).take n)

/-- The moves of a part. -/
def Part.moves (p : Part) : List UnitMove :=
  match p.kind with
  | .copy | .fill => p.tensorMoves
  | .gather | .scatter => p.rowsMoves
  | .rgath => p.replyMoves
  | .put | .get => p.putMoves
  | _ => []

/-- The unit of a place. -/
def Ref.unit (r : Ref) : Bool × Int :=
  match r with
  | .loc o => (true, o / 8)
  | .va a => (false, (a / 8 : Nat))

/-- Put a move into the item of its destination unit. -/
def joinMove (m : UnitMove) : List (List UnitMove) → List (List UnitMove)
  | [] => [[m]]
  | ms :: r => if (ms.head?.map fun x => x.dst.unit) = some m.dst.unit then (ms ++ [m]) :: r else ms :: joinMove m r

/-- What a part writes, item by item: the elements of one destination unit for COPY and FILL, whose elements may share a
unit; a unit of one row for the others. -/
def Part.items (p : Part) : List (List UnitMove) :=
  match p.kind with
  | .copy | .fill => p.moves.foldl (fun a m => joinMove m a) []
  | _ => p.moves.map fun m => [m]

end Sys2Proof.Machine
end

