-- ==== Sys2Proof/Machine/CopyEvents.lean ====
section
/-! DEFINITION. Copy parts being carried out (R175, R177, R187, R188, R192 to R196): a channel starts a part, reads and
writes its units, credits barriers, and completes it or stops at a fault. -/

namespace Sys2Proof.Machine

/-- What the address of an access of n bytes is a multiple of: the access reads or writes aligned units, of which the end of a
bitmap may be a part (R164, R182). -/
def unitAlign (n : Nat) : Nat := if n = 2 ∨ n = 4 ∨ n = 8 ∨ n = 256 then n else 1

/-- The key of n bytes at a place of a part, for an access, with the translation a cache may take; an error that is none is a
wait for a LOCK. -/
def State.refAt (s : State) (p : Part) (r : Ref) (n : Nat) (acc : Acc) : Except CopyErr (Nat × Option TlbEnt) :=
  match r with
  | .loc off =>
    if 0 ≤ off ∧ s.g.inAlloc off.toNat n then .ok (s.g.localKey p.lane off.toNat, none)
    else .error (some (.prot, infoOf 5 (off.emod (2 ^ 56)).toNat))
  | .va a =>
    match s.locateFor (some (p.pid / 16)) [] s.myDie s.g.info.part false a (unitAlign n) acc with
    | .at_ key e => .ok (key, e)
    | .fault f => .error (some (f.1, faultInfo f a))
    | .wait => .error none

/-- The key of n bytes at a place of a part, for an access. -/
def State.refKey (s : State) (p : Part) (r : Ref) (n : Nat) (acc : Acc) : Except CopyErr Nat :=
  (s.refAt p r n acc).map (·.1)

/-- The key of n bytes at a place of a part; the die's shared TLB takes the translation (R140). -/
def State.refUse (s : State) (p : Part) (r : Ref) (n : Nat) (acc : Acc) : Except CopyErr (State × Nat) :=
  (s.refAt p r n acc).map fun x => (x.2.elim s fun e => s.fillShared s.myDie e, x.1)

/-! Reading (R164). -/

/-- Read the 8-byte unit of a source once: a part that has read a unit keeps it. -/
def State.readUnit (s : State) (p : Part) (r : Ref) (n : Nat) : Except CopyErr (State × Part × Nat) :=
  (s.refUse p r n 0).map fun x =>
    let (s, key) := x
    let u := key / 8 * 8
    if p.got.any (·.1 == u) then (s, p, key)
    else
      let (s, bs) := s.seen u 8
      (s, { p with got := (u, bs) :: p.got }, key)

/-- n bytes at a key of a unit the part has read. -/
def Part.unitBytes (p : Part) (key n : Nat) : List Byte :=
  match p.got.find? (·.1 == key / 8 * 8) with
  | some x => (x.2.drop (key % 8)).take n
  | none => []

/-- The value a move brings. -/
def State.moveValue (s : State) (p : Part) (m : UnitMove) : Except CopyErr (State × Part × Nat) :=
  match m.src with
  | none => .ok (s, p, m.value)
  | some (r, hi) =>
    (s.readUnit p r m.bytes).map fun x =>
      let v := leValue (x.2.1.unitBytes x.2.2 m.bytes)
      (x.1, x.2.1, if m.bits = 4 then (if hi then v / 16 else v % 16) else v)

/-- The values of an item's moves. -/
def State.itemValues (s : State) (p : Part) : List UnitMove → Except CopyErr (State × Part × List Nat)
  | [] => .ok (s, p, [])
  | m :: ms => do
    let (s, p, v) ← s.moveValue p m
    let (s, p, vs) ← s.itemValues p ms
    .ok (s, p, v :: vs)

/-- The keys of the destinations of an item's moves. -/
def State.itemKeys (s : State) (p : Part) : List UnitMove → Except CopyErr (State × List Nat)
  | [] => .ok (s, [])
  | m :: ms => do
    let (s, k) ← s.refUse p m.dst m.bytes 1
    let (s, ks) ← s.itemKeys p ms
    .ok (s, k :: ks)

/-! Writing. -/

/-- One move's bits at its key. -/
def State.putMove (s : State) (key : Nat) (m : UnitMove) (v : Nat) : State :=
  if m.bits = 4 then
    let b := (s.mem.get key).toNat
    { s with mem := s.mem.set key (BitVec.ofNat 8 (if m.hi then b % 16 + 16 * v else b / 16 * 16 + v)) }
  else { s with mem := s.mem.put key (leBytes m.bytes v) }

/-- Two moves of a list have one destination. -/
def sharesPlace : List UnitMove → Bool
  | [] => false
  | m :: ms => (ms.any fun x => x.dst == m.dst && x.hi == m.hi) || sharesPlace ms

/-- A destination unit whose value the spec leaves undetermined (R182): one that the part's own source covers, or that two
of its elements write. -/
def State.undetermined (s : State) (p : Part) (ms : List UnitMove) (key : Nat) : Bool :=
  p.kind == .copy && (sharesPlace ms || p.sources.any fun r =>
    match s.refKey p r.1 ((p.width + 7) / 8) 0 with
    | .ok k => k / 8 == key / 8
    | .error _ => false)

/-- Write 8 free bytes at a unit. -/
def State.putFree (s : State) (key : Nat) : State :=
  (List.range 8).foldl (fun s k =>
    let (n, s) := s.takeFree
    { s with mem := s.mem.set (key / 8 * 8 + k) (Config.freeByte n) }) s

/-- An item is performed: its sources are read, its unit is written whole, and what it held can still be obtained until the
write is published (R165). -/
def State.performItem (s : State) (p : Part) (k : Nat) (ms : List UnitMove) : Except CopyErr (State × Part) := do
  let (s, keys) ← s.itemKeys p ms
  let (s, p, vs) ← s.itemValues p ms
  let key := keys.headD 0
  let s := s.noteUnit p.pid (key / 8 * 8)
  let t :=
    if s.undetermined p ms key then s.putFree key
    else ((keys.zip ms).zip vs).foldl (fun s x => s.putMove x.1.1 x.1.2 x.2) s
  let w : Wrote := ⟨p.pid, p.batch, p.bar, lineOf key, none⟩
  let t := t.updG fun g => { g with wrote := w :: g.wrote.filter (· != w) }
  .ok (t, { p with done := k :: p.done, phase := p.phase + (ms.map (·.bits)).foldl (· + ·) 0 })

/-- The sources of an item are read ahead. -/
def State.readItem (s : State) (p : Part) (ms : List UnitMove) : Except CopyErr (State × Part) :=
  (s.itemValues p ms).map fun x => (x.1, x.2.1)

/-! Credits (R192, R193). -/

/-- Credit bytes to the barrier a part names. -/
def State.creditBar (s : State) (p : Part) (n : Nat) : State :=
  match p.bar, s.launch s.g.info.lid with
  | some b, some l =>
    if n = 0 then s
    else
      let e := s.barrier l b
      if !e.initd then s.updG fun g => g.defer p.q p.lane (barErr b 1 0 p.slot)
      else
        let s := s.barEvent l b { e with pend := e.pend - n }
        if e.pend < n then s.updG fun g => g.defer p.q p.lane (barErr b 4 (n - e.pend) p.slot) else s
  | _, _ => s

/-- Credit what a part has performed and not credited. -/
def State.creditPart (s : State) (p : Part) : State × Part := (s.creditBar p (p.phase / 8), { p with phase := 0 })

/-! The end of a part. -/

/-- A part completes: its credits are made, its token is lowered, and its gang sees its writes (R177, R166). -/
def State.finishPart (s : State) (p : Part) : State :=
  let r := s.creditPart p
  (r.1.endPart r.2).updG Gang.dropLeases

/-- A fault stops a part: what it has performed is credited, and its engine parks (R195). PREFT never parks (R184). -/
def State.stopPart (s : State) (p : Part) (c : Cause) (i : Word) : State :=
  let s := if p.kind = .preft then s else s.updG fun g => g.park p.lane p.head p.slot c i
  s.finishPart p

/-- What a part that meets an error does. -/
def State.copyError (s : State) (p : Part) (e : CopyErr) : State :=
  match e with
  | none => s.putPart p
  | some (c, i) => s.stopPart p c i

/-! Starting (R175, R195). -/

/-- A 32-bit word of a list in the part's own scratchpad; a fault names the word (R141, R195). -/
def State.listWord (s : State) (p : Part) (off : Nat) : Except CopyErr Nat :=
  if s.g.inAlloc off 4 then .ok (s.localLe p.lane off 4) else .error (some (.prot, infoOf 5 (off % 2 ^ 56)))

/-- The n ids of a list, each read and then tested, in order (R185, R189). -/
def State.listIds (s : State) (p : Part) (off n : Nat) (ok : Nat → Bool) : Except CopyErr (List Nat) :=
  (List.range n).mapM fun k => do
    let id ← s.listWord p (off + 4 * k)
    cCheck (ok id) (p.shapeErr 0x19)
    .ok id

/-- The ids of a GATHER or SCATTER, none of which reaches LIMIT (R181, R185). -/
def State.rowIds (s : State) (p : Part) : Except CopyErr (List Nat) := do
  let fl := p.f 0x30 4
  let list := p.f 0x18 4
  let n ← if bit fl 2 then (s.listWord p list).map fun w => min (p.f 0x14 4) w else .ok (p.f 0x14 4)
  s.listIds p (if bit fl 2 then list + 4 else list) n
    fun i => p.f 0x1C 4 == 0 || decide (i < p.f 0x1C 4) || (bit fl 3 && i == nullId)

/-- The ids of an RGATH, none of which names an engine past the slot's (R189). -/
def State.replyIds (s : State) (p : Part) : Except CopyErr (List Nat) :=
  s.listIds p (p.f 0 4) (p.f 4 4) fun i => i == nullId || decide (bits (p.f 0x18 8) 48 45 + i / 2 ^ 28 ≤ 15)

/-- The source elements of a zero-pack, or the bitmap of a zero-unpack (R182). DEDUCED: a zero-pack that would land more than
2^32 bytes is found when its elements have been read, before a byte is written (R181). -/
def State.packData (s : State) (p : Part) : Except CopyErr (State × List Nat) :=
  match p.mode with
  | 2 => do
    let (s, _, vs) ← s.itemValues p (p.sources.map fun r => ⟨.loc 0, false, p.width, 0, some r⟩)
    cCheck (decide (p.packBytes (vs.map fun v => if isZeroElem p.src.fmt v then 0 else 1) ≤ 2 ^ 32)) (p.shapeErr 0x17)
    .ok (s, vs)
  | 3 => do
    let (s, _, vs) ← s.itemValues p ((List.range p.cells).map fun r =>
      ⟨.loc 0, false, 8, 0, some (p.bmRef.plus (8 + r / 8), false)⟩)
    .ok (s, vs.zipIdx.map fun x => if bit x.1 (x.2 % 8) then 1 else 0)
  | _ => .ok (s, [])

/-- The checks of a part before it moves a byte, and what the plan of its moves depends on, with what the walks made for it have
filled (R140). DESIGN CHOICE: the spec does not
order the ALIGN of a misaligned TBASE or XBASE against SHAPE 0x19, which is found in the index list: the bases come first
(R185). -/
def State.startCheck (s : State) (p : Part) : Except CopyErr (State × List Nat) := do
  match p.kind with
  | .copy =>
    p.checkTensor
    s.packData p
  | .fill =>
    p.checkTensor
    .ok (s, [])
  | .gather | .scatter =>
    p.checkRows
    (s.rowIds p).map fun l => (s, l)
  | .rgath =>
    p.checkReply
    (s.replyIds p).map fun l => (s, l)
  | .put | .get =>
    s.checkPut p
    .ok (s, [])
  | .pin | .unpin =>
    p.checkPin
    .ok (s, [])
  | _ => .ok (s, [])

/-- The kinds that a copy channel carries out. -/
def PartKind.channel (k : PartKind) : Bool := !k.retrieval

/-- A part that a channel carries out and that may be performed: every ordinary access before it has been (R164). -/
def State.copyPart (s : State) (pid : Nat) : Option Part :=
  (s.g.parts.find? fun p => p.pid == pid && p.kind.channel).filter fun p => s.g.inOrder p.q (p.pid / 16)

/-- COPY_PART_START (R175, R195). A GET from a peer sends its request (R186). -/
def execCopyPartStart (gid pid : Nat) (s : State) : Host.Outcome State Fault Refusal :=
  (s.withGang gid fun s =>
    match s.copyPart pid with
    | none => s
    | some p =>
      if p.started then s
      else match s.startCheck p with
        | .error e => s.copyError p e
        | .ok (s, ids) =>
          let s := s.putPart { p with started := true, done2 := ids }
          match p.kind, p.peer with
          | .get, some k => s.emit (.peerGet k (p.f 8 8) (p.f 0x10 4))
          | _, _ => s).next

/-! Units and completion. -/

/-- A started part that waits for its peer: it has asked, and no acknowledgement has come (R188). -/
def Part.atPeer (p : Part) : Bool := (p.kind == .put || p.kind == .get) && p.peer.isSome

/-- Perform the items of a list of numbers that are not done. -/
def State.performItems (s : State) (p : Part) (items : List (List UnitMove)) : List Nat → State × Part × Option CopyErr
  | [] => (s, p, none)
  | k :: ks =>
    match items[k]? with
    | none => s.performItems p items ks
    | some ms =>
      if p.done.contains k then s.performItems p items ks
      else match s.performItem p k ms with
        | .ok (t, p) => t.performItems p items ks
        | .error e => (s, p, some e)

/-- Read ahead for the items of a list of numbers. -/
def State.readItems (s : State) (p : Part) (items : List (List UnitMove)) : List Nat → State × Part × Option CopyErr
  | [] => (s, p, none)
  | k :: ks =>
    match items[k]? with
    | none => s.readItems p items ks
    | some ms =>
      match s.readItem p ms with
      | .ok (s, p) => s.readItems p items ks
      | .error e => (s, p, some e)

/-- COPY_CREDIT (R164, R192): units are read and units are written; with none named, what has been performed is
credited. -/
def execCopyCredit (gid pid : Nat) (rd wr : List Nat) (s : State) : Host.Outcome State Fault Refusal :=
  (s.withGang gid fun s =>
    match s.copyPart pid with
    | none => s
    | some p =>
      if !p.started ∨ (p.atPeer ∧ p.got.isEmpty) then s
      else if rd.isEmpty ∧ wr.isEmpty then
        let r := s.creditPart p
        r.1.putPart r.2
      else
        let items := p.items
        match s.readItems p items rd with
        | (s, p, some e) => s.copyError p e
        | (s, p, none) =>
          match s.performItems p items wr with
          | (s, p, some e) => s.copyError p e
          | (s, p, none) => s.putPart p).next

/-- Pin or unpin one line (R135, R194): a line whose set has 16 other lines pinned is left. -/
def State.pinLine (s : State) (up : Bool) (n : Nat) : State :=
  let i := s.lineInfo n
  let set (m : Nat) : Nat × Nat × Nat := (homeDie (256 * m), homeSlice (256 * m), homeSet (256 * m))
  if up then
    if i.pins = 0 ∧ 16 ≤ (s.lines.filter fun x => x.pins != 0 && set x.line == set n).length then s
    else s.setLine { i with pins := min (i.pins + 1) 255 }
  else s.setLine { i with pins := i.pins - 1 }

/-- The lines of a PIN or UNPIN, one after the other; a fault stops it. -/
def State.pinLines (s : State) (p : Part) : Nat → Nat → State × Option CopyErr
  | 0, _ => (s, none)
  | n + 1, a =>
    match s.refUse p (.va a) 256 0 with
    | .ok (s, key) => (s.pinLine (p.kind == .pin) (lineOf key)).pinLines p n (a + 256)
    | .error e => (s, some e)

/-- PIN and UNPIN: a window ADDR does nothing (R194). -/
def State.pinPart (s : State) (p : Part) : State :=
  if p.f 0 8 / 2 ^ 55 = 1 then s.finishPart p
  else match s.pinLines p (p.f 8 8 / 256) (p.f 0 8) with
    | (s, none) => s.finishPart p
    | (_, some none) => s
    | (s, some (some (c, i))) => s.stopPart p c i

/-- A PUT to a peer has read its source, and its bytes leave (R186, R188). -/
def State.sendPut (s : State) (p : Part) (k : Nat) : State :=
  let n := p.f 0x10 4
  match s.itemValues p (rowMoves (.loc 0) (some (refOf (bit (p.f 0x15 1) 1) (p.f 8 8))) n) with
  | .error e => s.copyError p e
  | .ok (s, p, vs) =>
    (s.putPart { p with done2 := [1] }).emit (.peerPut k (p.f 0 8) ((vs.map (leBytes 8)).flatten))

/-- The port of a part's peer has left service since the part started (R187, R365). -/
def State.portLost (s : State) (p : Part) : Bool :=
  p.atPeer && match p.peer with
    | some k => p.lost || !s.portOn k
    | none => false

/-- COPY_PART_COMPLETE (R177, R195): the part performs what is left of it and completes, or stops at a fault. A PUT to a
peer sends its bytes; it and a GET from a peer complete on the acknowledgement (R188), and stop when their port has left
service (R365). -/
def execCopyPartComplete (gid pid : Nat) (s : State) : Host.Outcome State Fault Refusal :=
  (s.withGang gid fun s =>
    match s.copyPart pid with
    | none => s
    | some p =>
      if !p.started then s
      else if s.portLost p then s.copyError p (p.peerErr 8)
      else match p.kind, p.peer with
        | .preft, _ => s.finishPart p
        | .pin, _ => s.pinPart p
        | .unpin, _ => s.pinPart p
        | .put, some k => if p.done2.isEmpty then s.sendPut p k else s
        | k, n =>
          if k = .get ∧ n.isSome ∧ p.got.isEmpty then s
          else
            let items := p.items
            match s.performItems p items (List.range items.length) with
            | (s, p, some e) => s.copyError p e
            | (s, p, none) => s.finishPart p).next

/-- PEER_ACK (R187, R188): a refusal parks the engine; a PUT completes with its credits; what a GET brings is kept to be
landed. DESIGN CHOICE: a PUT that its peer refuses partway credits nothing, since credits of a PUT to a peer are applied on its
acknowledgement (R188, R192). -/
def execPeerAck (gid pid : Nat) (ok : Bool) (data : List (BitVec 8)) (s : State) : Host.Outcome State Fault Refusal :=
  (s.withGang gid fun s =>
    match s.g.parts.find? fun p => p.pid == pid && p.started && p.atPeer && !s.portLost p with
    | none => s
    | some p =>
      if p.kind = .put ∧ p.done2.isEmpty ∨ p.kind = .get ∧ !p.got.isEmpty then s
      else if !ok then s.copyError p (p.peerErr 7)
      else if p.kind = .put then s.finishPart { p with phase := 8 * p.f 0x10 4 }
      else if data.length = p.f 0x10 4 then s.putPart { p with got := [(0, data)] }
      else s).next

end Sys2Proof.Machine
end

