-- ==== Sys2Proof/Machine/Referee.lean ====
section
/-! DEFINITION. The Referees' queues (R272 to R281, R372): polling, packets and their completion. -/

namespace Sys2Proof.Machine

/-! Queues a Referee serves. -/

/-- A die's Referee works once the die has booted (R369). -/
def State.refereeOn (s : State) (die : Nat) : Bool := (s.die die).booted && !(s.die die).failed

/-- Change a die's Referee. -/
def State.updRef (s : State) (die : Nat) (f : Referee → Referee) : State := s.updDie die fun d => { d with ref := f d.ref }

/-- What a Referee keeps of a queue whose descriptor something answers for (R369). -/
def State.queueOf (s : State) (die qd : Nat) : Option QState :=
  if s.reaches qd then (s.die die).ref.queues.find? (·.qd == qd) else none

/-- Change what a Referee keeps of a queue. -/
def State.updQueue (s : State) (die qd : Nat) (f : QState → QState) : State :=
  s.updRef die fun r => { r with queues := r.queues.map fun q => if q.qd = qd then f q else q }

/-- Stop a queue (R275). -/
def State.stopQueue (s : State) (die qd idx why : Nat) : State :=
  let s := s.agentWrite (qd + 0x28) (leBytes 8 idx)
  let s := s.agentWrite (qd + 0x30) (leBytes 1 why)
  let s := s.agentWrite (qd + 0x24) (leBytes 1 2)
  s.updQueue die qd fun q => { q with inHand := none }

/-- A queue reads no packet while one is in hand or while a packet that holds it is open (R273, R277). -/
def QState.busy (q : QState) : Bool := q.inHand.isSome || q.open_.any (·.waiting)

/-- Read the packet that the read index names, if there is one (R273, R275, R280). -/
def State.readPacket (s : State) (die qd : Nat) (q : QState) : State :=
  let d := s.qdesc qd
  if q.busy ∨ d.state = 2 then s
  else if d.bad then s.stopQueue die qd d.ridx 3
  else if d.widx ≤ d.ridx then s
  else match s.agentRead die d.part (d.slotVa d.ridx) 64 with
    | .error none => s
    | .error (some _) => s.stopQueue die qd d.ridx 4
    | .ok bs =>
      let s := s.noteUse die d.part [(d.slotVa d.ridx, 0)]
      let type := byteField bs 0 1
      if type = 0 then s
      else if q.skip = 0 ∧ d.state = 0 ∧ 7 < type then s.stopQueue die qd d.ridx 1
      else s.updQueue die qd fun q => { q with inHand := some ⟨qd, d.ridx, bs, d.state == 1 && q.skip == 0, false, 0⟩ }

/-- One entry of a run list is polled (R272). A queue that software has moved is known by the entry it was last polled at. DESIGN
CHOICE: an entry that is no multiple of 64 names the descriptor at that address as it stands; the spec gives it no outcome. -/
def State.pollEntry (s : State) (die n qd : Nat) : State :=
  let d := s.qdesc qd
  if qd = 0 then s
  else if 3 < d.home then (if d.state = 2 then s else s.stopQueue die qd d.ridx 3)
  else if d.home ≠ die then s
  else match s.queueOf die qd with
    | some q => (s.updQueue die qd fun q => { q with rl := n }).readPacket die qd q
    | none =>
      let q : QState := ⟨qd, n, 0, none, []⟩
      (s.updRef die fun r => { r with queues := r.queues ++ [q] }).readPacket die qd q

/-- QUEUE_POLL (R272, R273); an entry or a descriptor that nothing answers for is waited for (R369). -/
def execQueuePoll (die n : Nat) (s : State) : Host.Outcome State Fault Refusal :=
  let at_ := (s.die die).rlbase.toNat + 8 * n
  let qd := leValue (s.agentBytes die at_ 8)
  if !s.refereeOn die ∨ 256 ≤ n then s.next
  else if !s.backed at_ then .fault (.runListUnbacked at_)
  else if qd ≠ 0 ∧ !s.backed qd then .fault (.runListUnbacked qd)
  else if !s.reaches at_ ∨ !s.reaches qd then s.next
  else (s.pollEntry die n qd).next

/-! Packets (R276, R277). -/

/-- A packet in hand of a queue, of a type, that is neither aborted nor skipped. -/
def State.packetOf (s : State) (die qd type : Nat) : Option (QState × Pkt) :=
  if !s.refereeOn die then none
  else match s.queueOf die qd with
    | none => none
    | some q =>
      match q.inHand with
      | none => none
      | some p => if q.skip = 0 ∧ !p.aborted ∧ byteField p.bytes 0 1 = type then some (q, p) else none

/-- A field of a packet. -/
def Pkt.f (p : Pkt) (off n : Nat) : Nat := byteField p.bytes off n

/-- BARRIER. -/
def Pkt.barrier (p : Pkt) : Bool := bit (p.f 1 1) 0
/-- ABORTNEG. -/
def Pkt.abortNeg (p : Pkt) : Bool := bit (p.f 1 1) 1
/-- CSIG of a packet other than LAUNCH. -/
def Pkt.csig (p : Pkt) : Nat := p.f 0x38 8

/-- The addresses that a packet's own processing uses and that are checked when it is read, 0 for none left out (R275, R276). -/
def Pkt.uses (p : Pkt) : List (Nat × Acc) :=
  let sig : Nat × Acc := (p.csig, 2)
  (match p.f 0 1 with
    | 1 => [(p.f 0x10 8, 1)]
    | 2 => [(p.f 8 8, 0), (p.f 0x10 8, 0), (p.f 0x18 8, 0), sig]
    | 3 => [(p.f 8 8, 0), sig]
    | 4 => [(p.f 8 8, 2), sig]
    | 5 => pagesOf (p.f 0x10 8) (p.f 0x18 8) 0 ++ pagesOf (p.f 8 8) (p.f 0x18 8) 1 ++ [sig]
    | _ => [sig]).filter (·.1 != 0)

/-- The header keeps R276, and the bytes from one offset to another are zero. -/
def Pkt.headOk (p : Pkt) (lo hi : Nat) : Bool :=
  p.f 2 6 == 0 && decide (p.f 1 1 < (if p.f 0 1 = 2 then 4 else 2)) && zeroField p.bytes lo (hi - lo)

/-- What a check of a packet finds: it is good, it stops its queue, or it waits for a LOCK. -/
inductive PktCheck where
  | ok | stop (why : Nat) | wait
  deriving DecidableEq, Repr

/-- The checks of a list, the first that fails. DESIGN CHOICE: of a packet's the fields come before the addresses, so one with
both conditions stops its queue with reason 1; R275 gives no order. -/
def firstBad : List PktCheck → PktCheck
  | [] => .ok
  | .ok :: r => firstBad r
  | c :: _ => c

/-- A field is out of range: STOPWHY 1. -/
def rangeCheck (ok : Bool) : PktCheck := if ok then .ok else .stop 1

/-- An address of a packet, 0 for none: its alignment and translation, STOPWHY 2. -/
def State.addrCheck (s : State) (die part va align : Nat) (acc : Acc) : PktCheck :=
  if va = 0 then .ok
  else if va % align ≠ 0 then .stop 2
  else match s.agentAddr die part va acc with
    | .ok _ => .ok
    | .error none => .wait
    | .error (some _) => .stop 2

/-- Whether the ring slot of a packet can be given back: its type byte is to be written. A frame under a LOCK is waited for
(R139), and a fault is one on the ring (R275). DESIGN CHOICE: it is found before the packet acts, so that the index still names
a packet that has not. -/
def State.slotCheck (s : State) (die : Nat) (p : Pkt) : PktCheck :=
  let d := s.qdesc p.qd
  match s.agentAddr die d.part (d.slotVa p.idx) 1 with
  | .ok _ => .ok
  | .error none => .wait
  | .error (some _) => .stop 4

/-- Act on a packet when a check lets it: stop its queue, wait, or go on. -/
def State.onResult (s : State) (die : Nat) (p : Pkt) (c : PktCheck) (f : State → State) : State :=
  match c with
  | .ok => f s
  | .wait => s
  | .stop why => s.stopQueue die p.qd p.idx why

/-- The slot of a packet is given back: its type byte is cleared and the read index advances (R273). -/
def State.releaseSlot (s : State) (die qd idx : Nat) : State :=
  let d := s.qdesc qd
  let s := match s.agentStore die d.part (d.slotVa idx) (leBytes 1 0) with
    | .ok s => s
    | .error _ => s
  s.agentWrite (qd + 0x18) (leBytes 8 (idx + 1))

/-- A packet has been read in full: its slot is given back and it stays open until it completes. `holds` says that the
queue reads no further packet before that (R277). -/
def State.takePacket (s : State) (die : Nat) (p : Pkt) (holds : Bool) : State :=
  (s.releaseSlot die p.qd p.idx).updQueue die p.qd fun q =>
    { q with inHand := none, open_ := q.open_ ++ [{ p with waiting := holds }] }

/-- Act on a packet's checks, and then on that of its slot; the translations of its addresses are kept (R372). -/
def State.onCheck (s : State) (die : Nat) (p : Pkt) (c : PktCheck) (f : State → State) : State :=
  s.onResult die p (firstBad [c, s.slotCheck die p]) fun s => f (s.noteUse die (s.qdesc p.qd).part p.uses)

/-- An atomic of an agent on a signal that is translated (R281, R285). An address that faults by then is left. -/
def State.signalAt (s : State) (die part va : Nat) (f : Nat → Nat) : State :=
  if va = 0 then s
  else match s.agentUse die part va 2 with
    | .ok (s, pa) => s.agentWrite pa (leBytes 8 (f (leValue (s.agentBytes die pa 8)) % 2 ^ 64))
    | .error _ => s

/-- A signal cannot be written now: its frame is under a LOCK, for which the access waits (R139). -/
def State.signalLocked (s : State) (die part va : Nat) : Bool :=
  va != 0 && match s.agentAddr die part va 2 with
    | .error none => true
    | _ => false

/-- The value of -1. -/
def minusOne : Nat := 2 ^ 64 - 1

/-- WAITSIG_PACKET (R278): read in full; it holds the queue until it completes. -/
def execWaitsigPacket (die qd : Nat) (s : State) : Host.Outcome State Fault Refusal :=
  (match s.packetOf die qd 2 with
    | none => s
    | some (_, p) =>
      let part := (s.qdesc qd).part
      let c := firstBad [rangeCheck (p.headOk 0x20 0x38), s.addrCheck die part (p.f 8 8) 8 0,
        s.addrCheck die part (p.f 0x10 8) 8 0, s.addrCheck die part (p.f 0x18 8) 8 0, s.addrCheck die part p.csig 8 2]
      s.onCheck die p c fun s => s.takePacket die p true).next

/-- A packet leaves its queue. -/
def State.closePacket (s : State) (die : Nat) (p : Pkt) : State :=
  s.updQueue die p.qd fun q => { q with open_ := q.open_.filter fun x => x.idx != p.idx }

/-- -1 in a completion signal, 0 or a misaligned address for none; nothing yet while its frame is under a LOCK (R139, R279,
R283). -/
def State.negSignal (s : State) (die part va : Nat) : Option State :=
  if va % 8 ≠ 0 then some s
  else if s.signalLocked die part va then none
  else some (s.signalAt die part va fun _ => minusOne)

/-- A completion record, 0 for none: whether it could be written, or nothing yet while its frame is under a LOCK (R139,
R284). -/
def State.storeRecord (s : State) (die part crec : Nat) (bs : List Byte) : Option (State × Bool) :=
  if crec = 0 then some (s, true)
  else match s.agentStore die part crec bs with
    | .ok t => some (t, true)
    | .error none => none
    | .error (some _) => some (s, false)

/-- A packet completes, and CSIG is decremented (R277). -/
def State.endPacket (s : State) (die : Nat) (p : Pkt) : State :=
  if s.signalLocked die (s.qdesc p.qd).part p.csig then s
  else (s.signalAt die (s.qdesc p.qd).part p.csig (· + minusOne)).closePacket die p

/-- The values of the signals a WAITSIG names, or none when one cannot be read now. DESIGN CHOICE: one that no longer translates
keeps the packet waiting; R278 checks the addresses when the packet is read, and is silent on later. -/
def State.waitValues (s : State) (die : Nat) (p : Pkt) : Option (List Nat) :=
  ([8, 0x10, 0x18].filter fun o => p.f o 8 != 0).mapM fun o =>
    match s.agentRead die (s.qdesc p.qd).part (p.f o 8) 8 with
    | .ok bs => some (leValue bs)
    | .error _ => none

/-- WAITSIG_COMPLETE (R278, R279): with a negative signal and ABORTNEG the queue is aborted; with all signals 0 the packet
completes. -/
def execWaitsigComplete (die qd : Nat) (s : State) : Host.Outcome State Fault Refusal :=
  (match (s.queueOf die qd).bind fun q => q.open_.find? fun (p : Pkt) => p.f 0 1 == 2 with
    | none => s
    | some p =>
      match s.waitValues die p with
      | none => s
      | some vs =>
        let s := s.noteUse die (s.qdesc qd).part (p.uses.filter (·.2 == 0))
        if p.abortNeg ∧ vs.any (fun v => decide (2 ^ 63 ≤ v)) then
          match s.negSignal die (s.qdesc qd).part p.csig with
          | none => s
          | some s => (s.agentWrite (qd + 0x24) (leBytes 1 1)).closePacket die p
        else if vs.all (· == 0) then s.endPacket die p
        else s).next

/-- COND_PACKET (R280). -/
def execCondPacket (die qd : Nat) (s : State) : Host.Outcome State Fault Refusal :=
  (match s.packetOf die qd 3 with
    | none => s
    | some (_, p) =>
      let part := (s.qdesc qd).part
      let c := firstBad [rangeCheck (p.headOk 0x1A 0x38 && decide (p.f 0x18 1 ≤ 5) && p.f 0x19 1 != 0 && p.f 8 8 != 0),
        s.addrCheck die part (p.f 8 8) 8 0, s.addrCheck die part p.csig 8 2]
      s.onCheck die p c fun s =>
        match s.agentRead die part (p.f 8 8) 8 with
        | .error _ => s
        | .ok bs =>
          let yes := sigCond (p.f 0x18 1) (BitVec.ofNat 64 (leValue bs)) (BitVec.ofNat 64 (p.f 0x10 8))
          let s := s.takePacket die p p.barrier
          if yes then s.updQueue die qd fun q => { q with skip := p.f 0x19 1 } else s).next

/-- SIGNAL_PACKET (R277, R281): it is read, and its atomic is performed when it completes. -/
def execSignalPacket (die qd : Nat) (s : State) : Host.Outcome State Fault Refusal :=
  (match s.packetOf die qd 4 with
    | none => s
    | some (_, p) =>
      let part := (s.qdesc qd).part
      let c := firstBad [rangeCheck (p.headOk 0x19 0x38 && decide (p.f 0x18 1 ≤ 1) && p.f 8 8 != 0),
        s.addrCheck die part (p.f 8 8) 8 2, s.addrCheck die part p.csig 8 2]
      s.onCheck die p c fun s => s.takePacket die p p.barrier).next

/-- A SIGNAL packet completes: its atomic is performed at its home (R277, R281). -/
def State.completeSignal (s : State) (die : Nat) (p : Pkt) : State :=
  let part := (s.qdesc p.qd).part
  let v := p.f 0x10 8
  if s.signalLocked die part (p.f 8 8) ∨ s.signalLocked die part p.csig then s
  else (s.signalAt die part (p.f 8 8) fun old => if p.f 0x18 1 = 0 then v else old + v).endPacket die p

/-! COPY packets (R281). -/

/-- The translation of every page that n bytes touch. -/
def State.spanCheck (s : State) (die part va n : Nat) (acc : Acc) : PktCheck :=
  firstBad ((pagesOf va n acc).map fun x =>
    match s.agentAddr die part x.1 acc with
    | .ok _ => .ok
    | .error none => .wait
    | .error (some _) => .stop 2)

/-- A page that n bytes touch is under a LOCK (R139). -/
def State.spanLocked (s : State) (die part va n : Nat) (acc : Acc) : Bool :=
  (pagesOf va n acc).any fun x =>
    match s.agentAddr die part x.1 acc with
    | .error none => true
    | _ => false

/-- Move bytes by pieces that stay in one page on both sides; the lines take write times beyond every lease. A piece that does
not translate on either side is left. -/
def State.copySpan (s : State) (die part : Nat) : Nat → Nat → Nat → Nat → State
  | 0, _, _, _ => s
  | k + 1, dst, src, n =>
    if n = 0 then s
    else
      let m := min n (min (2 ^ 17 - dst % 2 ^ 17) (2 ^ 17 - src % 2 ^ 17))
      match s.agentUse die part dst 1, s.agentUse die part src 0 with
      | .ok (u, d), .ok (_, a) =>
        let s := u.noteUse die part [(src, 0)]
        let s := (s.publishLines ((s.lines.map (·.rts)).foldl max 0) (linesFor d m)).1
        let t := { s.settle d m with mem := s.mem.setRegion d m (s.agentRegion die a m) }.notifyRange d m
        t.copySpan die part k (dst + m) (src + m) (n - m)
      | _, _ => s.copySpan die part k (dst + m) (src + m) (n - m)

/-- A changed packet of a queue that is open. -/
def State.putOpen (s : State) (die : Nat) (p : Pkt) : State :=
  s.updQueue die p.qd fun q => { q with open_ := q.open_.map fun x => if x.idx = p.idx then p else x }

/-- A COPY packet moves its next bytes, and completes with the last (R164, R277, R281); how many move at a time is free, in
rising order. DESIGN CHOICE: its addresses were checked when it was read (R275), and its slot is given back; bytes of a page
that no longer translates are left. -/
def State.copyMore (s : State) (die : Nat) (p : Pkt) : State :=
  let part := (s.qdesc p.qd).part
  let left := p.f 0x18 8 - p.moved
  let (k, t) := s.takeFree
  let m := if Config.copyPart k = 0 then left else min left (8 * Config.copyPart k)
  let a := p.f 8 8 + p.moved
  let b := p.f 0x10 8 + p.moved
  if s.spanLocked die part b m 0 ∨ s.spanLocked die part a m 1 then s
  else
    let p := { p with moved := p.moved + m }
    let t := (t.copySpan die part (2 * (m / 2 ^ 17 + 2)) a b m).putOpen die p
    if p.f 0x18 8 ≤ p.moved then t.endPacket die p else t

/-- COPY_PACKET (R281): a fault stops the queue with STOPWHY 2 before the packet is read. -/
def execCopyPacket (die qd : Nat) (s : State) : Host.Outcome State Fault Refusal :=
  (match s.packetOf die qd 5 with
    | none => s
    | some (_, p) =>
      let part := (s.qdesc qd).part
      let n := p.f 0x18 8
      let a := p.f 8 8
      let b := p.f 0x10 8
      let c := firstBad [rangeCheck (p.headOk 0x20 0x38 && decide (8 ≤ n) && decide (n ≤ 2 ^ 32) && n % 8 == 0),
        if a % 8 = 0 ∧ b % 8 = 0 then .ok else .stop 2, s.spanCheck die part b n 0, s.spanCheck die part a n 1,
        s.addrCheck die part p.csig 8 2]
      s.onCheck die p c fun s => s.takePacket die p p.barrier).next

/-- NOP_PACKET (R277, R280): a NOP packet is read, or a packet that a COND skips is released with no effect. -/
def execNopPacket (die qd : Nat) (s : State) : Host.Outcome State Fault Refusal :=
  (match (s.queueOf die qd).bind fun q => q.inHand.map fun p => (q, p) with
    | none => s
    | some (q, p) =>
      if !s.refereeOn die ∨ p.aborted then s
      else if q.skip ≠ 0 then
        s.onResult die p (s.slotCheck die p) fun s =>
          (s.releaseSlot die qd p.idx).updQueue die qd fun q => { q with inHand := none, skip := q.skip - 1 }
      else if p.f 0 1 ≠ 6 then s
      else
        let c := firstBad [rangeCheck (p.headOk 8 0x38), s.addrCheck die (s.qdesc qd).part p.csig 8 2]
        s.onCheck die p c fun s => s.takePacket die p p.barrier).next

/-! Aborted packets (R279, R348). -/

/-- The instances that a launch record's grid and stages give. -/
def recCount (b : List Byte) : Nat := byteField b 0x10 4 * byteField b 0x14 4 * byteField b 0x18 2 * byteField b 0x1A 1

/-- A LAUNCH packet of an aborted queue: its record is written, and -1 to the signal its launch record names; no signal when
either record cannot be read or written (R279, R348). -/
def State.abortedLaunch (s : State) (die part : Nat) (p : Pkt) : Option State :=
  match s.agentRead die part (p.f 8 8) 256 with
  | .error none => none
  | .error (some _) => (s.storeRecord die part (p.f 0x10 8) (recordBytes 3 0 (s.now die) 0 0 0 0)).map (·.1)
  | .ok b =>
    let s := s.noteUse die part [(p.f 8 8, 0)]
    (s.storeRecord die part (p.f 0x10 8) (recordBytes 3 0 (s.now die) 0 (recCount b) 0 0)).bind fun x =>
      if x.2 then x.1.negSignal die part (byteField b 0x80 8) else some x.1

/-- ABORTED_PACKET (R279): it completes as ABORTED at once. -/
def execAbortedPacket (die qd : Nat) (s : State) : Host.Outcome State Fault Refusal :=
  (match (s.queueOf die qd).bind (·.inHand) with
    | none => s
    | some p =>
      if !s.refereeOn die ∨ !p.aborted then s
      else s.onResult die p (s.slotCheck die p) fun s =>
        let part := (s.qdesc qd).part
        let t := p.f 0 1
        let r := if t = 1 then s.abortedLaunch die part p
          else if t ≤ 7 then s.negSignal die part p.csig else some s
        match r with
        | none => s
        | some s => (s.releaseSlot die qd p.idx).updQueue die qd fun q => { q with inHand := none }).next

end Sys2Proof.Machine
end

