-- ==== Sys2Proof/Machine/Admit.lean ====
section
/-! DEFINITION. Launch records and admission (R282, R283), adaptations (R286 to R288), PREFETCH packets (R281), and the
completion of packets and launches (R277, R285). -/

namespace Sys2Proof.Machine

/-! Adaptations (R286, R287). -/

/-- The virtual address of the entry of a handle. -/
def Die.adaptVa (d : Die) (h : Nat) : Nat := d.atbase.toNat + 32 * (h - 1)

/-- The entry of a handle, or the error of reading it. -/
def State.adaptEntry (s : State) (die part h : Nat) : Except AgentErr (List Byte) :=
  s.agentRead die part ((s.die die).adaptVa h) 32

/-- Whether a handle names an entry that keeps R286. -/
def State.handleCheck (s : State) (die part h : Nat) : PktCheck :=
  let d := s.die die
  if h = 0 then .ok
  else if d.atlen.toNat < h then .stop 4
  else match s.adaptEntry die part h with
    | .error none => .wait
    | .error (some _) => .stop 4
    | .ok b =>
      if byteField b 8 4 % 256 = 0 ∧ byteField b 8 4 ≤ d.adsize.toNat ∧ zeroField b 0x19 7 then .ok else .stop 4

/-- The entries that a check of handles reads, up to the first that fails. -/
def State.handleUses (s : State) (die part : Nat) (hs : List Nat) : List (Nat × Acc) :=
  let good := hs.takeWhile fun h => s.handleCheck die part h == .ok
  ((good ++ (hs.drop good.length).take 1).filter fun h => h != 0 && decide (h ≤ (s.die die).atlen.toNat)).map fun h =>
    ((s.die die).adaptVa h, 0)

/-- RES of a handle: 0 while no copy of it is resident. -/
def State.resident (s : State) (die part h : Nat) : Bool :=
  match s.adaptEntry die part h with
  | .ok b => byteField b 0x10 8 != 0
  | .error _ => false

/-- The handles of a list, each once, without 0. -/
def handleSet (hs : List Nat) : List Nat := (hs.filter (· != 0)).eraseDups

/-- A residency slot. -/
def Referee.slot (r : Referee) (n : Nat) : ResSlot := r.res.getD n ⟨0, 0, 0, none⟩

/-- Change a residency slot of a die. -/
def State.updRes (s : State) (die n : Nat) (f : ResSlot → ResSlot) : State :=
  s.updRef die fun r => { r with res := updAt n f r.res }

/-- The slot that holds a handle on a die. -/
def State.slotHolding (s : State) (die h : Nat) : Option Nat :=
  (List.range 64).find? fun n => ((s.die die).ref.slot n).handle == h

/-- A die's slot that holds a handle whose copy is still being made. -/
def State.beingLoaded (s : State) (die part h : Nat) : Bool :=
  !s.resident die part h && (List.range 4).any fun d => (s.slotHolding d h).isSome

/-- Insert an element of a sorted list before the first that it may come before. -/
def insertBy {α : Type} (le : α → α → Bool) (a : α) : List α → List α
  | [] => [a]
  | b :: bs => if le a b then a :: b :: bs else b :: insertBy le a bs

/-- A list sorted; equal elements keep their order. -/
def sortBy {α : Type} (le : α → α → Bool) (l : List α) : List α := l.foldr (insertBy le) []

/-- The free slots of a die, least recently claimed first, to a number (R287). DESIGN CHOICE: of slots that were claimed equally
long ago, or never, the lowest number comes first. -/
def State.freeSlots (s : State) (die n : Nat) : List Nat :=
  let r := (s.die die).ref
  let free := (List.range 64).filter fun k => (r.slot k).count == 0
  let key (k : Nat) : Nat := (r.slot k).claimed
  (sortBy (fun a b => decide (key a < key b) || (key a == key b && decide (a ≤ b))) free).take n

/-- The entry of one of the handles, or of one that a slot of the die holds, is in a frame under a LOCK: what would write it
waits (R139). -/
def State.adaptLocked (s : State) (die part : Nat) (hs : List Nat) : Bool :=
  (hs ++ (s.die die).ref.res.map (·.handle)).any fun h =>
    h != 0 && match s.agentAddr die part ((s.die die).adaptVa h) 1 with
      | .error none => true
      | _ => false

/-- Write a field of the entry of a handle. -/
def State.setAdapt (s : State) (die part h off n v : Nat) : State :=
  match s.agentStore die part ((s.die die).adaptVa h + off) (leBytes n v) with
  | .ok s => s
  | .error _ => s

/-- COUNT of a handle changes (R287, R288). -/
def State.bumpCount (s : State) (die part h : Nat) (f : Nat → Nat) : State :=
  match s.adaptEntry die part h with
  | .ok b => s.setAdapt die part h 0x0C 4 (f (byteField b 0x0C 4) % 2 ^ 32)
  | .error _ => s

/-- Claim a handle that is resident: its slot is shared. -/
def State.claimShared (s : State) (die part order : Nat) (h : Nat) : State :=
  match s.adaptEntry die part h with
  | .error _ => s
  | .ok b =>
    let rdie := byteField b 0x18 1
    let s := s.bumpCount die part h (· + 1)
    match s.slotHolding rdie h with
    | none => s
    | some n => s.updRes rdie n fun r => { r with count := r.count + 1, claimed := order }

/-- Take a free slot for a handle: RES of the handle it last held is cleared. DESIGN CHOICE: taking it counts as its last claim, for
a PREFETCH too, which claims nothing (R281, R287). -/
def State.takeSlot (s : State) (die part order count : Nat) (x : Nat × Nat) : State :=
  let old := ((s.die die).ref.slot x.2).handle
  let s := if old = 0 then s else s.setAdapt die part old 0x10 8 0
  s.updRes die x.2 fun _ => ⟨x.1, count, order, none⟩

/-- The handles of a list that need a free slot. -/
def State.missing (s : State) (die part : Nat) (hs : List Nat) : List Nat :=
  (handleSet hs).filter fun h => !s.resident die part h

/-- Claim the handles of a list all together, or none: no handle is being loaded, and there are slots enough beside those
that are shared (R287). -/
def State.claimAll (s : State) (die part order count : Nat) (hs : List Nat) : Option State :=
  let miss := s.missing die part hs
  let t := if count = 0 then s
    else ((handleSet hs).filter fun h => s.resident die part h).foldl (fun s h => s.claimShared die part order h) s
  let slots := t.freeSlots die miss.length
  if s.adaptLocked die part hs ∨ miss.any (s.beingLoaded die part) ∨ slots.length < miss.length then none
  else some ((miss.zip slots).foldl (fun s x => s.takeSlot die part order count x)
    (t.noteUse die part (s.handleUses die part (handleSet hs))))

/-- Pin or release every line of a slot's copy (R287, R288). -/
def State.pinCopy (s : State) (die part va len : Nat) (up : Bool) : State :=
  let s := s.noteUse die part (pagesOf va len 0)
  ((List.range (len / 256)).map fun k => va + 256 * k).foldl (fun s a =>
    match s.agentAddr die part a 0 with
    | .ok pa => s.pinLine up (lineOf pa)
    | .error _ => s) s

/-- The copy of a handle is made into the slot that was taken for it, for a launch, which holds its lines pinned, or for a
prefetch, and RES, RDIE and COUNT are written (R287). DESIGN CHOICE: where SRC or the slot does not translate at that time,
those bytes of the copy are not made, and RES, RDIE and COUNT are written all the same; the spec gives such a copy no outcome. -/
def State.loadHandle (s : State) (die part : Nat) (owner : Option Nat) (h : Nat) : State :=
  if s.resident die part h then s
  else match s.slotHolding die h, s.adaptEntry die part h with
    | some n, .ok b =>
      let len := byteField b 8 4
      let va := ((s.die die).adbase.toNat + n * (s.die die).adsize.toNat) % 2 ^ 64
      let s := s.copySpan die part (2 * (len / 2 ^ 17 + 2)) va (byteField b 0 8) len
      let s := if owner.isNone then s
        else (s.pinCopy die part va len true).updRes die n fun r => { r with pinned := owner }
      ((s.setAdapt die part h 0x10 8 va).setAdapt die part h 0x18 1 die).setAdapt die part h 0x0C 4 (if owner.isSome then 1 else 0)
    | _, _ => s

/-- The copy of a handle may be made now: no frame of it is under a LOCK (R139). -/
def State.loadLocked (s : State) (die part : Nat) (h : Nat) : Bool :=
  match s.slotHolding die h, s.adaptEntry die part h with
  | some n, .ok b =>
    let va := ((s.die die).adbase.toNat + n * (s.die die).adsize.toNat) % 2 ^ 64
    !s.resident die part h && firstBad [s.spanCheck die part (byteField b 0 8) (byteField b 8 4) 0,
      s.spanCheck die part va (byteField b 8 4) 1] == .wait
  | _, _ => false

/-- The claim of a launch on a handle ends, and with it the pins that are held for that launch, whoever else shares the slot
(R287, R288). -/
def State.releaseHandle (s : State) (die part lid : Nat) (h : Nat) : State :=
  match s.adaptEntry die part h with
  | .error _ => s
  | .ok b =>
    let rdie := byteField b 0x18 1
    let s := s.bumpCount die part h (· - 1)
    match s.slotHolding rdie h with
    | none => s
    | some n =>
      let slot := (s.die rdie).ref.slot n
      let s := s.updRes rdie n fun r => { r with count := r.count - 1, pinned := r.pinned.filter (· != lid) }
      if slot.pinned = some lid then s.pinCopy die part (byteField b 0x10 8) (byteField b 8 4) false else s

/-! Launch records (R282, R283). -/

/-- The handles of a record. -/
def recHandles (b : List Byte) : List Nat := (List.range 4).map fun k => byteField b (0x98 + 8 * k) 8

/-- The checks of step 1, for a queue's class. -/
def recOk (b : List Byte) (qcls : Nat) : Bool :=
  let f := byteField b
  decide (f 0 8 < 2 ^ 22) && f 8 8 % 64 == 0 && f 0x10 4 != 0 && f 0x14 4 != 0 && f 0x18 2 != 0
    && decide (1 ≤ f 0x1A 1) && decide (f 0x1A 1 ≤ 8) && (f 0x1B 1 == 8 || f 0x1B 1 == 16)
    && decide (f 0x74 1 ≤ 3) && decide (qcls ≤ f 0x74 1) && decide (f 0x75 1 ≤ 1)
    && (f 0x75 1 == 0 || decide (f 0x68 8 < 2 ^ 22))
    && zeroField b 0x76 2 && zeroField b 0xD0 48 && f 0x80 8 % 8 == 0 && f 0x88 8 % 8 == 0 && f 0xC0 8 % 8 == 0

/-- The format slots of a record. -/
def recFmts (b : List Byte) : List Word := (List.range 8).map fun k => BitVec.ofNat 64 (byteField b (0x20 + 8 * k) 8)

/-- The scratchpad limit of a class (R132). -/
def spLimit (cls : Nat) : Nat := if cls = 0 then 262144 else 786432

/-- The REASON a record is rejected for in steps 1 to 4, or that it is good. -/
def State.recCheck (s : State) (die part qcls : Nat) (b : List Byte) : PktCheck :=
  firstBad ([if recOk b qcls then .ok else .stop 1, if (recFmts b).all fmtOk then .ok else .stop 2,
    if byteField b 0x1C 4 ≤ spLimit (byteField b 0x74 1) then .ok else .stop 3]
    ++ (recHandles b).map (s.handleCheck die part))

/-- What a record fixes for every instance. -/
def recInfo (b : List Byte) (lid die part lrec : Nat) : LInfo :=
  let f := byteField b
  let w (o : Nat) : Word := BitVec.ofNat 64 (f o 8)
  { lid := lid, home := die, part := part, cls := f 0x74 1, width := f 0x1B 1, nx := f 0x10 4, ny := f 0x14 4,
    nz := f 0x18 2, stages := f 0x1A 1, prog := f 0 8, segTab := f 8 8, spBytes := f 0x1C 4, fmts := recFmts b,
    dline := bit (f 0x75 1) 0, deadline := f 0x60 8, budget := f 0x70 4, egEntry := f 0x68 8,
    lrec := BitVec.ofNat 64 lrec, args := w 0xB8, tabList := w 0xC0, bmAddr := w 0x88, bmLen := f 0x90 4 }

/-- A launch read from a good record, which waits for its window and its claims. -/
def recLaunch (b : List Byte) (i : LInfo) (p : Pkt) (rl : Nat) : Launch :=
  let f := byteField b
  { info := i, stage := .waiting, qd := p.qd, pkt := p.idx, crec := p.f 0x10 8, csig := f 0x80 8, est := f 0x78 8,
    unitNs := max 1 (f 0x94 4), progress := 0, t0 := none, admitted := 0, order := 0, rlIndex := rl,
    handles := handleSet (recHandles b), taken := 0, trig := [], trigAll := false, window := 0, step := 0, stime := 0,
    arrived := [], cx := f 0xC8 4, cy := f 0xCC 4, drawn := 0, returned := [], reserve := [],
    tally := ⟨0, 0, none, false, false, false, false⟩ }

/-- A launch of n instances is rejected: its record, and -1 in its completion signal (R283). It waits while a frame of either
is under a LOCK. -/
def State.reject (s : State) (die part : Nat) (p : Pkt) (n csig reason : Nat) : Option State :=
  (s.storeRecord die part (p.f 0x10 8) (recordBytes 5 reason (s.now die) 0 n 0 0)).bind fun x =>
    x.1.negSignal die part csig

/-- A LAUNCH packet that is over at once gives its slot back. -/
def State.dropPacket (s : State) (die : Nat) (p : Pkt) : State :=
  (s.releaseSlot die p.qd p.idx).updQueue die p.qd fun q => { q with inHand := none }

/-- A rejected launch is over with its packet, or waits to be. -/
def State.rejectPacket (s : State) (die part : Nat) (p : Pkt) (n csig reason : Nat) : State :=
  ((s.reject die part p n csig reason).map (·.dropPacket die p)).getD s

/-- LAUNCH_PACKET (R276, R283 steps 1 to 4): it is rejected, or it waits for step 5, its queue with it. -/
def execLaunchPacket (die : Nat) (qd : Nat) (s : State) : Host.Outcome State Fault Refusal :=
  (match s.packetOf die qd 1 with
    | none => s
    | some (q, p) =>
      if s.launches.any fun (l : Launch) => l.qd == qd && l.pkt == p.idx && l.stage == LStage.waiting then s
      else
        let d := s.qdesc qd
        let c := firstBad [rangeCheck (p.headOk 0x18 0x40), if p.f 8 8 % 256 = 0 ∧ plainAddr (p.f 8 8) then .ok else .stop 2,
          s.addrCheck die d.part (p.f 0x10 8) 64 1]
        s.onCheck die p c fun s =>
          match s.agentRead die d.part (p.f 8 8) 256 with
          | .error none => s
          | .error (some _) => s.rejectPacket die d.part p 0 0 1
          | .ok b =>
            let c := s.recCheck die d.part d.cls b
            let s := s.noteUse die d.part ((p.f 8 8, 0) ::
              if c = PktCheck.ok ∨ c = PktCheck.stop 4 then s.handleUses die d.part (recHandles b) else [])
            match c with
            | .wait => s
            | .stop why => s.rejectPacket die d.part p (recCount b) (byteField b 0x80 8) why
            | .ok =>
              let (k, s) := s.takeTicket
              let l := recLaunch b (recInfo b k die d.part (p.f 8 8)) p q.rl
              { s with launches := s.launches ++ [l] }).next

/-- The packet of a launch that waits. -/
def State.waitingPacket (s : State) (l : Launch) : Option Pkt :=
  (s.queueOf l.info.home l.qd).bind fun q => q.inHand.filter fun p => p.idx == l.pkt

/-- The words of a validity bitmap are translated, page by page (R283, R314). -/
def LInfo.bitmapBytes (i : LInfo) : Nat := if i.bmAddr = 0 then 0 else (i.bmLen + 63) / 64 * 8

/-- Zero n bytes by pieces that stay in one page. -/
def State.zeroSpan (s : State) (die part : Nat) : Nat → Nat → Nat → State
  | 0, _, _ => s
  | k + 1, va, n =>
    if n = 0 then s
    else
      let m := min n (2 ^ 17 - va % 2 ^ 17)
      match s.agentUse die part va 1 with
      | .error _ => s
      | .ok (s, pa) =>
        let s := (s.publishLines ((s.lines.map (·.rts)).foldl max 0) (linesFor pa m)).1
        ({ s.settle pa m with mem := s.mem.clear pa m }.notifyRange pa m).zeroSpan die part k (va + m) (n - m)

/-- The entry of a die's run list that holds a queue (R272). -/
def State.runEntry (s : State) (die qd : Nat) : Option Nat :=
  (List.range 256).find? fun n => leValue (s.agentBytes die ((s.die die).rlbase.toNat + 8 * n) 8) == qd

/-- Step 5 and step 6 of admission for one launch: a window, the claims, the bitmap; then it is admitted, and its packet
gives its slot back (R283, R244). DESIGN CHOICE: a fault on any page of the bitmap rejects the launch with no page of it
zeroed, and with the claims undone wholly, RES of a handle whose slot they would have taken included. -/
def State.admitOne (s : State) (die : Nat) (l : Launch) : Option State :=
  match s.waitingPacket l, (s.die die).windows.findIdx? (·.isNone) with
  | some p, some w =>
    let i := l.info
    let n := i.bitmapBytes
    let (k, t) := s.takeTicket
    let gone := { s with launches := s.launches.filter fun x => x.info.lid != i.lid }
    match s.slotCheck die p with
    | .wait => none
    | .stop why => some (gone.stopQueue die p.qd p.idx why)
    | .ok =>
    match t.claimAll die i.part k 1 l.handles with
    | none => none
    | some t =>
      match s.spanCheck die i.part i.bmAddr.toNat n 1 with
      | .wait => none
      | .stop _ =>
        (gone.reject die i.part p i.count l.csig 1).map (·.dropPacket die p)
      | .ok =>
        let t := t.zeroSpan die i.part (n / 2 ^ 17 + 2) i.bmAddr.toNat n
        let t := t.updDie die fun d => { d with
          windows := updAt w (fun _ => some i.lid) d.windows
          barriers := d.barriers.zipIdx.map fun x => if x.2 / 32 = w then Barrier.clear else x.1 }
        let stage : LStage := if (s.missing die i.part l.handles).isEmpty then .ready else .loading
        let t := t.updLaunch i.lid fun l =>
          { l with
            window := w, stage := stage, admitted := t.now die, order := k
            rlIndex := (s.runEntry die l.qd).getD l.rlIndex }
        some (t.takePacket die p p.barrier)
  | _, _ => none

/-- LAUNCH_ADMIT (R283): the first waiting launch of the die that can take what it needs. DESIGN CHOICE: of several that can, the one
whose packet was read first; R283 gives no order. -/
def execLaunchAdmit (die : Nat) (s : State) : Host.Outcome State Fault Refusal :=
  (if !s.refereeOn die then s
    else match (s.launches.filter fun l => l.stage == .waiting && l.info.home == die).findSome? (s.admitOne die) with
      | none => s
      | some t => t).next

/-- ADAPTATION_LOAD_COMPLETE (R287): every tensor the launch claimed is resident, and its instances may start. -/
def execAdaptationLoadComplete (lid : Nat) (s : State) : Host.Outcome State Fault Refusal :=
  (match s.launch lid with
    | none => s
    | some l =>
      if l.stage ≠ LStage.loading ∨ s.adaptLocked l.info.home l.info.part l.handles ∨
        l.handles.any (s.loadLocked l.info.home l.info.part) then s
      else
        let s := l.handles.foldl (fun (s : State) h => s.loadHandle l.info.home l.info.part (some lid) h) s
        s.updLaunch lid fun l => { l with stage := .ready }).next

/-! PREFETCH (R281). -/

/-- The handles of a PREFETCH packet. -/
def Pkt.handles (p : Pkt) : List Nat := handleSet ((List.range 4).map fun k => p.f (8 + 8 * k) 8)

/-- PREFETCH_PACKET (R276, R281): it asks for its adaptations; one that names an entry breaking R286 stops its queue. -/
def execPrefetchPacket (die qd : Nat) (s : State) : Host.Outcome State Fault Refusal :=
  (match s.packetOf die qd 7 with
    | none => s
    | some (_, p) =>
      let part := (s.qdesc qd).part
      let hs := p.handles.map fun h =>
        match s.handleCheck die part h with
        | .stop _ => PktCheck.stop 1
        | c => c
      let c := firstBad ([rangeCheck (p.headOk 0x28 0x38), s.addrCheck die part p.csig 8 2] ++ hs)
      s.onCheck die p c fun s => (s.noteUse die part (s.handleUses die part p.handles)).takePacket die p p.barrier).next

/-- A prefetch loads what is not resident into slots with a count of 0. -/
def State.prefetch (s : State) (die part : Nat) (hs : List Nat) : State :=
  let (k, s) := s.takeTicket
  match s.claimAll die part k 0 hs with
  | none => s
  | some t =>
    if hs.any (t.loadLocked die part) then s
    else hs.foldl (fun s h => s.loadHandle die part none h) t

/-! The completion of a launch (R285). -/

/-- Every instance has ended or is known never to start. -/
def Launch.over (l : Launch) : Bool := decide (l.info.count ≤ l.tally.ended + l.tally.never)

/-- Whether a launch's trigger, or a launch-wide ENDG, has passed (R306, R316). -/
def Launch.triggered (l : Launch) : Bool := !l.trig.isEmpty || l.trigAll

/-- The launch completes: the record unless it is committed, the window and the claims, and the completion signal; its packet
completes with it. A launch over before its tensors are resident has them made so first, since the claims it releases are on
them (R287, R288). It waits while a frame it writes is under a LOCK (R139). -/
def State.completeLaunch (s : State) (l : Launch) : State :=
  let i := l.info
  let o := l.tally.outcome l.triggered
  let r : Option State :=
    if s.signalLocked i.home i.part l.csig ∨ s.adaptLocked i.home i.part l.handles ∨
      l.handles.any (s.loadLocked i.home i.part) then none
    else if l.tally.committed then some s
    else (s.storeRecord i.home i.part l.crec (s.launchRecord l o.1 o.2)).map (·.1)
  match r with
  | none => s
  | some s =>
    let s := if l.stage = LStage.loading then l.handles.foldl (fun s h => s.loadHandle i.home i.part (some i.lid) h) s else s
    let s := s.updDie i.home fun d => { d with windows := d.windows.map fun w => if w = some i.lid then none else w }
    let s := l.handles.foldl (fun s h => s.releaseHandle i.home i.part i.lid h) s
    let s := s.signalAt i.home i.part l.csig (· + minusOne)
    let close (d : Die) : Die := { d with ref := { d.ref with queues := d.ref.queues.map fun q =>
      if q.qd = l.qd then { q with open_ := q.open_.filter fun p => !(p.f 0 1 == 1 && p.idx == l.pkt) } else q } }
    { s with dies := s.dies.map close, launches := s.launches.filter fun x => x.info.lid != i.lid }

/-- Complete a launch when it is over. -/
def State.checkLaunch (s : State) (lid : Nat) : State :=
  match s.launch lid with
  | none => s
  | some l => if (l.stage == .ready || l.stage == .loading) && l.over then s.completeLaunch l else s

/-- PACKET_COMPLETE (R277): COND and NOP packets complete once they have been read; a SIGNAL with its atomic; a COPY moves
bytes and completes with the last; a PREFETCH completes when its adaptations are resident, and a LAUNCH with its launch. -/
def execPacketComplete (die qd idx : Nat) (s : State) : Host.Outcome State Fault Refusal :=
  (match (s.queueOf die qd).bind fun q => q.open_.find? fun (p : Pkt) => p.idx == idx with
    | none => s
    | some p =>
      let t := p.f 0 1
      if t = 2 then s
      else if t = 1 then
        match s.launches.find? fun (l : Launch) => l.qd == qd && l.pkt == idx with
        | none => s
        | some l => s.checkLaunch l.info.lid
      else if t = 4 then s.completeSignal die p
      else if t = 5 ∧ p.moved < p.f 0x18 8 then s.copyMore die p
      else if t ≠ 7 then s.endPacket die p
      else
        let part := (s.qdesc qd).part
        let s := s.prefetch die part p.handles
        if p.handles.all fun h => s.resident die part h then s.endPacket die p else s).next

end Sys2Proof.Machine
end

