-- ==== Sys2Proof/Machine/Placing.lean ====
section
/-! DEFINITION. Choosing and placing work (R20, R21, R289 to R293), pre-empting (R292, R339 to R342), the dispenser (R299),
the end of an instance (R99), and stealing queues. -/

namespace Sys2Proof.Machine

/-! Ranks (R289, R290). -/

/-- A place in R289's order: class, slack (none for infinite), admission time, home die, run-list index, order of
admission. -/
structure Rank where
  cls : Nat
  slack : Option Int
  admitted : Nat
  home : Nat
  rl : Nat
  order : Nat
  deriving DecidableEq, Repr

/-- Slack at a time (R290), in integers of unbounded range (R4): a time before T0 gives a negative product, whose quotient is
truncated toward zero as any div is. -/
def Launch.slack (l : Launch) (now : Nat) : Option Int :=
  if !l.info.dline then none
  else
    let rest : Int :=
      if l.progress = 0 then l.est * l.unitNs
      else if l.est ≤ l.progress then 0
      else ((l.est - l.progress : Nat) * ((now : Int) - (l.t0.getD now : Nat))).tdiv l.progress
    some ((l.info.deadline : Int) - now - rest)

/-- The rank of a launch at a time. -/
def Launch.rank (l : Launch) (now : Nat) : Rank :=
  ⟨l.info.cls, l.slack now, l.admitted, l.info.home, l.rlIndex, l.order⟩

/-- a is below b, a missing number being infinite. -/
def slackLt : Option Int → Option Int → Bool
  | some a, some b => decide (a < b)
  | some _, none => true
  | none, _ => false

/-- Whether one rank comes before another. -/
def Rank.before (a b : Rank) : Bool :=
  if a.cls ≠ b.cls then decide (a.cls < b.cls)
  else if a.slack ≠ b.slack then slackLt a.slack b.slack
  else if a.admitted ≠ b.admitted then decide (a.admitted < b.admitted)
  else if a.home ≠ b.home then decide (a.home < b.home)
  else if a.rl ≠ b.rl then decide (a.rl < b.rl)
  else decide (a.order < b.order)

/-- The launches in rank order. -/
def ranked (now : Nat) (ls : List Launch) : List Launch :=
  sortBy (fun a b => (a.rank now).before (b.rank now) || !(b.rank now).before (a.rank now)) ls

/-- A ready launch (R289): admitted, its tensors resident, with untaken instances, its trigger not passed. -/
def Launch.ready (l : Launch) : Bool := l.stage == .ready && decide (l.taken < l.info.count) && !l.triggered

/-- A ready launch of the machine: no time unit has reached its trigger (R305, R306). -/
def State.readyLaunch (s : State) (l : Launch) : Bool :=
  l.ready && !(l.info.dline && s.dies.any fun d => decide (l.info.trigger ≤ d.tu.now))

/-! Free places (R13, R21, R291, R341). -/

/-- The contexts on a slot, running or in its shadow storage. -/
def State.onSlot (s : State) (die slot : Nat) : List Gang :=
  s.gangs.filter fun g =>
    match g.place with
    | .run d sl _ => d == die && sl == slot
    | .shadow d sl _ => d == die && sl == slot
    | _ => false

/-- A context in shadow storage keeps a slot from a LIVE instance: one that is LIVE itself, whose region would be cleared, and
one that is on its way elsewhere. One that made way for a LIVE instance does not (R132, R341). -/
def Gang.leaving (g : Gang) : Bool :=
  g.info.cls == 0 || match g.drain with
    | .suspend _ _ => true
    | .preempt _ live => !live
    | _ => false

/-- A context takes up a half for a new one: any that runs; one in shadow storage, for a context that is not LIVE, or while it
is on its way elsewhere (R341). -/
def Gang.blocks (g : Gang) (live : Bool) : Bool := g.place.running || !live || g.leaving

/-- The engines of a half are all present (R291). -/
def Die.halfFull (d : Die) (slot half : Nat) : Bool := ((d.inveng.getD slot 0).toNat / 2 ^ (8 * half)) % 256 == 255

/-- A slot that is in service. -/
def Die.slotOn (d : Die) (slot : Nat) : Bool :=
  d.invslot.getLsbD slot && !(d.slots.getD slot ⟨[], [], [], true⟩).retired

/-- A slot is empty for a launch. -/
def State.slotEmpty (s : State) (die slot : Nat) (live : Bool) : Bool :=
  (s.die die).slotOn slot && !(s.onSlot die slot).any fun g => g.blocks live

/-- A context that a pre-emption has asked to drain, until it is in the spill area, or the LIVE instance it made way for is
placed. -/
def Gang.yields (g : Gang) : Bool :=
  match g.drain with
  | .preempt _ _ => true
  | _ => false

/-- The half of a slot that a width-8 instance takes beside one of its own launch: the upper half. A slot that is being
pre-empted takes none: it goes to the pre-emptor as a whole (R13, R292). -/
def State.besideHalf (s : State) (die slot lid : Nat) (live : Bool) : Bool :=
  let on := (s.onSlot die slot).filter fun g => g.blocks live
  (s.die die).slotOn slot && (s.die die).halfFull slot 1 && !on.any Gang.yields
    && on.any (fun g => g.info.lid == lid && g.place.running && g.place.half == 0 && g.info.width == 8)
    && !on.any fun g => g.place.half == 1 || g.info.width == 16

/-- Where an instance of a width and a launch goes on a die (R21, R291). -/
def State.spaceFor (s : State) (die : Nat) (i : LInfo) : Option (Nat × Nat) :=
  let d := s.die die
  let live := i.cls == 0
  let slots := List.range 12
  if i.width = 16 then
    (slots.find? fun n => s.slotEmpty die n live && d.halfFull n 0 && d.halfFull n 1).map fun n => (n, 0)
  else match slots.find? fun n => s.besideHalf die n i.lid live with
    | some n => some (n, 1)
    | none =>
      (slots.find? fun n => s.slotEmpty die n live && (d.halfFull n 0 || d.halfFull n 1)).map fun n =>
        (n, if d.halfFull n 0 then 0 else 1)

/-! Starting an instance (R20, R22, R90, R132, R289). -/

/-- The coordinates of instance number k: x varies fastest, then y, z and stage (R20). -/
def LInfo.coords (i : LInfo) (k : Nat) : Nat × Nat × Nat × Nat :=
  (k % i.nx, k / i.nx % i.ny, k / (i.nx * i.ny) % i.nz, k / (i.nx * i.ny * i.nz))

/-- The regions of a class on the engines of a half or slot: key and length (R132). -/
def LInfo.regions (i : LInfo) (die slot half : Nat) : List (Nat × Nat) :=
  let base := if i.cls = 0 then 0xC_0000 else 0
  let len := if i.cls = 0 then 262144 else 786432
  let first := if i.width = 8 then 8 * half else 0
  (List.range i.width).map fun n => (windowKey die slot (first + n) base, len)

/-- What the scratchpads of a place held before writes that are not published is gone with its context. -/
def State.settleRegion (s : State) (die slot half : Nat) (i : LInfo) : State :=
  (i.regions die slot half).foldl (fun s x => s.settle x.1 x.2) s

/-- Clear the region of a class on the engines of a half or slot (R132). -/
def State.clearRegion (s : State) (die slot half : Nat) (i : LInfo) : State :=
  (i.regions die slot half).foldl (fun s x => { s with mem := s.mem.clear x.1 x.2 }) (s.settleRegion die slot half i)

/-- A new instance of a launch on a place (R15, R16, R22, R80, R90, R125). DESIGN CHOICE: an instance that is placed on an empty
slot, or resumed there, waits for no restart of the slot's clock; R252 speaks of the release of a sequencer alone. -/
def newGang (i : LInfo) (gid k die slot half pts : Nat) : Gang :=
  let c := i.coords k
  let m := widthLanes i.width
  { Gang.empty with
    gid := gid, info := i, place := .run die slot half, gx := c.1, gy := c.2.1, gz := c.2.2.1, stage := c.2.2.2,
    epres := m, q0 := { Seq.start with pc := i.prog, exec := m, pts := pts } }

/-- Put a context among the contexts; the empty one that stands in focus before the first instance makes room. -/
def State.addGang (s : State) (g : Gang) : State :=
  if s.g.gid = 0 then { s with g := g } else { s with others := s.others ++ [g] }

/-- An instance of a LIVE launch is on a slot, and the contexts it has put into the slot's shadow storage may resume once it
has ended (R339, R341). -/
def State.takeOver (s : State) (die slot : Nat) (live : Bool) : State :=
  if !live then s
  else s.mapGangs fun g =>
    match g.place, g.drain with
    | .shadow d sl _, .preempt _ true => if d = die ∧ sl = slot then { g with drain := .none } else g
    | _, _ => g

/-- The next instance of a launch starts on a place of a die (R20). -/
def State.startInstance (s : State) (die : Nat) (l : Launch) (sp : Nat × Nat) : State :=
  let (gid, s) := s.takeTicket
  let now := s.now die
  let s := s.clearRegion die sp.1 sp.2 l.info
  let s := s.updLaunch l.info.lid fun l => { l with taken := l.taken + 1, t0 := l.t0.orElse fun _ => some now }
  let g := newGang l.info gid l.taken die sp.1 sp.2 s.topTime
  (s.takeOver die sp.1 (l.info.cls == 0)).addGang { g with slowed := (s.die die).health.span }

/-! Pre-emption (R292, R339). -/

/-- A context that waits away from a slot, to resume on any die: spilled or suspended (R342). -/
def Gang.away (g : Gang) : Bool :=
  match g.place with
  | .spill _ _ => true
  | .image _ => true
  | _ => false

/-- A context may be pre-empted: it runs, and nothing has stopped it or asked it to drain for another. In SYS mode the drain
acts on it, and its bounds run, from TRET (R325). -/
def Gang.victim (g : Gang) : Bool :=
  g.place.running && !g.stopping && !g.halted && match g.drain with
    | .none => true
    | .endgame _ => true
    | _ => false

/-- Whether a pre-emption is under way on a die. -/
def State.preempting (s : State) (die : Nat) : Bool :=
  s.gangs.any fun g => g.yields && g.place.die == die

/-- The order of victims: lowest class first, then greatest slack, then the one started most recently (R292): the numbers of
instances rise in the order they start in. -/
def State.worse (s : State) (now : Nat) (a b : Gang) : Bool :=
  let sl (g : Gang) : Option Int := ((s.launch g.info.lid).map fun l => l.slack now).getD none
  if a.info.cls ≠ b.info.cls then decide (b.info.cls < a.info.cls)
  else if sl a ≠ sl b then slackLt (sl b) (sl a)
  else decide (b.gid < a.gid)

/-- The victim of a pre-emption for a class on a die (R292): of a lower class than the pre-emptor, on a slot that the
pre-emptor fits once it is free. DEDUCED: a slot that is retired or lacks engines it needs, whose shadow storage a
non-LIVE pre-emptor could not pass by, or with an instance that cannot be asked to drain would not be freed for it, and its
instances are no victims. -/
def State.victimFor (s : State) (die : Nat) (i : LInfo) : Option Gang :=
  let d := s.die die
  let fits (n : Nat) : Bool :=
    d.slotOn n && if i.width = 16 then d.halfFull n 0 && d.halfFull n 1 else d.halfFull n 0 || d.halfFull n 1
  let c := s.gangs.filter fun g =>
    g.place.running && g.place.die == die && decide (i.cls < g.info.cls) && fits g.place.slot
      && !(s.onSlot die g.place.slot).any (fun x => !x.place.running && x.blocks (i.cls == 0))
      && (s.onSlot die g.place.slot).all fun x => x.victim || !x.place.running
  c.foldl (fun b g => match b with
    | none => some g
    | some h => if s.worse (s.now die) g h then some g else some h) none

/-- Ask a context to drain for a pre-emption; one that is already draining to its endgame is marked for it (R307, R339). -/
def Gang.askPreempt (g : Gang) (now : Nat) (live : Bool) : Gang :=
  match g.drain with
  | .endgame r => { g with drain := .preempt now live, egMark := some r }
  | _ => { g with drain := .preempt now live }

/-- A context has an entry of a die's spill area, or is on its way to one (R341, R368). -/
def State.spills (s : State) (die : Nat) (g : Gang) : Bool :=
  match g.place, g.drain with
  | .spill d _, _ => d == die
  | .run d _ _, .preempt _ false => d == die
  | .shadow d _ _, .preempt _ false => d == die
  | .shadow d sl _, _ => d == die && !(s.die d).slotOn sl
  | _, _ => false

/-- The free entries of a die's spill area that no context is on its way to (R341). -/
def State.spillRoom (s : State) (die : Nat) : Nat :=
  let used := s.gangs.filter (s.spills die)
  (s.die die).spilln.toNat - used.length

/-- A pre-emption for a ready launch of a higher class that fits nowhere: every context of the victim's slot is asked to
drain; none while another is under way on the die. Without a free spill entry one that is not for a LIVE launch does not take
place (R341). -/
def State.preempt (s : State) (die : Nat) (i : LInfo) : Option State :=
  match s.victimFor die i with
  | none => none
  | some v =>
    let on := (s.onSlot die v.place.slot).filter (·.place.running)
    if s.preempting die ∨ (i.cls ≠ 0 ∧ s.spillRoom die < on.length) then none
    else some (s.mapGangs fun g =>
      if on.any (·.gid == g.gid) then g.askPreempt (s.now die) (i.cls == 0) else g)

/-! INSTANCE_PLACE. -/

/-- The launches whose work a die may take, new instances or contexts that wait (R289, R292). -/
def State.candidates (s : State) (die : Nat) : List Launch :=
  ranked (s.now die) (s.launches.filter fun l =>
    s.readyLaunch l || s.gangs.any fun g => g.info.lid == l.info.lid && g.away)

/-- The first launch in rank order that fits the free space of a die, with the space. -/
def State.firstFit (s : State) (die : Nat) : Option (Launch × (Nat × Nat)) :=
  (s.candidates die).findSome? fun l => (s.spaceFor die l.info).map fun sp => (l, sp)

/-- What a die can do for one launch of its candidates: a launch that fits gives its next instance, or waits for the return of
a context; a ready one that fits nowhere asks for a pre-emption. -/
def State.placeOne (s : State) (die : Nat) (l : Launch) : Option State :=
  match s.spaceFor die l.info with
  | some sp => some (if s.readyLaunch l then s.startInstance die l sp else s)
  | none => if s.readyLaunch l then s.preempt die l.info else none

/-- INSTANCE_PLACE (R289, R292): the first launch in rank order for which the die can do something. -/
def execInstancePlace (die : Nat) (s : State) : Host.Outcome State Fault Refusal :=
  (if !s.refereeOn die then s else ((s.candidates die).findSome? (s.placeOne die)).getD s).next

/-! The dispenser (R299). -/

/-- The next item of the home counter: a returned one, the lowest first, or a new one. -/
def Launch.handOut (l : Launch) : Option (Nat × Launch) :=
  match least l.returned with
  | some k => some (k, { l with returned := l.returned.erase k })
  | none => if l.drawn < l.cx * l.cy then some (l.drawn, { l with drawn := l.drawn + 1 }) else none

/-- A block of up to n items for a die's reserve. -/
def Launch.refill (die : Nat) : Nat → Launch → Launch
  | 0, l => l
  | n + 1, l =>
    match l.handOut with
    | none => l
    | some (k, l) => (l.setReserve die (l.reserveOf die ++ [k])).refill die n

/-- DISPENSER_REFILL (R299): a reserve that has fallen below 8, on a die where the launch runs, takes 8 items. -/
def execDispenserRefill (die lid : Nat) (s : State) : Host.Outcome State Fault Refusal :=
  (match s.launch lid with
    | none => s
    | some l =>
      if (l.reserveOf die).length < 8 ∧ s.gangs.any (fun g => g.info.lid == lid && g.place.running && g.place.die == die) then
        s.updLaunch lid fun l => l.refill die 8
      else s).next

/-- A context is of a die: it runs there, or it is in shadow storage or the spill area there. -/
def Gang.heldBy (g : Gang) (die : Nat) : Bool :=
  match g.place with
  | .run d _ _ => d == die
  | .shadow d _ _ => d == die
  | .spill d _ => d == die
  | _ => false

/-- A launch with no instance left on a die, one that is pre-empted included: the die's reserve goes back to the home counter
(R299). -/
def State.returnReserve (s : State) (lid die : Nat) : State :=
  if s.gangs.any fun g => g.info.lid == lid && g.heldBy die then s
  else s.updLaunch lid fun l => { l with returned := l.returned ++ l.reserveOf die, reserve := l.reserve.filter (·.1 != die) }

/-! INSTANCE_END (R99, R310). -/

/-- Nothing of a gang is outstanding. -/
def Gang.quiet (g : Gang) : Bool :=
  let ok (q : Seq) : Bool := q.toks.all (· == 0) && q.systoks.all (· == 0) && q.sb.isEmpty && q.acc.isEmpty
  ok g.q0 && ok g.q1 && g.ops.isEmpty && g.eng.isEmpty && g.parts.isEmpty

/-- An instance is over: it was stopped, or it halted and no cause is held; with nothing outstanding (R99, R310). -/
def Gang.over (g : Gang) : Bool :=
  g.gid != 0 && g.quiet
    && (g.stopping || (g.q0.block == .halted && !g.split && !g.inSys && g.fl.isEmpty && g.deferred.isEmpty))

/-- Take a context out of the machine; the next one takes the focus. -/
def State.removeGang (s : State) (gid : Nat) : State :=
  if s.g.gid = gid then
    match s.others with
    | [] => { s with g := { Gang.empty with q0 := Seq.start } }
    | g :: gs => { s with g := g, others := gs }
  else { s with others := s.others.filter (·.gid != gid) }

/-- INSTANCE_END (R99, R285): the instance's copies are published, its launch counts it, and completes with the last. -/
def execInstanceEnd (gid : Nat) (s : State) : Host.Outcome State Fault Refusal :=
  (match s.gangs.find? fun (g : Gang) => g.gid == gid with
    | none => s
    | some g =>
      if !g.over then s
      else
        let s := s.withGang gid fun s => s.publishAll 3 0
        let s := s.removeGang gid
        let s := s.updLaunch g.info.lid fun l =>
          { l with arrived := l.arrived.filter (· != gid), tally := { l.tally with ended := l.tally.ended + 1 } }
        ((List.range 4).foldl (State.returnReserve · g.info.lid) s).checkLaunch g.info.lid).next

/-! Stealing queues (R293). -/

/-- The ring of Referees. -/
def stealRing (from_ : Nat) : List Nat :=
  let r := [0, 1, 3, 2]
  let k := (r.idxOf from_)
  ((r.drop (k + 1)) ++ r.take k)

/-- A die is idle: its slots hold no context, in their shadow storage either, and no launch is ready for it. -/
def State.idleDie (s : State) (die : Nat) : Bool :=
  !((List.range 12).any fun n => (s.onSlot die n).any (·.gid != 0)) && (s.candidates die).isEmpty

/-- A die that works is idle no more: its 2 us begin again later (R293). -/
def State.noteBusy (s : State) (die : Nat) : State :=
  if (s.die die).ref.idleSince.isNone ∨ s.idleDie die then s
  else s.updRef die fun r => { r with idleSince := none, request := none }

/-- STEAL_REQUEST (R293): an idle die asks. The 2 us are kept by the times in `idleSince`. -/
def execStealRequest (die : Nat) (s : State) : Host.Outcome State Fault Refusal :=
  (if !s.refereeOn die then s
    else
      let now := s.now die
      if !s.idleDie die then s.updRef die fun r => { r with idleSince := none, request := none }
      else match (s.die die).ref.idleSince with
        | none => s.updRef die fun r => { r with idleSince := some now }
        | some t => if t + 2000 ≤ now then s.updRef die fun r => { r with request := some now } else s).next

/-- The index of the first packet of a queue that its Referee has not read. -/
def QState.unread (q : QState) (d : QDesc) : Nat := d.ridx + (if q.inHand.isSome then 1 else 0)

/-- A queue that a die's Referee holds and that may be stolen, with an unread packet (R293). -/
def State.stealable (s : State) (die : Nat) (q : QState) : Bool :=
  let d := s.qdesc q.qd
  s.reaches q.qd && !d.bad && d.home == die && d.state == 0 && d.qflags == 1 && decide (2 ≤ d.scope) && decide (q.unread d < d.widx)
    && (s.runEntry die q.qd).isSome

/-- The rank of a queue's head packet: that of the launch record it names, or of a class with infinite slack. -/
def State.headRank (s : State) (die : Nat) (q : QState) : Rank :=
  let d := s.qdesc q.qd
  let plain (c : Nat) (sl : Option Int) : Rank := ⟨c, sl, s.now die, die, q.rl, 0⟩
  match s.agentRead die d.part (d.slotVa (q.unread d)) 64 with
  | .error _ => plain d.cls none
  | .ok p =>
    if byteField p 0 1 ≠ 1 then plain d.cls none
    else match s.agentRead die d.part (byteField p 8 8) 256 with
      | .error _ => plain d.cls none
      | .ok b =>
        let l := recLaunch b (recInfo b 0 die d.part 0) ⟨q.qd, 0, p, false, false, 0⟩ q.rl
        plain l.info.cls (l.slack (s.now die))

/-- The addresses read to rank a queue's head packet. -/
def State.rankUses (s : State) (die : Nat) (q : QState) : List (Nat × Acc) :=
  let d := s.qdesc q.qd
  let va := d.slotVa (q.unread d)
  match s.agentRead die d.part va 64 with
  | .ok p => if byteField p 0 1 = 1 then [(va, 0), (byteField p 8 8, 0)] else [(va, 0)]
  | .error _ => []

/-- The translations by which a Referee ranks the queues it may hand over are kept (R372). -/
def State.noteRanks (s : State) (die : Nat) : State :=
  ((s.die die).ref.queues.filter (s.stealable die)).foldl (fun s q =>
    s.noteUse die (s.qdesc q.qd).part (s.rankUses die q)) s

/-- The queue a die hands over: of two or more stealable ones, the one whose head packet ranks lowest. -/
def State.handOver (s : State) (die : Nat) : Option QState :=
  let c := (s.die die).ref.queues.filter (s.stealable die)
  if c.length < 2 then none
  else c.foldl (fun b q => match b with
    | none => some q
    | some x => if (s.headRank die x).before (s.headRank die q) then some q else some x) none

/-- A free entry of a run list. DESIGN CHOICE: a queue that is handed over takes the lowest free entry, and with none free nothing is
handed over and the request stays; R272 and R293 name neither case. -/
def State.freeRun (s : State) (die : Nat) : Option Nat :=
  if !s.reaches (s.die die).rlbase.toNat then none else (List.range 256).find? fun n => leValue (s.agentBytes die ((s.die die).rlbase.toNat + 8 * n) 8) == 0

/-- A queue moves from one die's run list to another's, and HOME with it (R272, R293). -/
def State.moveQueue (s : State) (from_ to_ n : Nat) (q : QState) : State :=
  let old := s.runEntry from_ q.qd
  let s := s.agentWrite (q.qd + 0x21) (leBytes 1 to_)
  let s := match old with
    | some k => s.agentWrite ((s.die from_).rlbase.toNat + 8 * k) (leBytes 8 0)
    | none => s
  let s := s.agentWrite ((s.die to_).rlbase.toNat + 8 * n) (leBytes 8 q.qd)
  let s := s.updRef from_ fun r => { r with queues := r.queues.filter (·.qd != q.qd) }
  s.updRef to_ fun r => { r with queues := r.queues ++ [{ q with rl := n }], request := none, idleSince := none }

/-- STEAL_HANDOVER (R293): the first Referee on the ring that can hands a queue to the die that has asked, once the packet it
has in hand is released; with none, the request comes back and the 2 us begin again. -/
def execStealHandover (die : Nat) (s : State) : Host.Outcome State Fault Refusal :=
  (match (s.die die).ref.request, s.freeRun die with
    | some _, some n =>
      match (stealRing die).findSome? fun d => if s.refereeOn d then (s.handOver d).map fun q => (d, q) else none with
      | some (d, q) => if q.inHand.isSome then s else (s.noteRanks d).moveQueue d die n q
      | none => s.updRef die fun r => { r with request := none, idleSince := some (s.now die) }
    | _, _ => s).next

end Sys2Proof.Machine
end

