-- ==== Sys2Proof/Machine/Context.lean ====
section
/-! DEFINITION. Saving a context and resuming it (R339 to R343), the context image (R345, R346), and the deadline and the
endgame (R305 to R310). -/

namespace Sys2Proof.Machine

/-! The image (R345, R346), as a memory of offsets. -/

/-- A divergence-stack entry. -/
def DsEntry.image (e : DsEntry) : List Byte :=
  leBytes 8 (e.elsePc % 2 ^ 22 + e.joinPc % 2 ^ 22 * 2 ^ 22 + e.emask.toNat * 2 ^ 44 + (if e.phase then 2 ^ 60 else 0)
    + e.kind % 4 * 2 ^ 61) ++ leBytes 8 e.rmask.toNat

/-- Stack entries, entry 0 at the bottom. -/
def stackImage (ds : List DsEntry) : List Byte := (ds.reverse.map DsEntry.image).flatten

/-- Loop frames, outermost first. -/
def framesImage (fs : List Frame) : List Byte :=
  (fs.reverse.map fun f =>
    leBytes 8 f.start ++ leBytes 8 f.fin ++ leBytes 8 f.n ++ leBytes 8 f.neff ++ leBytes 8 f.j ++ leBytes 8 f.s).flatten

/-- The bytes of a list of words. -/
def wordsImage (ws : List Word) : List Byte := (ws.map fun w => leBytes 8 w.toNat).flatten

/-- A bit as a byte. -/
def flagByte (b : Bool) : Byte := if b then 1 else 0

/-- The fields of a sequencer record, by offset. -/
def Seq.fields (x : Seq) : List (Nat × List Byte) :=
  let t := x.xfer.getD ⟨none, 0, none, .nothing⟩
  let w : Nat × Nat × Nat := match x.block with
    | .wait n => (1, n, 0)
    | .idle m => (2, 0, m.toNat)
    | _ => (0, 0, 0)
  [(0x000, wordsImage ((List.range 62).map fun k => x.reg (BitVec.ofNat 6 (k + 1)))),
   (0x1F0, (List.range 8).map fun k => flagByte (x.pred (BitVec.ofNat 3 k))),
   (0x1F8, (List.range 8).map fun k => flagByte (x.toks.getD k 0 != 0)),
   (0x340, framesImage x.frames),
   (0x3D0, leBytes 8 (t.dst.getD 0) ++ leBytes 1 t.left ++ leBytes 2 (t.mask.getD 0).toNat),
   (0x3E0, leBytes 8 x.pc),
   (0x3E8, leBytes 1 x.ds.length),
   (0x3F0, leBytes 2 x.exec.toNat ++ leBytes 1 w.1),
   (0x3F4, leBytes 4 w.2.1),
   (0x3F8, leBytes 1 w.2.2)]
  ++ ((List.range 8).map fun n => (0x200 + 40 * n, leBytes 8 (x.q.getD n []).length ++ wordsImage (x.q.getD n [])))
  ++ x.sb.zipIdx.map fun e => (0x400 + 24 * e.2,
    leBytes 8 e.1.va.toNat ++ (e.1.data ++ List.replicate (8 - e.1.data.length) 0) ++ leBytes 1 e.1.data.length)

/-- Put fields at a base. -/
def putFields (m : Memory) (base : Nat) (fs : List (Nat × List Byte)) : Memory :=
  fs.foldl (fun m f => m.put (base + f.1) f.2) m

/-- The fields of an engine after its registers. -/
def Lane.fields (x : Lane) : List (Nat × List Byte) :=
  [(0x3_0800, (x.shapes.map fun p => leBytes 1 p.1 ++ leBytes 1 p.2).flatten),
   (0x3_0820, wordsImage ((List.range 8).map fun n => x.mask (BitVec.ofNat 3 n))),
   (0x3_0860, wordsImage x.e),
   (0x3_08E0, leBytes 8 x.c.toNat),
   (0x3_08E8, leBytes 8 x.status.toNat)]

/-- The arrival a blocked barrier instruction has made: the phase and the superstep arrived in (R250). -/
def Gang.arrival (g : Gang) : Option (Nat × Nat) :=
  match g.q0.block, g.q1.block with
  | .barSync _ _ _ (some k), _ => some (k % 2, 0)
  | .sstep (some n), _ => some (0, n)
  | _, .barSync _ _ _ (some k) => some (k % 2, 0)
  | _, _ => none

/-- The flags of an image. The flight area is valid where it has something to hold: a freeze, results in flight, or causes
that are held (R345, R371). -/
def Gang.imageFlags (g : Gang) : Nat :=
  (if g.frozen || !g.fl.isEmpty || !g.deferred.isEmpty then 1 else 0) + (if g.egMark.isSome then 2 else 0) + (if g.held.isSome then 4 else 0)
    + (if g.split then 8 else 0) + (if g.arrival.isSome then 16 else 0)

/-- The fields before the engines. What a continuation holds aside is laid out as the stack, the frames, EXEC and the
depth of the stack. -/
def Gang.fields (g : Gang) : List (Nat × List Byte) :=
  let a := g.arrival.getD (0, 0)
  [(0x0000, leBytes 8 1), (0x0008, leBytes 8 g.info.lrec.toNat),
   (0x0010, leBytes 4 g.gx ++ leBytes 4 g.gy ++ leBytes 4 g.gz ++ leBytes 4 g.stage),
   (0x0020, leBytes 8 g.imageFlags),
   (0x0028, leBytes 2 g.q0.exec.toNat ++ leBytes 2 g.xmask.toNat ++ leBytes 2 g.pmask.toNat ++ leBytes 2 g.epres.toNat),
   (0x0030, leBytes 8 g.q0.pts), (0x0038, leBytes 8 g.cycle),
   (0x0040, leBytes 2 g.lastBatch.toNat),
   (0x0048, wordsImage [g.contpc, g.trapCause, g.trapPc, g.trapInfo, g.trapSlot]),
   (0x0070, leBytes 8 (g.ring.length + (if g.ovf then 16 else 0))),
   (0x0078, leBytes 8 (g.egReason % 256 + a.1 * 256 + a.2 % 2 ^ 48 * 2 ^ 16)),
   (0x0080, (g.ring.map fun r => wordsImage [r.word0, r.info]).flatten),
   (0x0100, stackImage g.q0.ds)]
  ++ match g.held with
    | none => []
    | some h => [(0x0E00, stackImage h.ds), (0x0F00, framesImage h.frames),
        (0x0F90, leBytes 2 h.exec.toNat ++ leBytes 1 h.ds.length)]

/-- The image of a context up to its flight area. -/
def Gang.image (g : Gang) : Memory :=
  let m := putFields (putFields [] 0 g.fields) 0x200 g.q0.fields
  let m := if g.split then (putFields m 0x800 g.q1.fields).put 0xD80 (stackImage (g.q1.ds.drop (g.q1.ds.length - 1))) else m
  let lanes := g.lanes.take g.info.width
  lanes.zipIdx.foldl (fun m x =>
    let base := 0x1000 + x.2 * 0x3_1000
    putFields (x.1.store.foldl (fun m c => m.set (base + c.1) c.2) m) base x.1.fields) m

/-- The blocks of 4 KiB before the flight area, and those of the flight area (R345). -/
def LInfo.imageBlocks (i : LInfo) : Nat × Nat := (1 + i.width * 0x31, if i.width = 8 then 0x30 else 0x60)

/-- The blocks of one lane's scratchpad allocation (R341). -/
def LInfo.allocBlocks (i : LInfo) : Nat := (i.spBytes + 4095) / 4096

/-! Where blocks of a saved context lie. -/

/-- The physical address of block k of a spill entry or a SUSPEND image, for an access. -/
def State.blockAddr (s : State) (die : Nat) (p : Place) (k : Nat) (acc : Acc) : Option Nat :=
  match p with
  | .spill d e =>
    let pa := (s.die d).spillbase.toNat + e * 2 ^ 24 + k * 4096
    if s.reaches pa then some pa else none
  | .image a =>
    match s.locate [] die (a / 2 ^ 64) true (a % 2 ^ 64 + k * 4096) 1 acc with
    | .at_ key _ => some key
    | _ => none
  | _ => none

/-- Write blocks, each given by its number and bytes; none while one of them does not translate. -/
def State.saveBlocks (s : State) (die : Nat) (p : Place) : List (Nat × List Byte) → Option State
  | [] => some s
  | b :: bs => (s.blockAddr die p b.1 1).bind fun pa => (s.agentWrite pa b.2).saveBlocks die p bs

/-- The bytes of a lane's allocation block j, by lane and block (R341). -/
def State.allocBytes (s : State) (g : Gang) (l j : Nat) : List Byte :=
  s.mem.bytes (g.localKey l (4096 * j)) (min 4096 (g.info.spBytes - 4096 * j))

/-- Every lane with every block of its allocation, and the block's number in the image. -/
def LInfo.allocPlan (i : LInfo) : List (Nat × Nat × Nat) :=
  ((List.range i.width).map fun l => (List.range i.allocBlocks).map fun j => (l, j, 1024 + l * i.allocBlocks + j)).flatten

/-- The flight area, whose bytes the spec does not state. -/
def flightBytes (n k : Nat) : List Byte := (List.range 4096).map fun j => Config.freeByte (n + 4096 * k + j)

/-- Write the image and the allocations of a context to where it moves. -/
def State.saveContext (s : State) (g : Gang) (p : Place) : Option State :=
  let img := g.image
  let nb := g.info.imageBlocks
  let head := (List.range nb.1).map fun k => (k, img.bytes (4096 * k) 4096)
  let flight := (List.range nb.2).map fun k => (nb.1 + k, flightBytes s.free k)
  let alloc := g.info.allocPlan.map fun x => (x.2.2, s.allocBytes g x.1 x.2.1)
  ({ s with free := s.free + 4096 * nb.2 }).saveBlocks g.place.die p (head ++ flight ++ alloc)

/-! CONTEXT_SAVE (R339, R341, R343). -/

/-- The caches of a sequencer are no context (R163, R342). -/
def Seq.shed (x : Seq) : Seq := { x with l0 := [], utlb := [] }

/-- The register context goes to shadow storage; with `n`, its scratchpads are closed to new accesses (R339, R341). -/
def Gang.toShadow (g : Gang) (d sl h : Nat) (n : Option Nat) : Gang :=
  { g with place := .shadow d sl h, closed := n, q0 := g.q0.shed, q1 := g.q1.shed, paths := [], wake := 0 }

/-- Something that is outstanding comes after a buffered store. The store is performed first, while the context is still on its
slot; the save keeps the others (R157, R163). -/
def Gang.heldBack (g : Gang) : Bool :=
  (g.q0.acc.any fun a => g.olderStore 0 a.tkt) || (g.q1.acc.any fun a => g.olderStore 1 a.tkt)
    || (g.eng.any fun e => g.olderStore e.q e.tkt) || (g.ops.any fun o => g.olderStore o.q o.oid)
    || g.parts.any fun p => g.olderStore p.q (p.pid / 16)

/-- A gang has come to where its context is written (R339, R340). -/
def Gang.saveReady (g : Gang) : Bool := g.drained && !g.heldBack

/-- Nothing of a context is outstanding but buffered stores (R340). -/
def Gang.movable (g : Gang) : Bool :=
  g.q0.acc.isEmpty && g.q1.acc.isEmpty && g.ops.isEmpty && g.eng.isEmpty && g.parts.isEmpty

/-- A place is in the scratchpads of a context. -/
def Ref.inside (g : Gang) (r : Ref) : Bool :=
  match r with
  | .va a => bit a 55 && g.owns (bits a 54 53) (bits a 52 49) (bits a 48 45)
  | .loc _ => false

/-- A copy part may still write into the scratchpads of a context: one that is not started may name any place, and a GET from
a peer writes from DADDR on once the peer has answered (R196, R341). -/
def Part.targets (g : Gang) (p : Part) : Bool :=
  p.kind.channel && (!p.started || (p.kind == .get && (refOf (bit (p.f 0x15 1) 0) (p.f 0 8)).inside g)
    || p.moves.any fun m => m.dst.inside g)

/-- Every copy part that targets a context's scratchpads has completed (R341). -/
def State.untargeted (s : State) (g : Gang) : Bool :=
  s.gangs.all fun x => x.gid == g.gid || !x.parts.any (Part.targets g)

/-- A free entry of a die's spill area (R341). -/
def State.spillFree (s : State) (die : Nat) : Option Nat :=
  (List.range (min (s.die die).spilln.toNat (s.gangs.length + 1))).find? fun e =>
    !s.gangs.any fun g => match g.place with
      | .spill d k => d == die && k == e
      | _ => false

/-- A context leaves its slot for good: its image stands in each of the places given, the last of which it resumes from, and
nothing asks it to drain any more. -/
def State.moveAway (s : State) (ps : List Place) : State :=
  match ps.foldlM (fun (s : State) p => s.saveContext s.g p) s, ps.getLast? with
  | some t, some p =>
    (t.settleRegion t.myDie t.g.place.slot t.g.place.half t.g.info).updG fun g =>
      { g with place := p, drain := .none, closed := none }
  | _, _ => s

/-- Every SUSPEND that asked for a context is over (R343). -/
def State.suspendDone (s : State) (gid : Nat) : State :=
  let is_ (o : TokOp) : Bool := match o.kind with
    | .suspend t _ => t == gid
    | _ => false
  s.gangs.foldl (fun s g => s.withGang g.gid fun s => (s.g.ops.filter is_).foldl State.endOp s) s

/-- The context in focus moves from shadow storage to the spill area, once nothing keeps it (R340, R341). -/
def State.spillStep (s : State) (die : Nat) : State :=
  if s.g.movable && s.untargeted s.g then
    match s.spillFree die with
    | none => s
    | some e => s.moveAway [.spill die e]
  else s

/-- One step of saving the context in focus. One that waits in the shadow storage of a retired slot moves on too, to resume
elsewhere (R368). -/
def State.saveStep (s : State) : State :=
  match s.g.place, s.g.drain with
  | .run d sl h, .preempt _ true => if s.g.saveReady then s.updG fun g => g.toShadow d sl h none else s
  | .run d sl h, .preempt _ false => if s.g.saveReady then s.updG fun g => g.toShadow d sl h (some s.tkt) else s
  | .run d sl h, .suspend _ _ => if s.g.saveReady then s.updG fun g => g.toShadow d sl h (some s.tkt) else s
  | .shadow d _ _, .preempt _ false => s.spillStep d
  | .shadow d sl _, .preempt _ true => if (s.die d).slotOn sl then s else s.spillStep d
  | .shadow d sl _, .none => if (s.die d).slotOn sl then s else s.spillStep d
  | .shadow _ _ _, .suspend _ l =>
    if s.g.movable && s.untargeted s.g then
      let t := s.moveAway (l.map .image)
      if t.g.place.running || t.g.place == s.g.place then s else t.suspendDone s.g.gid
    else s
  | _, _ => s

/-- CONTEXT_SAVE: the drained context goes to shadow storage, and from there to the spill area or to the images of the
SUSPENDs that asked for it. -/
def execContextSave (gid : Nat) (s : State) : Host.Outcome State Fault Refusal := (s.withGang gid State.saveStep).next

/-! PREEMPT_FREEZE (R340). -/

/-- The drain of a gang has overrun its bound: 15 us for a LIVE pre-emptor, 20 us otherwise (R339). -/
def Gang.overran (g : Gang) (now : Nat) : Bool :=
  match g.drain with
  | .preempt since live => decide (since + (if live then 15000 else 20000) < now)
  | .suspend since _ => decide (since + 20000 < now)
  | _ => false

/-- PREEMPT_FREEZE: the gang stops at the next bundle boundary, wherever that is. -/
def execPreemptFreeze (gid : Nat) (s : State) : Host.Outcome State Fault Refusal :=
  (s.withGang gid fun s =>
    if s.g.place.running && !s.g.inSys && !s.g.stopping && !s.g.halted && s.g.overran (s.now s.myDie) then
      s.updG fun g => { g with frozen := true }
    else s).next

/-! CONTEXT_RESTORE (R342). -/

/-- The blocks of an image as a memory of offsets; none while one of them does not translate. -/
def State.readBlocks (s : State) (die : Nat) (p : Place) : List Nat → Option Memory
  | [] => some []
  | k :: ks =>
    match s.blockAddr die p k 0, s.readBlocks die p ks with
    | some pa, some m => some (((s.mem.region pa 4096).map fun c => (4096 * k + c.1, c.2)) ++ m)
    | _, _ => none

/-- A stack entry of an image. -/
def Memory.dsAt (m : Memory) (o : Nat) : DsEntry :=
  let v := m.le o 8
  { elsePc := bits v 21 0, joinPc := bits v 43 22, emask := BitVec.ofNat 16 (bits v 59 44),
    rmask := BitVec.ofNat 16 (m.le (o + 8) 2), phase := bit v 60, kind := bits v 62 61 }

/-- The stack of an image with n entries. -/
def Memory.stackAt (m : Memory) (o n : Nat) : List DsEntry := ((List.range n).map fun k => m.dsAt (o + 16 * k)).reverse

/-- The stack of a fragment with n entries: the image has its base entry, and those of the IFs it has open above that are held
aside (R346). -/
def Memory.fragmentStack (m : Memory) (o n : Nat) (old : List DsEntry) : List DsEntry :=
  if n = 0 then [] else old.dropLast.drop (old.length - n) ++ [m.dsAt o]

/-- The frames of an image: those with a stage count. Whether one is a fragment's copy is kept in the flight area. -/
def Memory.framesAt (m : Memory) (o : Nat) (old : List Frame) : List Frame :=
  (((List.range 3).filter fun k => m.le (o + 48 * k + 40) 1 != 0).map fun k =>
    let f (n : Nat) : Nat := m.le (o + 48 * k + n) 8
    { start := f 0, fin := f 8, n := f 16, neff := f 24, j := f 32, s := m.le (o + 48 * k + 40) 1,
      copied := ((old.reverse[k]?).map (·.copied)).getD false : Frame }).reverse

/-- Words of an image. -/
def Memory.wordsAt (m : Memory) (o n : Nat) : List Word := (List.range n).map fun k => BitVec.ofNat 64 (m.le (o + 8 * k) 8)

/-- A mask of an image. -/
def Memory.lanesAt (m : Memory) (o : Nat) : Lanes := BitVec.ofNat 16 (m.le o 2)

/-- The block of a sequencer: WAIT and IDLE as the record has them; the others are held aside (R346). -/
def Memory.blockAt (m : Memory) (o : Nat) (old : Block) : Block :=
  match m.le (o + 0x3F2) 1 with
  | 1 => .wait (m.le (o + 0x3F4) 4)
  | 2 => .idle (BitVec.ofNat 8 (m.le (o + 0x3F8) 1))
  | _ => match old with
    | .wait _ => .none
    | .idle _ => .none
    | b => b

/-- The pending transfer of a sequencer as the record has it; what it leaves to do is held aside. One that software has added
goes to its destination, and one that was not taken is so still while its destination reads 0. DESIGN CHOICE: a mask change of
0 where there was none stands for none, which the record does not tell apart. -/
def Memory.xferAt (m : Memory) (o : Nat) (old : Option Xfer) : Option Xfer :=
  let left := m.le (o + 0x3D8) 1
  let dst := m.le (o + 0x3D0) 8
  let mask := m.lanesAt (o + 0x3D9)
  let orNone (was : Bool) {α : Type} (zero : Bool) (v : α) : Option α := if was || !zero then some v else none
  if left = 0 then none
  else match old with
    | none => some ⟨some dst, left, orNone false (mask == 0) mask, .nothing⟩
    | some t => some { t with
        dst := orNone t.dst.isSome (dst == 0) dst, left := left, mask := orNone t.mask.isSome (mask == 0) mask }

/-- A buffered store as the record has it; its home stays the one it had while its address is the same. -/
def State.storeFrom (s : State) (die part : Nat) (m : Memory) (o : Nat) (e : StoreEnt) : StoreEnt :=
  let va := BitVec.ofNat 64 (m.le o 8)
  let n := min 8 (m.le (o + 16) 1)
  let key := if va = e.va then e.key else match s.locate [] die part false va.toNat n 1 with
    | .at_ k _ => k
    | _ => e.key
  { e with va := va, key := key, data := m.bytes (o + 8) n }

/-- The store buffer as the record has it, in age order: an entry that software has added has no token, and takes one of the
numbers from `n` on; one whose size is 0 is none (R343, R346). -/
def State.storesFrom (s : State) (die part : Nat) (m : Memory) (o n : Nat) (sb : List StoreEnt) : List StoreEnt :=
  (List.range 16).filterMap fun k =>
    match sb[k]? with
    | some e => some (s.storeFrom die part m (o + 24 * k) e)
    | none =>
      if m.le (o + 24 * k + 16) 1 = 0 then none
      else
        let va := BitVec.ofNat 64 (m.le (o + 24 * k) 8)
        let key := match s.locate [] die part false va.toNat (min 8 (m.le (o + 24 * k + 16) 1)) 1 with
          | .at_ j _ => some j
          | _ => none
        key.map fun j => s.storeFrom die part m (o + 24 * k) ⟨n + k, 0, false, va, j, [], false⟩

/-- A sequencer from its record; EXEC has the lanes of the instance (R14). -/
def State.seqFrom (s : State) (die part : Nat) (cap : Lanes) (m : Memory) (o n : Nat) (ds : List DsEntry) (x : Seq) : Seq :=
  let pb := (List.range 8).foldl (fun a k => if m.le (o + 0x1F0 + k) 1 = 0 then a else a + 2 ^ k) 0
  let regs : Vector Word 64 := Vector.ofFn fun i =>
    if 1 ≤ i.val ∧ i.val ≤ 62 then BitVec.ofNat 64 (m.le (o + 8 * (i.val - 1)) 8) else x.s[i]
  let toks := (List.range 8).map fun k => if m.le (o + 0x1F8 + k) 1 = 0 then 0 else max 1 (x.toks.getD k 0)
  let pc := m.le (o + 0x3E0) 8
  { x with
    s := regs, p := BitVec.ofNat 8 pb ||| 1, toks := toks,
    q := (List.range 8).map fun n => m.wordsAt (o + 0x208 + 40 * n) (min 4 (m.le (o + 0x200 + 40 * n) 8)),
    frames := m.framesAt (o + 0x340) x.frames, xfer := m.xferAt o x.xfer, pc := pc, atEnd := x.atEnd && pc == x.pc
    pastEnd := x.pastEnd && pc == x.pc
    ds := ds, exec := m.lanesAt (o + 0x3F0) &&& cap, block := m.blockAt o x.block, atDrain := false,
    sb := s.storesFrom die part m (o + 0x400) n x.sb }

/-- An engine from its record. -/
def Lane.from (m : Memory) (o : Nat) (x : Lane) : Lane :=
  { x with
    store := m.region o 0x3_0800,
    shapes := (List.range 16).map fun k => (m.le (o + 0x3_0800 + 2 * k) 1, m.le (o + 0x3_0801 + 2 * k) 1),
    km := BitVec.allOnes 64 :: m.wordsAt (o + 0x3_0828) 7, e := m.wordsAt (o + 0x3_0860) 16, c := BitVec.ofNat 4 (m.le (o + 0x3_08E0) 1),
    status := BitVec.ofNat 5 (m.le (o + 0x3_08E8) 8) }

/-- A record of the fault ring. -/
def Memory.ringAt (m : Memory) (o : Nat) : RingRec :=
  let v := m.le o 8
  ⟨bits v 37 16, bits v 14 12, bits v 11 8, Cause.ofCode (bits v 7 0), BitVec.ofNat 64 (m.le (o + 8) 8)⟩

/-- A context from its image, its masks with the lanes it has (R14); what the image's flight area holds is kept aside (R345). -/
def State.gangFrom (s : State) (die : Nat) (m : Memory) (g : Gang) : Gang :=
  let ds := m.stackAt 0x100 (min 16 (m.le (0x200 + 0x3E8) 1))
  let part := g.info.part
  let cap := widthLanes g.info.width
  let q1 := if g.split then s.seqFrom die part cap m 0x800 (s.tkt + 16) (m.fragmentStack 0xD80 (m.le (0x800 + 0x3E8) 1) g.q1.ds) g.q1 else g.q1
  { g with
    gx := m.le 0x10 4, gy := m.le 0x14 4, gz := m.le 0x18 4, stage := m.le 0x1C 4,
    xmask := m.lanesAt 0x2A &&& cap, pmask := m.lanesAt 0x2C &&& cap, epres := m.lanesAt 0x2E &&& cap,
    cycle := m.le 0x38 8, lastBatch := BitVec.ofNat 16 (m.le 0x40 2), contpc := BitVec.ofNat 64 (m.le 0x48 8),
    trapCause := BitVec.ofNat 64 (m.le 0x50 8), trapPc := BitVec.ofNat 64 (m.le 0x58 8),
    trapInfo := BitVec.ofNat 64 (m.le 0x60 8), trapSlot := BitVec.ofNat 64 (m.le 0x68 8),
    ring := (List.range (min 8 (m.le 0x70 1 % 16))).map fun k => m.ringAt (0x80 + 16 * k), ovf := bit (m.le 0x70 1) 4,
    egReason := m.le 0x78 1,
    q0 := { s.seqFrom die part cap m 0x200 s.tkt ds g.q0 with pts := m.le 0x30 8 }, q1 := q1,
    held := g.held.map fun h =>
      { h with
        ds := m.stackAt 0xE00 (min 16 (m.le 0xF92 1)), frames := m.framesAt 0xF00 h.frames, exec := m.lanesAt 0xF90 &&& cap },
    lanes := g.lanes.zipIdx.map fun x =>
      if x.2 < g.info.width then Lane.from m (0x1000 + x.2 * 0x3_1000) x.1 else x.1 }

/-- The allocations of a saved context come back into the scratchpads of its place; one while a block does not translate. -/
def State.loadAlloc (s : State) (die : Nat) (p : Place) (g : Gang) : List (Nat × Nat × Nat) → Option State
  | [] => some s
  | x :: xs =>
    (s.blockAddr die p x.2.2 0).bind fun pa =>
      let n := min 4096 (g.info.spBytes - 4096 * x.2.1)
      ({ s with mem := s.mem.setRegion (g.localKey x.1 (4096 * x.2.1)) n (s.mem.region pa n) }).loadAlloc die p g xs

/-- A context that is back on a slot goes on with empty caches (R163, R342), a frame in restart form with nothing left popped
(R89); a mark for the endgame becomes its drain, at its drain point (R307). Of its die's present stretching it has missed the
cycles there have been. -/
def Gang.resume (g : Gang) (p : Place) (missed : Nat) : Gang :=
  let g := { g with
    place := p, frozen := false, closed := none, drain := .none, q0 := g.q0.goOn.shed, q1 := g.q1.goOn.shed, paths := [],
    slowed := missed }
  match g.egMark with
  | none => g
  | some r =>
    { g with
      drain := .endgame r, egMark := none, q0 := { g.q0 with atDrain := true }, q1 := { g.q1 with atDrain := true } }

/-- What had been published to a context by its program time stays published to it on the die it comes to (R171, R342). -/
def State.carryReach (s : State) (die t : Nat) : State :=
  { s with unseen := s.unseen.map fun x => if x.reach.any fun r => decide (r.2 ≤ t) then x.addReach t die else x }

/-- Bring a saved context back from memory onto a place of a die (R342). -/
def State.bringBack (s : State) (die : Nat) (sp : Nat × Nat) (g : Gang) : Option State :=
  (s.readBlocks die g.place (List.range g.info.imageBlocks.1)).bind fun m =>
    let h := (s.gangFrom die m g).resume (.run die sp.1 sp.2) (s.die die).health.span
    let t := (s.takeOver die sp.1 (g.info.cls == 0)).clearRegion die sp.1 sp.2 g.info
    (t.loadAlloc die g.place h g.info.allocPlan).map fun u =>
      { (u.carryReach die h.q0.pts).mapGangs fun x => if x.gid = g.gid then h else x with tkt := u.tkt + 32 }

/-- A context in shadow storage has been given up its slot for by a LIVE instance that still waits to be placed: the LIVE
launch has not come to its place, nor given up (R339, R341). -/
def State.awaited (s : State) (g : Gang) : Bool :=
  match g.drain with
  | .none => false
  | .preempt _ true => s.launches.any fun l => l.info.cls == 0 && (s.readyLaunch l ||
      s.gangs.any fun x => x.info.lid == l.info.lid && x.away)
  | _ => true

/-- A launch with work for a die ranks before that of a context in shadow storage and fits the die's free space: it comes first
(R289, R292). -/
def State.outranked (s : State) (die : Nat) (g : Gang) : Bool :=
  match s.launch g.info.lid with
  | none => false
  | some l => (s.candidates die).any fun x => (x.rank (s.now die)).before (l.rank (s.now die)) && (s.spaceFor die x.info).isSome

/-- CONTEXT_RESTORE: a context in shadow storage returns to its own half once the LIVE instances there have ended, with the rank of
its launch (R292, R341); one that is away returns when its launch is the first that fits (R292, R342). -/
def execContextRestore (gid die : Nat) (s : State) : Host.Outcome State Fault Refusal :=
  (match s.gangs.find? fun (g : Gang) => g.gid == gid && !g.stopping with
    | none => s
    | some g =>
      match g.place with
      | .shadow d sl h =>
        if !s.awaited g ∧ !s.outranked d g ∧ d = die ∧ (s.die d).slotOn sl ∧ !(s.onSlot d sl).any (fun x => x.place.running && x.info.cls == 0) then
          s.mapGangs fun x => if x.gid = gid then x.resume (.run d sl h) (s.die d).health.span else x
        else s
      | .spill _ _ | .image _ =>
        if !s.refereeOn die then s
        else match s.firstFit die with
          | none => s
          | some (l, sp) => if l.info.lid = g.info.lid then (s.bringBack die sp g).getD s else s
      | _ => s).next

/-! The trigger and the deadline (R305, R306, R310). -/

/-- The trigger of a launch passes on a die that has not passed it (R306). -/
def State.triggerOn (s : State) (die : Nat) (l : Launch) : State :=
  if l.trig.contains die then s else (s.passTrigger l.info.lid 1 false [die]).checkLaunch l.info.lid

/-- DEADLINE_TRIGGER (R306): passed once for each die. -/
def execDeadlineTrigger (die lid : Nat) (s : State) : Host.Outcome State Fault Refusal :=
  (match s.launch lid with
    | none => s
    | some l =>
      if l.stage ≠ LStage.waiting ∧ l.info.dline ∧ l.info.trigger ≤ s.now die ∧ die < 4 then s.triggerOn die l else s).next

/-- A context is one of a die for its deadline: it runs or is saved there; one in a SUSPEND image goes with its launch's
home. -/
def Gang.onDie (g : Gang) (die : Nat) : Bool :=
  match g.place with
  | .nowhere => false
  | .image _ => g.info.home == die
  | p => p.die == die

/-- The deadline stops a context that has not halted; in SYS mode it is stopped at TRET (R310). -/
def Gang.atDeadline (g : Gang) : Gang := if g.inSys then { g with drain := .stop } else g.stop

/-- DEADLINE_STOP (R310): every instance of the launch on the die that has not ended is stopped; the trigger comes no later
than the deadline. -/
def execDeadlineStop (die lid : Nat) (s : State) : Host.Outcome State Fault Refusal :=
  (match s.launch lid with
    | none => s
    | some l =>
      if l.stage = LStage.waiting ∨ !l.info.dline ∨ s.now die < l.info.deadline ∨ 4 ≤ die then s
      else
        let s := s.triggerOn die l
        let hit (g : Gang) : Bool :=
          g.info.lid == lid && g.onDie die && !g.stopping && !g.haltIssued && g.drain != Drain.stop
        if !s.gangs.any hit then s
        else
          let s := s.mapGangs fun g => if hit g then g.atDeadline else g
          s.updLaunch lid fun l => { l with tally := { l.tally with missed := true } }).next

/-! ENDGAME_ENTRY (R307 to R309). -/

/-- Every sequencer of a gang, which has not halted and none of which is ending, stands at its drain point, with nothing outstanding and no result in flight (R307, step 1). -/
def Gang.entryReady (g : Gang) : Bool :=
  g.place.running && !g.inSys && !g.frozen && !g.stopping && g.deferred.isEmpty && g.fl.isEmpty && g.quiet
    && !g.halted && g.q0.atDrain && g.q0.ends.isNone && (!g.split || g.q1.stopped)

/-- The state at endgame entry (R309). -/
def Gang.enterEndgame (g : Gang) (r : Nat) : Gang :=
  let q0 := { g.q0 with
    pc := g.info.egEntry, atEnd := false, frames := [], ds := [], exec := g.epres &&& ~~~ g.xmask, xfer := none,
    block := .none, atDrain := false, pastEnd := false }
  { g with egReason := r, q0 := q0, held := none, drain := .none, fences := [] }

/-- A block that is a drain point of a pre-emption wherever it stands (R148, R250, R298). -/
def Block.drains : Block → Bool
  | .barWait _ _ _ => true
  | .barSync _ _ _ _ => true
  | .sstep _ => true
  | .sigw _ _ _ _ => true
  | .fence _ _ _ => true
  | _ => false

/-- A block that the endgame's drain abandons (R307). -/
def Block.abandoned : Block → Bool
  | .wait _ => true
  | .idle _ => true
  | b => b.drains

/-- What the endgame's drain abandons is abandoned at once; what an abandoned FENCE was to publish is owed (R307). -/
def State.abandon (s : State) (q : Nat) : State :=
  let b := (s.g.seq q).block
  if s.g.inSys ∨ s.g.drainKind ≠ .discard ∨ !b.abandoned then s
  else
    let owed : List (Nat × BitVec 16) := match b with
      | .fence scope n _ => [(scope, n)]
      | _ => []
    s.wakeSlot.updG fun g => { g with fences := g.fences ++ owed }.updSeq q fun x => { x with block := .none }

/-- ENDGAME_ENTRY, by the steps of R307: once nothing is outstanding a fragment ends, its registers discarded and the gang's pts the
greater of the two; with an engine parked the gang traps, and comes here again after its handler (R308); what each abandoned
FENCE was to publish is published at its scope; and the entry state is set. -/
def State.entryStep (s : State) : State :=
  match s.g.drain with
  | .endgame r =>
    let s := (s.abandon 0).abandon 1
    if !s.g.entryReady then s
    else
    let s := if s.g.split then s.updG Gang.joinFragment else s
    if s.g.pmask ≠ 0 then s.converge s.g.info.egEntry true
    else
      let s := (s.g.fences.foldl (fun (s : State) f => s.publishBatches f.1 0 f.2) s).updG fun g => g.enterEndgame r
      s.updLaunch s.g.info.lid fun l => { l with tally := { l.tally with inEndgame := true } }
  | _ => s

/-- ENDGAME_ENTRY (R307). -/
def execEndgameEntry (gid : Nat) (s : State) : Host.Outcome State Fault Refusal := (s.withGang gid State.entryStep).next

end Sys2Proof.Machine
end

