-- ==== Sys2Proof/Machine/Ptp.lean ====
section
/-! DEFINITION. The time unit of die 0 as a PTP ordinary clock, and the dies that follow it (R300 to R304). -/

namespace Sys2Proof.Machine

/-! Time passing. -/

/-- What slewing takes off some time that passes, at most 500 ppm of it either way (R302). -/
def TimeUnit.slewStep (t : TimeUnit) (ns : Nat) : Int :=
  let most : Int := ((ns / 2000 : Nat) : Int)
  max (-most) (min most t.slew)

/-- Time passes: the count runs on, slewed while an offset is to be removed. -/
def TimeUnit.pass (t : TimeUnit) (ns : Nat) : TimeUnit :=
  let c := t.slewStep ns
  { t with now := ((t.now : Int) + ns - c).toNat, slew := t.slew - c }

/-- Change die 0's time unit; the other dies' units take over its time and what it knows of its master (R301, R303). A die 0 whose
boot has failed takes no message (R369). -/
def State.discipline (s : State) (f : TimeUnit → TimeUnit) : State :=
  if (s.die 0).failed then s else
  let t := f (s.die 0).tu
  let follow (d : Die) : Die :=
    { d with tu := { d.tu with
        now := t.now, synced := t.synced, hold := t.hold, selected := t.selected, offset := t.offset, slew := t.slew,
        twoStep := t.twoStep, utcOff := t.utcOff } }
  { s with dies := s.dies.zipIdx.map fun x => if x.2 = 0 then { x.1 with tu := t } else follow x.1 }

/-! Masters (R301, R302). -/

/-- One dataset comes before another: the comparison of IEEE 1588-2019, clause 9.3. Two of one grandmaster differ in the steps they
are removed from it alone; others are compared by their attributes, and at last by the grandmaster's identity. -/
def datasetBefore (a b : PtpDataset) : Bool :=
  let key (d : PtpDataset) : List Nat := [d.priority1, d.clockClass, d.accuracy, d.variance, d.priority2, d.identity]
  if a.identity = b.identity then decide (a.stepsRemoved < b.stepsRemoved) else decide (List.lex (key a) (key b) = true)

/-- The best of the masters that are known; of equal datasets that of the lower sender identity (R301). -/
def bestMaster (ms : List (Nat × Nat × PtpDataset)) : Option Nat :=
  (ms.foldl (fun (b : Option (Nat × Nat × PtpDataset)) m =>
    match b with
    | none => some m
    | some x =>
      if datasetBefore m.2.2 x.2.2 || !datasetBefore x.2.2 m.2.2 && decide (m.1 < x.1) then some m else some x) none).map (·.1)

/-- The masters whose Announce has been received within the receipt timeout. -/
def TimeUnit.fresh (t : TimeUnit) : List (Nat × Nat × PtpDataset) :=
  t.masters.filter fun m => decide (t.now ≤ m.2.1 + t.annto * m.2.2.interval)

/-- The master is selected anew; with none, the unit enters holdover and runs on at its frequency. -/
def TimeUnit.select (t : TimeUnit) : TimeUnit :=
  match bestMaster t.fresh with
  | some n =>
    if t.selected = some n then { t with hold := false }
    else { t with selected := some n, hold := false, syncMsg := none, t1 := none, t2 := none, t3 := none }
  | none => { t with selected := none, hold := true, slew := 0, syncMsg := none, t1 := none, t2 := none, t3 := none }

/-- A message of the unit's domain from its master. -/
def TimeUnit.hears (t : TimeUnit) (m : PtpMsg) : Bool := m.domain == t.domain && t.selected == some m.source

/-! Offsets (R302). -/

/-- The time is set in one step; the times at which masters were heard, and at which a Sync that waits for its Follow_Up came,
keep their distance from it. -/
def TimeUnit.stepBy (t : TimeUnit) (off : Int) : TimeUnit :=
  let at_ (n : Nat) : Nat := ((n : Int) - off).toNat
  { t with
    now := at_ t.now, slew := 0, masters := t.masters.map fun m => (m.1, at_ m.2.1, m.2.2)
    syncMsg := t.syncMsg.map fun y => { y with arrival := y.arrival - off } }

/-- An accepted offset, of this unit from its master: the first sets the time in one step; later ones are slewed, but for a
forward step of more than 10 ms. -/
def TimeUnit.accept (t : TimeUnit) (off : Int) : TimeUnit :=
  let t := { t with offset := off }
  if !t.synced then { t.stepBy off with synced := true }
  else if off < -10000000 then t.stepBy off
  else { t with slew := off }

/-! Messages (R301). -/

/-- A timestamp of the port, within 4 ns of the unit's time at the frame's reference point. -/
def TimeUnit.stamps (t : TimeUnit) (x : Int) : Bool := decide ((t.now : Int) ≤ x + 4) && decide (x ≤ t.now + 4)

/-- SYNC, as it arrives: one-step, or two-step with its time in the Follow_Up. -/
def execSync (m : PtpMsg) (s : State) : Host.Outcome State Fault Refusal :=
  (s.discipline fun t =>
    if !t.hears m ∨ !t.stamps m.arrival then t
    else if m.twoStep then { t with twoStep := true, syncMsg := some m }
    else { t with
      twoStep := false, syncMsg := none, t1 := some (m.stamp + m.correction), t2 := some m.arrival }).next

/-- FOLLOW_UP: the time of the two-step Sync it belongs to. -/
def execFollowUp (m : PtpMsg) (s : State) : Host.Outcome State Fault Refusal :=
  (s.discipline fun t =>
    match t.syncMsg with
    | none => t
    | some y =>
      if t.hears m ∧ y.seqId = m.seqId then
        { t with
          syncMsg := none, t1 := some (m.stamp + m.correction + y.correction), t2 := some y.arrival }
      else t).next

/-- A die that answers: one whose boot has failed answers the attestation request only (R369). -/
def State.answers (s : State) (die : Nat) : Bool := decide (die < s.dies.length) && !(s.die die).failed

/-- DELAY_REQ is sent, with its timestamp and the next sequence number; a die 0 whose boot has failed sends none (R369). -/
def execDelayReq (t3 : Nat) (s : State) : Host.Outcome State Fault Refusal :=
  (let t := (s.die 0).tu
   if s.answers 0 ∧ t.selected.isSome ∧ t.stamps t3 then
     let n := (t.reqSeq + 1) % 2 ^ 16
     (s.discipline fun t => { t with t3 := some t3, reqSeq := n }).emit (.delayReq t3 n)
   else s).next

/-- DELAY_RESP to the last Delay_Req, by its sequence number: with the last Sync's times it gives the mean path delay, and the
offset that the unit accepts. -/
def execDelayResp (m : PtpMsg) (s : State) : Host.Outcome State Fault Refusal :=
  (s.discipline fun t =>
    match t.t1, t.t2, t.t3 with
    | some t1, some t2, some t3 =>
      if t.hears m ∧ m.seqId = t.reqSeq then
        let t4 := m.stamp - m.correction
        let delay := ((t2 - t1) + (t4 - (t3 : Int))) / 2
        { t.accept (t2 - t1 - delay) with t1 := none, t2 := none, t3 := none }
      else t
    | _, _, _ => t).next

/-- ANNOUNCE: a master of the unit's domain is known from now on. DESIGN CHOICE: every Announce of the domain is accepted for UTCOFF
(R300, R304), whichever master sent it; the spec does not say which ones are. -/
def execAnnounce (m : PtpMsg) (d : PtpDataset) (s : State) : Host.Outcome State Fault Refusal :=
  (s.discipline fun t =>
    if m.domain ≠ t.domain then t
    else
      { t with
        utcOff := d.utcOffset, masters := (m.source, t.now, d) :: t.masters.filter fun x => x.1 != m.source }.select).next

/-- A message that the profile ignores. -/
def execIgnoredPtpMessage (_kind : Nat) (s : State) : Host.Outcome State Fault Refusal := s.next

/-- ANNOUNCE_RECEIPT_TIMEOUT: a master that has not announced itself within ANNTO of its intervals is known no more. -/
def execAnnounceReceiptTimeout (src : Nat) (s : State) : Host.Outcome State Fault Refusal :=
  (s.discipline fun t =>
    match t.masters.find? fun (x : Nat × Nat × PtpDataset) => x.1 == src with
    | none => t
    | some (_, heard, d) =>
      if heard + t.annto * d.interval ≤ t.now then { t with masters := t.masters.filter fun x => x.1 != src }.select
      else t).next

/-- TCFG_WRITE (R304), by the control node or a gang of a die that answers. -/
def execTcfgWrite (die : Nat) (v : BitVec 64) (s : State) : Host.Outcome State Fault Refusal :=
  (if s.answers die then s.sysWrite die 0x021 v else s).next

end Sys2Proof.Machine
end

