-- ==== Sys2Proof/Machine/Sha.lean ====
section
/-! DEFINITION. SHA-256 (R369), as FIPS 180-4 defines it. -/

namespace Sys2Proof.Machine

/-- A 32-bit word of the hash. -/
abbrev HWord := BitVec 32

/-- The first 64 primes. -/
def shaPrimes : List Nat :=
  [2, 3, 5, 7, 11, 13, 17, 19, 23, 29, 31, 37, 41, 43, 47, 53, 59, 61, 67, 71, 73, 79]
  ++ [83, 89, 97, 101, 103, 107, 109, 113, 127, 131, 137, 139, 149, 151, 157, 163, 167, 173, 179, 181, 191]
  ++ [193, 197, 199, 211, 223, 227, 229, 233, 239, 241, 251, 257, 263, 269, 271, 277, 281, 283, 293, 307, 311]

/-- The whole part of the k-th root of x, bit by bit: n bits are open below what has been found. -/
def wholeRoot (k x : Nat) : Nat → Nat → Nat
  | 0, r => r
  | n + 1, r => wholeRoot k x n (if (r + 2 ^ n) ^ k ≤ x then r + 2 ^ n else r)

/-- The first 32 bits of the fractional part of the k-th root of a number below 2^12. -/
def rootBits (k p : Nat) : HWord := BitVec.ofNat 32 (wholeRoot k (p * 2 ^ (32 * k)) 38 0)

/-- The constants of the 64 rounds: from the cube roots of the primes. -/
def shaK : List HWord := shaPrimes.map (rootBits 3)

/-- The initial hash value: from the square roots of the first eight primes. -/
def shaInit : List HWord := (shaPrimes.take 8).map (rootBits 2)

/-- Four bytes, the first most significant. -/
def bigWord (b : List Byte) : HWord := BitVec.ofNat 32 (leValue b.reverse)

/-- A message with its padding: a 1 bit, zeros, and its length in bits. -/
def shaPad (m : List Byte) : List Byte :=
  m ++ [0x80] ++ List.replicate ((119 - m.length % 64) % 64) 0 ++ (leBytes 8 (8 * m.length)).reverse

/-- The message schedule, the latest word first. -/
def shaSchedule : Nat → List HWord → List HWord
  | 0, w => w
  | n + 1, w =>
    let a := w.getD 1 0
    let b := w.getD 14 0
    let s1 := a.rotateRight 17 ^^^ a.rotateRight 19 ^^^ (a >>> 10)
    let s0 := b.rotateRight 7 ^^^ b.rotateRight 18 ^^^ (b >>> 3)
    shaSchedule n ((s1 + w.getD 6 0 + s0 + w.getD 15 0) :: w)

/-- One round on the working variables a to h. -/
def shaRound (v : List HWord) (kw : HWord) : List HWord :=
  let x (n : Nat) : HWord := v.getD n 0
  let e := x 4
  let a := x 0
  let t1 := x 7 + (e.rotateRight 6 ^^^ e.rotateRight 11 ^^^ e.rotateRight 25) + ((e &&& x 5) ^^^ (~~~e &&& x 6)) + kw
  let t2 := (a.rotateRight 2 ^^^ a.rotateRight 13 ^^^ a.rotateRight 22) + ((a &&& x 1) ^^^ (a &&& x 2) ^^^ (x 1 &&& x 2))
  [t1 + t2, a, x 1, x 2, x 3 + t1, e, x 5, x 6]

/-- One block of 64 bytes. -/
def shaBlock (h : List HWord) (b : List Byte) : List HWord :=
  let w := (List.range 16).map fun n => bigWord ((b.drop (4 * n)).take 4)
  let ws := (shaSchedule 48 w.reverse).reverse
  let v := (List.zipWith (· + ·) shaK ws).foldl shaRound h
  List.zipWith (· + ·) h v

/-- The SHA-256 hash of bytes: 32 bytes. -/
def sha256 (m : List Byte) : List Byte :=
  let p := shaPad m
  let h := (List.range (p.length / 64)).foldl (fun h n => shaBlock h ((p.drop (64 * n)).take 64)) shaInit
  (h.map fun w => (leBytes 4 w.toNat).reverse).flatten

end Sys2Proof.Machine
end

