-- ==== Sys2Proof/Machine/Device.lean ====
section
/-! DEFINITION. The device around the programs: the control node's windows (R363, R364), the fabric (R365), health and
power (R362, R366 to R368), boot, measurement and attestation (R369, R370). -/

namespace Sys2Proof.Machine

/-! The control node (R363, R364). -/

/-- KILL, through the register window (R344). -/
def execKill (die : Nat) (v : BitVec 64) (s : State) : Host.Outcome State Fault Refusal :=
  (if s.answers die then s.killWrite v else s).next

/-- NOTIFY_WRITE (R364): a value with a bit that must be zero changes nothing here; a gang's SYSW traps. -/
def execNotifyWrite (die n : Nat) (v : BitVec 64) (s : State) : Host.Outcome State Fault Refusal :=
  (if s.answers die ∧ n < 16 ∧ bits v.toNat 63 52 = 0 ∧ bits v.toNat 2 0 = 0 then s.sysWrite die (0x070 + n) v
    else s).next

/-- A system register without an event of its own, and that is no sequencer's (R326). -/
def plainReg (n : Nat) : Bool :=
  regAccess n == .rw && decide (0x010 ≤ n) && n != 0x021 && !(decide (0x070 ≤ n) && decide (n ≤ 0x07F))

/-- REGISTER_WRITE (R363). -/
def execRegisterWrite (die num : Nat) (v : BitVec 64) (s : State) : Host.Outcome State Fault Refusal :=
  (if (s.answers die ∨ isPortReg num) ∧ plainReg num then s.sysWrite die num v else s).next

/-- An access of the physical window: 1, 2, 4 or 8 bytes at a multiple of their number (R157, R363). -/
def windowAccess (pa n : Nat) : Bool := (n == 1 || n == 2 || n == 4 || n == 8) && pa % n == 0

/-- The control node reads a system register through the register window (R326, R363): one ordinary access, in its place
among the others. The number of a sequencer's own scratch register names none there, and a WO register reads 0. -/
def State.readRegister (s : State) (die num : Nat) : State :=
  if (s.answers die ∨ isPortReg num) ∧ regAccess num ≠ .absent ∧ 0x010 ≤ num then s.emit (.registerRead die num (s.sysRead [] die num)) else s

/-- PHYSICAL_WINDOW_WRITE (R363, R169). A line whose home die has failed is not answered for (R369). -/
def execPhysicalWindowWrite (pa n : Nat) (v : BitVec 64) (s : State) : Host.Outcome State Fault Refusal :=
  if !windowAccess pa n then s.next
  else if !s.backed pa then .fault (.windowUnbacked pa)
  else if !s.answers (homeDie pa) then s.next
  else (s.agentWrite pa (leBytes n v.toNat)).next

/-- PHYSICAL_WINDOW_READ (R363): an ordinary access at the home slice, after everything before it in the memory order
(R157). -/
def execPhysicalWindowRead (pa n : Nat) (s : State) : Host.Outcome State Fault Refusal :=
  if !windowAccess pa n then s.next
  else if !s.backed pa then .fault (.windowUnbacked pa)
  else if !s.answers (homeDie pa) then s.next
  else
    let t := (s.readAt s.topTime pa n).1
    (t.emit (.windowRead pa (s.agentBytes outside pa n))).next

/-! The fabric (R365). -/

/-- The die whose tables translate a port's addresses: the tables of all dies agree (R136). -/
def portDie (_port : Nat) : Nat := 0

/-- Write bytes that lie in pages that have been checked. -/
def State.storeSpan (s : State) (die part : Nat) : Nat → Nat → List Byte → State
  | 0, _, _ => s
  | k + 1, va, bs =>
    if bs.isEmpty then s
    else
      let m := 2 ^ 17 - va % 2 ^ 17
      match s.agentStore die part va (bs.take m) with
      | .ok t => t.storeSpan die part k (va + m) (bs.drop m)
      | .error _ => s

/-- Read bytes that lie in pages that have been checked, for a peer: the die translates, and what is published in the package
alone is not published to a peer (R172). -/
def State.readSpan (s : State) (die part : Nat) : Nat → Nat → Nat → List Byte
  | 0, _, _ => []
  | k + 1, va, n =>
    if n = 0 then []
    else
      let m := min n (2 ^ 17 - va % 2 ^ 17)
      match s.agentSpan die part va m 0 with
      | .ok l => (l.flatMap fun x => s.agentBytes outside x.1 x.2) ++ s.readSpan die part k (va + m) (n - m)
      | .error _ => []

/-- FABRIC_INBOUND (R365): translated in INPART and performed, or refused. A port that is not in service takes nothing, and one whose tables
are those of a die whose boot has failed gets no answer (R369). -/
def execFabricInbound (port addr : Nat) (put : Bool) (data : List (BitVec 8)) (s : State) :
    Host.Outcome State Fault Refusal :=
  (if !s.portOn port ∨ !s.answers (portDie port) then s
    else
      let part := (s.ports.getD port ⟨false, false, 0⟩).inpart
      let die := portDie port
      let n := data.length
      let k := n / 2 ^ 17 + 2
      if addr % 8 ≠ 0 ∨ n % 8 ≠ 0 ∨ n = 0 ∨ 2 ^ 24 < n then s.emit (.fabricReply port addr false [])
      else match s.spanCheck die part addr n (if put then 1 else 0) with
        | .wait => s
        | .stop _ => s.emit (.fabricReply port addr false [])
        | .ok =>
          if put then (s.storeSpan die part k addr data).emit (.fabricReply port addr true [])
          else (s.noteUse die part (pagesOf addr n 0)).emit (.fabricReply port addr true (s.readSpan die part k addr n))).next

/-- Change a port. -/
def State.updPort (s : State) (n : Nat) (f : Port → Port) : State := { s with ports := updAt n f s.ports }

/-- FABRIC_LINK_UP (R365). -/
def execFabricLinkUp (port : Nat) (s : State) : Host.Outcome State Fault Refusal :=
  (s.updPort port fun p => { p with up := true }).next

/-- The outstanding parts of the gang in focus whose port has left service fail. -/
def State.failParts (s : State) : State :=
  (s.g.parts.filter fun p => p.started && s.portLost p).foldl (fun s p => s.copyError p (p.peerErr 8)) s

/-- FABRIC_PORT_DOWN (R187, R365): the link is lost, and the outstanding parts of the port stop with PAGE 8. -/
def execFabricPortDown (port : Nat) (s : State) : Host.Outcome State Fault Refusal :=
  (let s := s.updPort port fun p => { p with up := false }
   s.gangs.foldl (fun s g => s.withGang g.gid State.failParts) s).next

/-! Health and power (R362, R366 to R368). -/

/-- Change a die's health. -/
def State.updHealth (s : State) (die : Nat) (f : Health → Health) : State :=
  s.updDie die fun d => { d with health := f d.health }

/-- The clock of a context runs while it is on a slot and not frozen by a pre-emption (R45, R340). -/
def Gang.clocked (g : Gang) : Bool := g.place.running && !g.frozen

/-- Whether a die's clock is stretched. -/
def Health.stretching (h : Health) : Bool := h.drooping || h.limiting

/-- A stretching begins, where none is under way: no cycle of it has run yet, and at most 2 come before the clock is stretched
(R367). -/
def State.startStretch (s : State) (die : Nat) : State :=
  if (s.die die).health.stretching then s
  else
    let (k, s) := s.takeFree
    let s := s.updHealth die fun h => { h with span := 0, lead := Config.stretchLead k % 3 }
    s.mapGangs fun g => if g.place.die = die then { g with slowed := 0 } else g

/-- DROOP_DETECT (R367). -/
def execDroopDetect (die : Nat) (s : State) : Host.Outcome State Fault Refusal :=
  ((s.startStretch die).updHealth die fun h => { h with droop := h.droop + 1, drooping := true }).next

/-- SUPPLY_RECOVERY (R367). -/
def execSupplyRecovery (die : Nat) (s : State) : Host.Outcome State Fault Refusal :=
  (s.updHealth die fun h => { h with drooping := false }).next

/-- POWER_LIMIT (R362): every die's clock is stretched until the average falls. -/
def execPowerLimit (on : Bool) (s : State) : Host.Outcome State Fault Refusal :=
  (let s := if on then (List.range s.dies.length).foldl State.startStretch s else s
   { s with dies := s.dies.map fun d => { d with health := { d.health with limiting := on } } } : State).next

/-- A cycle of a die's clock that the context in focus runs: the n-th since the clock's stretching began counts once in HSTRETCH,
whichever of the die's contexts runs it first, unless it comes before the detector has acted (R366, R367). -/
def State.dieCycle (s : State) : State :=
  let h := (s.die s.myDie).health
  if h.stretching then
    let n := s.g.slowed + 1
    let s := s.updG fun g => { g with slowed := n }
    if h.span < n then
      s.updHealth s.myDie fun h =>
        { h with span := n, stretch := (h.stretch + if h.lead < n then 1 else 0) % 2 ^ 64 }
    else s
  else s

/-- Time passes while a die's clock is stretched. It is longer than the detector needs, so every later cycle is stretched. Of a
die on which no context runs, no cycle is a step of the machine: at most as many count as a clock of 3.3 GHz has in the time, and
how many is open. -/
def State.stretch (s : State) (die ns : Nat) : State :=
  if (s.die die).health.stretching && ns != 0 then
    let s := s.updHealth die fun h => { h with lead := 0 }
    if s.gangs.any fun g => g.clocked && g.place.die == die then s
    else
      let (k, s) := s.takeFree
      s.updHealth die fun h => { h with stretch := (h.stretch + Config.stretched k % (33 * ns / 10 + 1)) % 2 ^ 64 }
  else s

/-- Time passes on every die. -/
def State.passTime (s : State) (ns : Nat) : State :=
  let s := { s with dies := s.dies.map fun d => { d with tu := d.tu.pass ns } }
  (List.range s.dies.length).foldl (fun s d => (s.noteBusy d).stretch d ns) s

/-- AGEING_SAMPLE (R366, R367). -/
def execAgeingSample (die khz ps : Nat) (s : State) : Host.Outcome State Fault Refusal :=
  (s.updHealth die fun h => { h with ageO := khz, ageP := ps }).next

/-- VOLTAGE_REPLAN (R367, R368): a new margin; below the firmware's floor at the highest permitted voltage a gang slot is
retired. -/
def execVoltageReplan (die mv : Nat) (retire : Option Nat) (s : State) : Host.Outcome State Fault Refusal :=
  (let s := s.updHealth die fun h => { h with vmarg := BitVec.ofNat 64 mv }
   match retire with
   | none => s
   | some n =>
     if (s.die die).health.ageP < Config.ageFloor ∧ Config.topVoltage die mv = true then
       s.updDie die fun d => { d with slots := updAt n (fun sl => { sl with retired := true }) d.slots }
     else s).next

/-! Boot, measurement, attestation (R369, R370). -/

/-- A list cut or filled with zeros to a length. -/
def fixLen (n : Nat) (l : List Byte) : List Byte := (l ++ List.replicate n 0).take n

/-- MEAS[k] := SHA-256(MEAS[k] || h). -/
def Die.extend (d : Die) (k : Nat) (h : List Byte) : Die := { d with meas := updAt k (fun m => sha256 (m ++ h)) d.meas }

/-- DIE_BOOT (R369), stage k: 0 measures the ROM's configuration and the fuses; 1 to 3 measure and verify an image. The die
is up after the last; a failed verification stops it. -/
def execDieBoot (die : Nat) (image signature : List (BitVec 8)) (k : Nat) (s : State) :
    Host.Outcome State Fault Refusal :=
  (s.updDie die fun d =>
    if d.failed ∨ d.bootStage ≠ k ∨ 3 < k then d
    else if k = 0 then { d.extend 0 (fixLen 32 (Config.fuseMeasure die)) with bootStage := 1 }
    else if Config.slhVerify die image signature then
      { d.extend k (sha256 image) with bootStage := k + 1, booted := decide (k = 3) }
    else { d with failed := true }).next

/-- MEAS_EXTEND (R369): a system software stage extends MEAS4 to MEAS7. -/
def execMeasExtend (die k : Nat) (h : List (BitVec 8)) (s : State) : Host.Outcome State Fault Refusal :=
  (if s.answers die ∧ 4 ≤ k ∧ k ≤ 7 ∧ h.length = 32 then s.updDie die fun d => d.extend k h else s).next

/-- A die's inventory as the reply lays it out. -/
def State.inventory (s : State) (die : Nat) : List Byte :=
  leBytes 2 (s.invSlotWord die).toNat ++ ((s.die die).inveng.map fun e => leBytes 2 e.toNat).flatten
    ++ [(s.die die).invmem] ++ leBytes 1 die ++ leBytes 4 0

/-- The reply of a die to a nonce (R370). -/
def State.attest (s : State) (die : Nat) (nonce : List Byte) : List Byte :=
  let d := s.die die
  let root := sha256 (d.meas.getD 0 [])
  let body := nonce ++ (d.meas).flatten ++ s.inventory die ++ fixLen 32 (Config.identityKey die root)
  body ++ fixLen 7856 (Config.slhSign die root body)

/-- ATTESTATION_REQUEST (R370): every die replies, one that has failed too. -/
def execAttestationRequest (nonce : List (BitVec 8)) (s : State) : Host.Outcome State Fault Refusal :=
  (if nonce.length ≠ 32 then s
    else (List.range s.dies.length).foldl (fun s d => s.emit (.attest d (s.attest d nonce))) s).next

end Sys2Proof.Machine
end

