-- ==== Sys2Proof/Machine/Cycle.lean ====
section
/-! DEFINITION. One cycle of a gang (R43, R45, R53, R80, R85, R88, R96, R249 to R252, R298, R307, R321): what each sequencer
that takes a turn does, from the causes it holds to the bundle it issues, and the clock. The meanings are a parameter. -/

namespace Sys2Proof.Machine

/-- What an instruction or event answers in a state. -/
abbrev Meaning := Instr → State → Host.Outcome State Fault Refusal

/-- Go on from an outcome that is a next state. -/
def andThen (o : Host.Outcome State Fault Refusal) (f : State → Host.Outcome State Fault Refusal) :
    Host.Outcome State Fault Refusal :=
  match o with
  | .next s => f s
  | .fault r => .fault r
  | .refused r => .refused r

/-- Bring a gang into focus, do something, and bring the earlier one back. -/
def State.inGang (s : State) (gid : Nat) (f : State → Host.Outcome State Fault Refusal) : Host.Outcome State Fault Refusal :=
  let t := s.focus gid
  if t.g.gid = gid then andThen (f t) fun u => .next (u.focus s.g.gid) else .next s

/-- Set the block of a sequencer. -/
def State.setBlock (s : State) (q : Nat) (b : Block) : State := s.updG fun g => g.updSeq q fun x => { x with block := b }

/-- A sequencer is released, and with it its gated slot is restarted (R252). -/
def State.release (s : State) (q : Nat) : State := s.wakeSlot.setBlock q .none

/-! Blocked sequencers. -/

/-- Acquire what a barrier's completion published to the gang in focus. -/
def State.acquireBar (s : State) (q : Nat) (e : Barrier) : State := s.acquire q (e.timeFor s.g.gid s.myDie)

/-- A blocking barrier instruction is rejected: it is over, and the gang holds the cause. -/
def State.rejectBar (s : State) (q : Nat) (e : Exc) : State := (s.release q).updG fun g => g.defer q 0 e

/-- BAR.WAIT at its entry (R249). DESIGN CHOICE: a BAR.WAIT, BAR.SYNC or SSTEP that returns at once when it reaches its entry has
blocked its sequencer for that cycle, so that a slot with nothing else to do has gated and restarts (R252); the spec does not say
whether it counts as blocked. -/
def State.pollBarWait (s : State) (q b : Nat) (phase : Bool) (seen : Option Nat) : State :=
  match s.launch s.g.info.lid with
  | none => s
  | some l =>
    let e := s.barrier l b
    match seen with
    | some k => if k < e.phases then (s.release q).acquireBar q e else s
    | none =>
      if s.g.olderBar q s.tkt then s
      else if !e.initd then s.rejectBar q (barErr b 1 0 0)
      else if e.phase != phase then (s.release q).acquireBar q e
      else s.setBlock q (.barWait b phase (some e.phases))

/-- BAR.SYNC at its entry (R249): the arrival once its batches are complete, then the phase it arrived in. -/
def State.pollBarSync (s : State) (q b cnt : Nat) (batch : BitVec 16) (seen : Option Nat) : State :=
  match s.launch s.g.info.lid with
  | none => s
  | some l =>
    let wait (s : State) (k : Nat) : State :=
      let e := s.barrier l b
      if k < e.phases then (s.release q).acquireBar q e else s
    match seen with
    | some k => wait s k
    | none =>
      if s.g.olderBar q s.tkt ∨ !s.g.batchesDone batch ∨ !s.g.inOrder q s.tkt then s
      else match s.arriveAt q b cnt batch with
        | .error e => s.rejectBar q e
        | .ok (s, e) => wait (s.setBlock q (.barSync b cnt batch (some e.phases))) e.phases

/-- Every instance of a launch has arrived at its superstep, with its copies at their targets and its accesses performed
(R251). -/
def State.stepPasses (s : State) (l : Launch) : Bool :=
  l.info.count ≤ l.taken &&
    (s.gangs.filter fun g => g.info.lid == l.info.lid && g.gid != 0).all fun g =>
      l.arrived.contains g.gid && g.inOrder 0 s.tkt && g.parts.all (·.kind.retrieval)

/-- A superstep passes: every copy of its participants is published at PKG scope, and the next superstep begins (R169, R171,
R251). What a PUT sends to a peer package has reached it by then. -/
def State.passStep (s : State) (l : Launch) : State :=
  let one (s : State) (g : Gang) : State :=
    s.withGang g.gid fun s =>
      let s := s.publishAll 2 0
      s.updLaunch l.info.lid fun l => { l with stime := max l.stime s.g.q0.pts }
  let s := (s.gangs.filter fun g => g.info.lid == l.info.lid && g.gid != 0).foldl one s
  s.updLaunch l.info.lid fun l => { l with step := l.step + 1, arrived := [] }

/-- SSTEP (R251): while a split runs it waits for the fragment; then it arrives, and it returns when its superstep has
passed. -/
def State.pollSstep (s : State) (q : Nat) (n : Option Nat) : State :=
  match s.launch s.g.info.lid with
  | none => s
  | some l =>
    let (s, l, n) := match n with
      | some n => (s, l, some n)
      | none =>
        if s.g.split then (s, l, none)
        else
          let arrive (l : Launch) : Launch := { l with arrived := s.g.gid :: l.arrived.filter (· != s.g.gid) }
          ((s.setBlock q (.sstep (some l.step))).updLaunch l.info.lid arrive, arrive l, some l.step)
    match n with
    | none => s
    | some n =>
      if n < l.step then (s.release q).acquire q l.stime
      else if s.stepPasses l then
        let s := s.passStep l
        match s.launch l.info.lid with
        | none => s
        | some l => (s.release q).acquire q l.stime
      else s

/-- SIGW reads its signal, once it is answered for (R298, R369). -/
def State.pollSigw (s : State) (q key : Nat) (d : BitVec 6) (cond : Nat) (w : Word) : State :=
  if !s.g.inOrder q s.tkt ∨ !s.reachesKey key then s
  else
    let (s, bs) := s.seen key 8
    let v := BitVec.ofNat 64 (leValue bs)
    if sigCond cond v w then
      let (s, p) := (s.release q).readAt (s.g.seq q).pts key 8
      (s.setPts q p).updG fun g => g.updSeq q fun x => x.setReg d v
    else s

/-- A request for the endgame that came while the gang was in SYS mode reaches it at TRET (R307, R325). -/
def Gang.takeMark (g : Gang) : Gang :=
  match g.egMark, g.drain, g.mode with
  | some r, .none, .user => { g with drain := .endgame r, egMark := none }
  | _, _, _ => g

/-- The bounds of a drain that was asked for in SYS mode run from TRET (R325). -/
def Gang.fromTret (g : Gang) (now : Nat) : Gang :=
  match g.mode, g.drain with
  | .user, .preempt _ live => { g with drain := .preempt now live }
  | .user, .suspend _ l => { g with drain := .suspend now l }
  | _, _ => g

/-- TRET waits for the SYS tokens and the handler's results (R329). -/
def State.pollTret (s : State) (q : Nat) : State :=
  if (s.g.seq q).systoks.all (· == 0) && s.g.fl.isEmpty then
    s.trapReturn.updG fun g => g.takeMark.fromTret (s.now s.myDie)
  else s

/-- A blocked sequencer looks at what it waits for. -/
def State.poll (s : State) (q : Nat) : State :=
  match (s.g.seq q).block with
  | .idle m => if (s.forSeq q).idleOver m then s.release q else s
  | .fence scope b n => if s.g.fenced q n b then (s.publishBatches scope q b).setBlock q .none else s
  | .barWait b ph seen => s.pollBarWait q b ph seen
  | .barSync b cnt batch seen => s.pollBarSync q b cnt batch seen
  | .sstep n => s.pollSstep q n
  | .sigw key d c w => s.pollSigw q key d c w
  | .tret => s.pollTret q
  | _ => s

/-! Drains (R88, R96, R250, R307). -/

/-- A block in which a boundary between bundles is a drain point. -/
def Block.boundary : Block → Bool
  | .none => true
  | .wait _ => true
  | .idle _ => true
  | .fragmentOver => true
  | _ => false

/-- A sequencer that a drain request has reached stops where it is at a drain point. Outside a loop none lies between a
transfer and its destination (R83). -/
def Seq.drain (x : Seq) : Seq :=
  let outer := x.frames.all (·.copied)
  if (x.block.boundary && x.xfer.isNone && outer) || (x.block.drains && (x.xfer.isNone || !outer)) then
    { x with atDrain := true }
  else x

/-! Issue (R41, R43). -/

/-- What keeps a bundle from issuing: nothing; a cycle's wait; a segment it needs; or the instruction that raises a cause or converges. -/
inductive Hurdle where
  | none
  | hold
  | needs (seg : Nat)
  | raises (slot : Nat) (i : Instr)
  deriving DecidableEq, Repr

/-- The first hurdle of a bundle: its wait mask, the units, tokens and rooms of its words, and then what their operands show, the
lowest slot first. DESIGN CHOICE: an instruction whose guard or stage is false takes no unit and waits for none, a DIV or REM for
the divider among them, and does not wait for the token it names to clear; R42, R48 and R113 do not say. -/
def State.hurdle (s : State) (b : Bundle) : Hurdle :=
  if !s.mayIssue b then .hold
  else
    let find (x : Nat × Instr) : Option Hurdle :=
      match (s.atSlot x.1).issueCheck x.2 with
      | .trap _ => some (.raises x.1 x.2)
      | .converge => some (.raises x.1 x.2)
      | .hold => some .hold
      | _ => ((s.atSlot x.1).needSeg x.2).map .needs
    ((s.onWords b).findSome? find).getD .none

/-- Start or ask for a segment that fetch or issue needs; its table entry may be refused (R105, R107). -/
def State.wantSeg (s : State) (q seg : Nat) (f : Exc → Host.Outcome State Fault Refusal) :
    Host.Outcome State Fault Refusal :=
  match (s.forSeq q).askSegment seg 7 with
  | .started t => .next t
  | .trap e => f e
  | _ => .next s

/-- The instructions whose word acts after the other words of its bundle, because it moves fetch away itself. -/
def actsLast (i : Instr) : Bool :=
  match i with
  | .trap _ | .tret _ | .endg _ | .cresume _ => true
  | _ => false

/-- Run the words of a bundle in slot order. -/
def runSlots (ex : Meaning) : List (Nat × Instr) → State → Host.Outcome State Fault Refusal
  | [], s => .next s
  | x :: xs, s => andThen (ex x.2 (s.atSlot x.1)) (runSlots ex xs)

/-- The segment that a bundle with K set names: NEXT of the segment that holds it, with its cause (R106, R107). -/
def State.overlay (s : State) (head : Nat) (b : Bundle) : Option Nat :=
  if !b.head.k then none
  else (s.frameOf (head / 2 ^ 16)).bind fun f => if f.next = 255 then none else some f.next

/-- The cause that K raises at issue: NEXT above 63, or a table entry that is refused. DESIGN CHOICE: the segment number has six
bits in TRAPINFO (R323), and of a NEXT above 63 it holds the low six. -/
def State.overlayFault (s : State) (seg : Nat) : Option Exc :=
  if 63 < seg then some (segExc 6 (seg % 64) 7)
  else match s.askSegment seg 7 with
    | .trap e => some e
    | _ => none

/-- A bundle issues: every word, K, and its finishing. -/
def State.issue (s : State) (ex : Meaning) (b : Bundle) (is_ : List (Nat × Instr)) : Host.Outcome State Fault Refusal :=
  let s := s.touchSegment (s.cur.head / 2 ^ 16)
  let s := match s.overlay s.cur.head b with
    | none => s
    | some seg => s.startFetch seg
  let s := { s with cur := { s.cur with
    act := s.g.activeNow s.cur.q, sp := s.seq.stages, ready := true, tkt0 := s.tkt, issued := true } }
  let run := is_.filter (fun x => !actsLast x.2) ++ is_.filter (fun x => actsLast x.2)
  if is_.isEmpty then ex .emptyBundle s
  else andThen (runSlots ex run s) fun s => .next (if s.cur.done then s else s.finish)

/-- A cycle in which nothing but the restart of its slot holds a bundle of the gang in focus: one of the 60 by which it comes later
than it would have without gating (R252). -/
def State.payWake (s : State) : State :=
  if s.cur.woke then s
  else { s.updG fun g => { g with wake := g.wake - 1 } with cur := { s.cur with woke := true } }

/-- The first bundle of a slot that was gated issues: the slot has started again, for every context there (R252). -/
def State.started (s : State) : State :=
  if s.gangs.any fun g => s.slotMate g && g.wake != 0 then
    s.mapGangs fun g => if s.slotMate g then { g with wake := 0 } else g
  else s

/-- A bundle that has been fetched comes up to issue in sequencer q. DESIGN CHOICE: one that waits for a segment which a call or a
skipped loop needs takes SEG at its own head where the segment's table entry is refused (`State.needSeg`). -/
def State.comeUp (s : State) (ex : Meaning) (q head next : Nat) (b : Bundle) : Host.Outcome State Fault Refusal :=
  let s := s.atBundle q head next b
  match s.decodeFault b with
  | some (_, _, _, none) => ex (.reservedEncoding s.g.gid q) s
  | some (_, slot, _, some i) => ex i (s.atSlot slot)
  | none =>
    match s.hurdle b with
    | .hold => .next s
    | .needs seg => s.wantSeg q seg fun e => .next (s.trapHere e)
    | .raises slot i => ex i (s.atSlot slot)
    | .none =>
      match (s.overlay head b).bind s.overlayFault with
      | some e => .next (s.trapHere e)
      | none => if s.g.wake ≠ 0 then .next s.payWake else s.started.issue ex b (b.words.filterMap slotInstr)

/-- A bundle whose head or line is refused comes up: the first fault of R40's table, which may be that of a word that stands in
the line. `before` is the state it was fetched in. -/
def State.lineTurn (s : State) (ex : Meaning) (b : Bundle) (before : State) : Host.Outcome State Fault Refusal :=
  match s.decodeFault b true with
  | some (_, slot, _, some i) => ex i (s.atSlot slot)
  | _ => ex (.reservedEncoding s.g.gid s.cur.q) before

/-- A sequencer that nothing keeps fetches, and its bundle comes up to issue (R80, R105). -/
def State.fetchTurn (s : State) (ex : Meaning) (q : Nat) : Host.Outcome State Fault Refusal :=
  match (s.forSeq q).fetch (s.g.seq q).pc (s.g.seq q).atEnd with
  | .absent seg => s.wantSeg q seg fun _ => ex (.fetchFault s.g.gid q) s
  | .fault _ _ => ex (.fetchFault s.g.gid q) s
  | .bad head b => (s.atBundle q head head b).lineTurn ex b s
  | .bundle head next b => s.comeUp ex q head next b

/-- A sequencer that may issue: what ends it, the drain, and then fetch (R96, R99). -/
def State.openTurn (s : State) (ex : Meaning) (q : Nat) : Host.Outcome State Fault Refusal :=
  let s := if s.g.inSys then s else s.updG fun g => g.updSeq q Seq.endNow
  let s :=
    if s.g.inSys ∨ s.g.drainKind = .none then s
    else s.updG fun g => g.updSeq q Seq.drain
  let x := s.g.seq q
  if !s.g.inSys ∧ s.g.drainKind ≠ .none ∧ x.atDrain then .next s
  else if x.block = .none then s.fetchTurn ex q
  else .next s

/-- The turn of sequencer q: a cause that is held, what the endgame abandons, a count that has run out, what it is blocked
in, and then fetch. -/
def State.turn (s : State) (ex : Meaning) (q : Nat) : Host.Outcome State Fault Refusal :=
  if !s.g.inSys ∧ !s.g.holdsCauses ∧ !s.g.deferred.isEmpty then ex (.deferredTrap s.g.gid) s
  else
    let s := s.abandon q
    andThen (if (s.g.seq q).block = .wait 0 then ex (.waitCountExpiry s.g.gid q) s else .next (s.poll q)) fun t =>
      if s.g.inSys && !t.g.inSys || !t.g.inSys && !t.g.deferred.isEmpty then .next t else t.openTurn ex q

/-- One turn each. -/
def turnsOf (ex : Meaning) : List Nat → State → Host.Outcome State Fault Refusal
  | [], s => .next s
  | q :: qs, s =>
    andThen (if s.g.turns.contains q && !s.g.stopping then s.turn ex q else .next s) (turnsOf ex qs)

/-- A cycle in which the gang in focus issues nothing, for a reason the spec does not measure. -/
def State.stallCycle (s : State) : State := if s.g.clocked then s.tick else s

/-- The clock at the end of a cycle that began in a mode. One that returned from a trap counts in USER mode only if a bundle had
issued in the cycle that the freeze stopped (R45, R329). DESIGN CHOICE: a cycle in which a bundle traps without issuing, and
nothing else issues, is no cycle of the gang's clock, so that the bundle issues with the shadows it had. -/
def State.endCycle (s : State) (began : Mode) : State :=
  match began with
  | .user => s.stallCycle
  | .sys h => if s.g.inSys || h.owed then s.stallCycle else s

/-- One cycle of the gang in focus: the fetches that wait, a turn of each sequencer, then the clock. A sequencer that enters
SYS mode keeps the other from its turn. -/
def State.gangCycle (s : State) (ex : Meaning) : Host.Outcome State Fault Refusal :=
  if !s.g.clocked then .next s
  else
    let s := { s with cur := { s.cur with issued := false, woke := false } }.updG fun g => { g with found := 0 }
    andThen (turnsOf ex s.g.turns s.dieCycle.serveWants) fun t =>
      .next { t.endCycle s.g.mode with cur := { t.cur with issued := false, woke := false } }

/-- The next context takes the focus. -/
def State.rotateFocus (s : State) : State :=
  match s.others with
  | [] => s
  | g :: gs => { s with g := g, others := gs ++ [s.g] }

/-- What the machine does next: the first thing the agenda holds, or else a cycle of the gang in focus. An instruction
comes from fetch alone, so the agenda gives none. -/
def State.stepWith (s : State) (ex : Meaning) : Host.Outcome State Fault Refusal :=
  match s.agenda with
  | [] => andThen (s.gangCycle ex) fun t => .next t.rotateFocus
  | m :: ms =>
    let s := { s with agenda := ms }
    match m with
    | .event i => if i.encode.isSome || i == .emptyBundle then .next s else ex i s.freshPick
    | .cycle gid => s.inGang gid fun s => s.gangCycle ex
    | .stall gid => .next (s.withGang gid fun s => if s.g.clocked then s.dieCycle.stallCycle else s)
    | .time ns => .next ((s.passTime ns).mapGangs fun g => { g with found := 0 })
    | .readRegister die num => .next (s.readRegister die num)

end Sys2Proof.Machine
end

