-- ==== Sys2Proof/Machine/Dispatch.lean ====
section
/-! DEFINITION. One arm for each instruction: its meaning. -/

namespace Sys2Proof.Machine

def exec (i : Instr) (s : State) : Host.Outcome State Fault Refusal :=
  match i with
  | .nop x => Sys2Proof.Machine.execNop x s
  | .add x => Sys2Proof.Machine.execAdd x s
  | .sub x => Sys2Proof.Machine.execSub x s
  | .addi x => Sys2Proof.Machine.execAddi x s
  | .mul x => Sys2Proof.Machine.execMul x s
  | .mulh x => Sys2Proof.Machine.execMulh x s
  | .div x => Sys2Proof.Machine.execDiv x s
  | .rem x => Sys2Proof.Machine.execRem x s
  | .andS x => Sys2Proof.Machine.execAndS x s
  | .orS x => Sys2Proof.Machine.execOrS x s
  | .xorS x => Sys2Proof.Machine.execXorS x s
  | .andn x => Sys2Proof.Machine.execAndn x s
  | .andi x => Sys2Proof.Machine.execAndi x s
  | .ori x => Sys2Proof.Machine.execOri x s
  | .xori x => Sys2Proof.Machine.execXori x s
  | .shl x => Sys2Proof.Machine.execShl x s
  | .shr x => Sys2Proof.Machine.execShr x s
  | .sar x => Sys2Proof.Machine.execSar x s
  | .shli x => Sys2Proof.Machine.execShli x s
  | .shri x => Sys2Proof.Machine.execShri x s
  | .sari x => Sys2Proof.Machine.execSari x s
  | .minS x => Sys2Proof.Machine.execMinS x s
  | .maxS x => Sys2Proof.Machine.execMaxS x s
  | .cmp x => Sys2Proof.Machine.execCmp x s
  | .cmpi x => Sys2Proof.Machine.execCmpi x s
  | .sel x => Sys2Proof.Machine.execSel x s
  | .mov x => Sys2Proof.Machine.execMov x s
  | .movi x => Sys2Proof.Machine.execMovi x s
  | .movhi x => Sys2Proof.Machine.execMovhi x s
  | .clz x => Sys2Proof.Machine.execClz x s
  | .popc x => Sys2Proof.Machine.execPopc x s
  | .bfx x => Sys2Proof.Machine.execBfx x s
  | .bfi x => Sys2Proof.Machine.execBfi x s
  | .addsh x => Sys2Proof.Machine.execAddsh x s
  | .plog x => Sys2Proof.Machine.execPlog x s
  | .qpop x => Sys2Proof.Machine.execQpop x s
  | .qpeek x => Sys2Proof.Machine.execQpeek x s
  | .qcnt x => Sys2Proof.Machine.execQcnt x s
  | .movs x => Sys2Proof.Machine.execMovs x s
  | .movsw x => Sys2Proof.Machine.execMovsw x s
  | .eget x => Sys2Proof.Machine.execEget x s
  | .eset x => Sys2Proof.Machine.execEset x s
  | .br x => Sys2Proof.Machine.execBr x s
  | .jmp x => Sys2Proof.Machine.execJmp x s
  | .jr x => Sys2Proof.Machine.execJr x s
  | .call x => Sys2Proof.Machine.execCall x s
  | .callr x => Sys2Proof.Machine.execCallr x s
  | .ret x => Sys2Proof.Machine.execRet x s
  | .loop x => Sys2Proof.Machine.execLoop x s
  | .loopi x => Sys2Proof.Machine.execLoopi x s
  | .lbrk x => Sys2Proof.Machine.execLbrk x s
  | .ifD x => Sys2Proof.Machine.execIfD x s
  | .split x => Sys2Proof.Machine.execSplit x s
  | .elseD x => Sys2Proof.Machine.execElseD x s
  | .join x => Sys2Proof.Machine.execJoin x s
  | .exit x => Sys2Proof.Machine.execExit x s
  | .halt x => Sys2Proof.Machine.execHalt x s
  | .wait x => Sys2Proof.Machine.execWait x s
  | .idle x => Sys2Proof.Machine.execIdle x s
  | .fchk x => Sys2Proof.Machine.execFchk x s
  | .segld x => Sys2Proof.Machine.execSegld x s
  | .ld x => Sys2Proof.Machine.execLd x s
  | .st x => Sys2Proof.Machine.execSt x s
  | .ldx x => Sys2Proof.Machine.execLdx x s
  | .stx x => Sys2Proof.Machine.execStx x s
  | .amo x => Sys2Proof.Machine.execAmo x s
  | .swap x => Sys2Proof.Machine.execSwap x s
  | .cas x => Sys2Proof.Machine.execCas x s
  | .incb x => Sys2Proof.Machine.execIncb x s
  | .fence x => Sys2Proof.Machine.execFence x s
  | .pref x => Sys2Proof.Machine.execPref x s
  | .barInit x => Sys2Proof.Machine.execBarInit x s
  | .barArrive x => Sys2Proof.Machine.execBarArrive x s
  | .barWait x => Sys2Proof.Machine.execBarWait x s
  | .barSync x => Sys2Proof.Machine.execBarSync x s
  | .barExpect x => Sys2Proof.Machine.execBarExpect x s
  | .barTest x => Sys2Proof.Machine.execBarTest x s
  | .sstep x => Sys2Proof.Machine.execSstep x s
  | .gballot x => Sys2Proof.Machine.execGballot x s
  | .gscan x => Sys2Proof.Machine.execGscan x s
  | .greds x => Sys2Proof.Machine.execGreds x s
  | .qpush x => Sys2Proof.Machine.execQpush x s
  | .qres x => Sys2Proof.Machine.execQres x s
  | .sig x => Sys2Proof.Machine.execSig x s
  | .sigw x => Sys2Proof.Machine.execSigw x s
  | .next x => Sys2Proof.Machine.execNext x s
  | .time x => Sys2Proof.Machine.execTime x s
  | .slack x => Sys2Proof.Machine.execSlack x s
  | .prog x => Sys2Proof.Machine.execProg x s
  | .vset x => Sys2Proof.Machine.execVset x s
  | .ecommit x => Sys2Proof.Machine.execEcommit x s
  | .endg x => Sys2Proof.Machine.execEndg x s
  | .rfam x => Sys2Proof.Machine.execRfam x s
  | .rstat x => Sys2Proof.Machine.execRstat x s
  | .rcur x => Sys2Proof.Machine.execRcur x s
  | .trap x => Sys2Proof.Machine.execTrap x s
  | .tret x => Sys2Proof.Machine.execTret x s
  | .sysr x => Sys2Proof.Machine.execSysr x s
  | .sysw x => Sys2Proof.Machine.execSysw x s
  | .tlbinv x => Sys2Proof.Machine.execTlbinv x s
  | .pgshare x => Sys2Proof.Machine.execPgshare x s
  | .pgunmap x => Sys2Proof.Machine.execPgunmap x s
  | .pgcow x => Sys2Proof.Machine.execPgcow x s
  | .cont x => Sys2Proof.Machine.execCont x s
  | .cresume x => Sys2Proof.Machine.execCresume x s
  | .parkrd x => Sys2Proof.Machine.execParkrd x s
  | .unpark x => Sys2Proof.Machine.execUnpark x s
  | .suspend x => Sys2Proof.Machine.execSuspend x s
  | .tadd x => Sys2Proof.Machine.execTadd x s
  | .tsub x => Sys2Proof.Machine.execTsub x s
  | .tmul x => Sys2Proof.Machine.execTmul x s
  | .tfma x => Sys2Proof.Machine.execTfma x s
  | .tfms x => Sys2Proof.Machine.execTfms x s
  | .tmin x => Sys2Proof.Machine.execTmin x s
  | .tmax x => Sys2Proof.Machine.execTmax x s
  | .tabs x => Sys2Proof.Machine.execTabs x s
  | .tneg x => Sys2Proof.Machine.execTneg x s
  | .tscl x => Sys2Proof.Machine.execTscl x s
  | .tadds x => Sys2Proof.Machine.execTadds x s
  | .texp2 x => Sys2Proof.Machine.execTexp2 x s
  | .tlog2 x => Sys2Proof.Machine.execTlog2 x s
  | .trcp x => Sys2Proof.Machine.execTrcp x s
  | .trsq x => Sys2Proof.Machine.execTrsq x s
  | .tsqrt x => Sys2Proof.Machine.execTsqrt x s
  | .ttanh x => Sys2Proof.Machine.execTtanh x s
  | .tsigm x => Sys2Proof.Machine.execTsigm x s
  | .tcmp x => Sys2Proof.Machine.execTcmp x s
  | .tsel x => Sys2Proof.Machine.execTsel x s
  | .tclamp x => Sys2Proof.Machine.execTclamp x s
  | .tiadd x => Sys2Proof.Machine.execTiadd x s
  | .tisub x => Sys2Proof.Machine.execTisub x s
  | .timul x => Sys2Proof.Machine.execTimul x s
  | .tand x => Sys2Proof.Machine.execTand x s
  | .tor x => Sys2Proof.Machine.execTor x s
  | .txor x => Sys2Proof.Machine.execTxor x s
  | .tshl x => Sys2Proof.Machine.execTshl x s
  | .tshr x => Sys2Proof.Machine.execTshr x s
  | .tsar x => Sys2Proof.Machine.execTsar x s
  | .timin x => Sys2Proof.Machine.execTimin x s
  | .timax x => Sys2Proof.Machine.execTimax x s
  | .tcvt x => Sys2Proof.Machine.execTcvt x s
  | .tmov x => Sys2Proof.Machine.execTmov x s
  | .tzero x => Sys2Proof.Machine.execTzero x s
  | .tiota x => Sys2Proof.Machine.execTiota x s
  | .ttrn x => Sys2Proof.Machine.execTtrn x s
  | .shape x => Sys2Proof.Machine.execShape x s
  | .shget x => Sys2Proof.Machine.execShget x s
  | .rrot x => Sys2Proof.Machine.execRrot x s
  | .rbc x => Sys2Proof.Machine.execRbc x s
  | .rred x => Sys2Proof.Machine.execRred x s
  | .crot x => Sys2Proof.Machine.execCrot x s
  | .cbc x => Sys2Proof.Machine.execCbc x s
  | .cred x => Sys2Proof.Machine.execCred x s
  | .kcmp x => Sys2Proof.Machine.execKcmp x s
  | .kop x => Sys2Proof.Machine.execKop x s
  | .kset x => Sys2Proof.Machine.execKset x s
  | .kcnt x => Sys2Proof.Machine.execKcnt x s
  | .eadd x => Sys2Proof.Machine.execEadd x s
  | .esub x => Sys2Proof.Machine.execEsub x s
  | .emul x => Sys2Proof.Machine.execEmul x s
  | .eand x => Sys2Proof.Machine.execEand x s
  | .eor x => Sys2Proof.Machine.execEor x s
  | .eshl x => Sys2Proof.Machine.execEshl x s
  | .eshr x => Sys2Proof.Machine.execEshr x s
  | .emin x => Sys2Proof.Machine.execEmin x s
  | .emax x => Sys2Proof.Machine.execEmax x s
  | .ecmp x => Sys2Proof.Machine.execEcmp x s
  | .esel x => Sys2Proof.Machine.execEsel x s
  | .eid x => Sys2Proof.Machine.execEid x s
  | .emovt x => Sys2Proof.Machine.execEmovt x s
  | .etmov x => Sys2Proof.Machine.execEtmov x s
  | .gshuf x => Sys2Proof.Machine.execGshuf x s
  | .gbc x => Sys2Proof.Machine.execGbc x s
  | .grot x => Sys2Proof.Machine.execGrot x s
  | .gred x => Sys2Proof.Machine.execGred x s
  | .gcomp x => Sys2Proof.Machine.execGcomp x s
  | .tld x => Sys2Proof.Machine.execTld x s
  | .tst x => Sys2Proof.Machine.execTst x s
  | .tldk x => Sys2Proof.Machine.execTldk x s
  | .lde x => Sys2Proof.Machine.execLde x s
  | .ste x => Sys2Proof.Machine.execSte x s
  | .mma x => Sys2Proof.Machine.execMma x s
  | .mmaz x => Sys2Proof.Machine.execMmaz x s
  | .mmat x => Sys2Proof.Machine.execMmat x s
  | .mmas x => Sys2Proof.Machine.execMmas x s
  | .prune x => Sys2Proof.Machine.execPrune x s
  | .sqd x => Sys2Proof.Machine.execSqd x s
  | .topk x => Sys2Proof.Machine.execTopk x s
  | .accrd x => Sys2Proof.Machine.execAccrd x s
  | .accwr x => Sys2Proof.Machine.execAccwr x s
  | .accz x => Sys2Proof.Machine.execAccz x s
  | .accscScale x => Sys2Proof.Machine.execAccscScale x s
  | .accscLoad x => Sys2Proof.Machine.execAccscLoad x s
  | .accscStore x => Sys2Proof.Machine.execAccscStore x s
  | .hsign x => Sys2Proof.Machine.execHsign x s
  | .hidx x => Sys2Proof.Machine.execHidx x s
  | .copy x => Sys2Proof.Machine.execCopy x s
  | .gather x => Sys2Proof.Machine.execGather x s
  | .scatter x => Sys2Proof.Machine.execScatter x s
  | .put x => Sys2Proof.Machine.execPut x s
  | .get x => Sys2Proof.Machine.execGet x s
  | .rgath x => Sys2Proof.Machine.execRgath x s
  | .fill x => Sys2Proof.Machine.execFill x s
  | .seal x => Sys2Proof.Machine.execSeal x s
  | .bwait x => Sys2Proof.Machine.execBwait x s
  | .preft x => Sys2Proof.Machine.execPreft x s
  | .pin x => Sys2Proof.Machine.execPin x s
  | .unpin x => Sys2Proof.Machine.execUnpin x s
  | .gld x => Sys2Proof.Machine.execGld x s
  | .gst x => Sys2Proof.Machine.execGst x s
  | .glde x => Sys2Proof.Machine.execGlde x s
  | .gste x => Sys2Proof.Machine.execGste x s
  | .gamo x => Sys2Proof.Machine.execGamo x s
  | .rprobe x => Sys2Proof.Machine.execRprobe x s
  | .rins x => Sys2Proof.Machine.execRins x s
  | .rdel x => Sys2Proof.Machine.execRdel x s
  | .rmig x => Sys2Proof.Machine.execRmig x s
  | .rret x => Sys2Proof.Machine.execRret x s
  | .emptyBundle => Sys2Proof.Machine.execEmptyBundle s
  | .waitCountExpiry gid q => Sys2Proof.Machine.execWaitCountExpiry gid q s
  | .deferredTrap gid => Sys2Proof.Machine.execDeferredTrap gid s
  | .fetchFault gid q => Sys2Proof.Machine.execFetchFault gid q s
  | .reservedEncoding gid q => Sys2Proof.Machine.execReservedEncoding gid q s
  | .fragmentEnd gid => Sys2Proof.Machine.execFragmentEnd gid s
  | .segmentFetchComplete die slot frame ecc => Sys2Proof.Machine.execSegmentFetchComplete die slot frame ecc s
  | .seqAccessComplete gid tkt how => Sys2Proof.Machine.execSeqAccessComplete gid tkt how s
  | .loadConfirm gid tkt => Sys2Proof.Machine.execLoadConfirm gid tkt s
  | .ptsAdvance gid n => Sys2Proof.Machine.execPtsAdvance gid n s
  | .tlbWalkComplete die part va acc => Sys2Proof.Machine.execTlbWalkComplete die part va acc s
  | .dispenserRefill die lid => Sys2Proof.Machine.execDispenserRefill die lid s
  | .watchdogExpiry gid => Sys2Proof.Machine.execWatchdogExpiry gid s
  | .copyPartStart gid pid => Sys2Proof.Machine.execCopyPartStart gid pid s
  | .copyPartComplete gid pid => Sys2Proof.Machine.execCopyPartComplete gid pid s
  | .copyCredit gid pid rd wr => Sys2Proof.Machine.execCopyCredit gid pid rd wr s
  | .peerAck gid pid ok data => Sys2Proof.Machine.execPeerAck gid pid ok data s
  | .engineAccessComplete gid tkt lane ecc => Sys2Proof.Machine.execEngineAccessComplete gid tkt lane ecc s
  | .retrievalPartComplete gid pid => Sys2Proof.Machine.execRetrievalPartComplete gid pid s
  | .resultLanding gid => Sys2Proof.Machine.execResultLanding gid s
  | .queuePoll die n => Sys2Proof.Machine.execQueuePoll die n s
  | .launchPacket die qd => Sys2Proof.Machine.execLaunchPacket die qd s
  | .launchAdmit die => Sys2Proof.Machine.execLaunchAdmit die s
  | .adaptationLoadComplete lid => Sys2Proof.Machine.execAdaptationLoadComplete lid s
  | .waitsigPacket die qd => Sys2Proof.Machine.execWaitsigPacket die qd s
  | .waitsigComplete die qd => Sys2Proof.Machine.execWaitsigComplete die qd s
  | .abortedPacket die qd => Sys2Proof.Machine.execAbortedPacket die qd s
  | .condPacket die qd => Sys2Proof.Machine.execCondPacket die qd s
  | .signalPacket die qd => Sys2Proof.Machine.execSignalPacket die qd s
  | .copyPacket die qd => Sys2Proof.Machine.execCopyPacket die qd s
  | .nopPacket die qd => Sys2Proof.Machine.execNopPacket die qd s
  | .prefetchPacket die qd => Sys2Proof.Machine.execPrefetchPacket die qd s
  | .packetComplete die qd idx => Sys2Proof.Machine.execPacketComplete die qd idx s
  | .instancePlace die => Sys2Proof.Machine.execInstancePlace die s
  | .contextSave gid => Sys2Proof.Machine.execContextSave gid s
  | .preemptFreeze gid => Sys2Proof.Machine.execPreemptFreeze gid s
  | .contextRestore gid die => Sys2Proof.Machine.execContextRestore gid die s
  | .instanceEnd gid => Sys2Proof.Machine.execInstanceEnd gid s
  | .stealRequest die => Sys2Proof.Machine.execStealRequest die s
  | .stealHandover die => Sys2Proof.Machine.execStealHandover die s
  | .deadlineTrigger die lid => Sys2Proof.Machine.execDeadlineTrigger die lid s
  | .endgameEntry gid => Sys2Proof.Machine.execEndgameEntry gid s
  | .deadlineStop die lid => Sys2Proof.Machine.execDeadlineStop die lid s
  | .sync m => Sys2Proof.Machine.execSync m s
  | .followUp m => Sys2Proof.Machine.execFollowUp m s
  | .delayReq t3 => Sys2Proof.Machine.execDelayReq t3 s
  | .delayResp m => Sys2Proof.Machine.execDelayResp m s
  | .announce m d => Sys2Proof.Machine.execAnnounce m d s
  | .ignoredPtpMessage kind => Sys2Proof.Machine.execIgnoredPtpMessage kind s
  | .announceReceiptTimeout src => Sys2Proof.Machine.execAnnounceReceiptTimeout src s
  | .tcfgWrite die v => Sys2Proof.Machine.execTcfgWrite die v s
  | .kill die v => Sys2Proof.Machine.execKill die v s
  | .notifyWrite die n v => Sys2Proof.Machine.execNotifyWrite die n v s
  | .registerWrite die num v => Sys2Proof.Machine.execRegisterWrite die num v s
  | .physicalWindowWrite pa n v => Sys2Proof.Machine.execPhysicalWindowWrite pa n v s
  | .physicalWindowRead pa n => Sys2Proof.Machine.execPhysicalWindowRead pa n s
  | .fabricInbound port addr put data => Sys2Proof.Machine.execFabricInbound port addr put data s
  | .fabricLinkUp port => Sys2Proof.Machine.execFabricLinkUp port s
  | .fabricPortDown port => Sys2Proof.Machine.execFabricPortDown port s
  | .droopDetect die => Sys2Proof.Machine.execDroopDetect die s
  | .powerLimit on => Sys2Proof.Machine.execPowerLimit on s
  | .ageingSample die khz ps => Sys2Proof.Machine.execAgeingSample die khz ps s
  | .voltageReplan die mv retire => Sys2Proof.Machine.execVoltageReplan die mv retire s
  | .soft gid sub lane => Sys2Proof.Machine.execSoft gid sub lane s
  | .correctedError die data => Sys2Proof.Machine.execCorrectedError die data s
  | .dieBoot die image signature k => Sys2Proof.Machine.execDieBoot die image signature k s
  | .measExtend die k h => Sys2Proof.Machine.execMeasExtend die k h s
  | .attestationRequest nonce => Sys2Proof.Machine.execAttestationRequest nonce s
  | .tokenedOperationComplete gid oid => Sys2Proof.Machine.execTokenedOperationComplete gid oid s
  | .supplyRecovery die => Sys2Proof.Machine.execSupplyRecovery die s

end Sys2Proof.Machine
end

