-- ==== Sys2Proof/Machine/Step.lean ====
section
/-! DEFINITION. One step of the machine, and the placing of an instruction where the next step fetches. -/

namespace Sys2Proof.Machine

/-- One step: what the agenda has next, or a cycle of the gang in focus, with the meanings of `exec`. -/
def step (s : State) : Host.Outcome State Fault Refusal := s.stepWith exec

/-- The slot whose word a decoder of the opcode table reads, by its kind: S, V1, M or X0. -/
def fetchSlot (w : Slotword) : Nat :=
  match decodeBare w with
  | some (.V, _) => 2
  | some (.M, _) => 3
  | some (.X, _) => 4
  | _ => 0

/-- The bytes of a bundle that holds one word. -/
def fetchBundle (w : Slotword) : Bundle := ⟨⟨BitVec.ofNat 16 (2 ^ fetchSlot w)⟩, [(fetchSlot w, w)], none⟩

/-- A segment of one line that begins with some bytes, resident in a frame, for a launch's image whose table is at 0. -/
def lineFrame (lid part : Nat) (bs : List Byte) : SegFrame :=
  { SegFrame.empty with lid := lid, tab := 0, part := part, seg := 0, len := 64, fill := .resident, data := Memory.put [] 0 bs }

/-- A sequencer that fetches at image address 0 next, with no token set. -/
def Seq.atZero (x : Seq) (m : Lanes) : Seq :=
  { x with pc := 0, atEnd := false, exec := m, xfer := none, block := .none, atDrain := false, toks := List.replicate 8 0 }

/-- A context that runs on slot 0 of die 0 in USER mode, and fetches at image address 0 next. -/
def Gang.atZero (g : Gang) : Gang :=
  { g with
    gid := max 1 g.gid, info := { g.info with segTab := 0 }, place := .run 0 0 0, epres := widthLanes g.info.width,
    xmask := 0, pmask := 0, q0 := g.q0.atZero (widthLanes g.info.width), split := false, mode := .user, deferred := [],
    drain := .none, frozen := false, stopping := false, wake := 0 }

/-- The instruction of a word stands where the next step fetches: in a bundle of its own at the start of a segment that is
resident in the slot of the gang in focus, which runs in USER mode. -/
def State.withFetchWord (s : State) (nbits w : Nat) : State :=
  let g := s.g.atZero
  let f := lineFrame g.info.lid g.info.part (fetchBundle (BitVec.ofNat 32 (w % 2 ^ nbits))).bytes
  let t := s.updDie 0 fun d => { d with slots := updAt 0 (fun sl => { sl with frames := [f] }) d.slots }
  { t with g := g, agenda := [] }

end Sys2Proof.Machine
end

