-- ==== Sys2Proof/Safety.lean ====
section
/-! DEFINITION. What claims are stated in: a safe run, the invariant of the machine, when an instruction takes effect, and
the states an instruction leaves when it only schedules a result, a transfer or a tokened operation. -/

namespace Sys2Proof.Machine

/-! Runs. -/

/-- A step that goes on: it neither faults nor is refused. -/
def Goes (s : State) : Prop := ∃ t, step s = .next t

/-- A number of steps from a state lead to another. -/
def Runs : Nat → State → State → Prop
  | 0, s, t => s = t
  | n + 1, s, t => ∃ u, step s = .next u ∧ Runs n u t

/-- A run that never stops within n steps. -/
def SafeFor (n : Nat) (s : State) : Prop := ∃ t, Runs n s t

/-- The invariant of the machine: memory keeps its canonical form. -/
def Inv (s : State) : Prop := s.mem.wf = true

/-! When an instruction takes effect (R31, R36, R40 to R43). -/

/-- The instruction stands in a slot of its kind, nothing at decode or issue stops or holds it, and its guard and its stage
let it execute. -/
def State.goes (s : State) (i : Instr) : Prop := s.slotOk i = true ∧ s.gate i = .go

/-- The instruction stands in a slot of its kind and a false guard, or a stage that does not run, suppresses it. -/
def State.skips (s : State) (i : Instr) : Prop := s.slotOk i = true ∧ s.gate i = .skip

/-- The gang of a number is one of the machine's contexts. -/
def State.hasGang (s : State) (gid : Nat) : Prop := (s.focus gid).g.gid = gid

/-! The states that instructions leave. Each of them changes what its name says and nothing else. -/

/-- More results are in flight. -/
def State.withFlight (s : State) (ls : List Landing) : State := { s with g := { s.g with fl := s.g.fl ++ ls } }

/-- A value is on its way to a scalar of the issuing sequencer, due some cycles after the issue. -/
def State.lands (s : State) (lat : Nat) (r : BitVec 6) (v : Word) : State := s.withFlight [⟨lat, [.sreg s.cur.q r v], false⟩]

/-- A value is on its way to an engine scalar of each active lane. -/
def State.landsLanes (s : State) (lat : Nat) (n : BitVec 4) (f : Nat → Word) : State :=
  s.withFlight [⟨lat, s.actives.map fun l => .esc l n (f l), false⟩]

/-- A transfer of the issuing sequencer is pending, with two delay bundles to come (R53, R83). -/
def State.pending (s : State) (dst : Option Nat) (mask : Option Lanes) (after : After) : State :=
  s.updSeq fun q => { q with xfer := some ⟨dst, 2, mask, after⟩ }

/-- The issuing sequencer is blocked. -/
def State.blocked (s : State) (b : Block) : State := s.updSeq fun q => { q with block := b }

/-- The divider of the issuing sequencer is busy for 20 cycles (R48, R113). -/
def State.divBusy (s : State) : State := s.updSeq fun q => { q with div := 20 }

/-- The translation caches of the issuing sequencer and of its die hold the entry an access came by, if there is one
(R140). -/
def State.filled (s : State) : Option TlbEnt → State
  | some e => s.fillTlbs e
  | none => s

/-- A tokened operation of the S slot is outstanding: its token is set, and it has taken the next number of the program
order (R42). -/
def State.withOp (s : State) (tok : BitVec 3) (d : BitVec 6) (k : OpKind) : State :=
  let t := s.raise tok
  { t with
    tkt := s.tkt + 1, g := { t.g with ops := t.g.ops ++ [⟨s.tkt, s.cur.q, s.g.inSys, tok, d, s.cur.slot, k⟩] } }

/-- An access of the issuing sequencer is outstanding at a key: its token is set, it has taken the next number of the
program order, and the gang has issued a load since pts last advanced (R42, R155, R162). -/
def State.withAcc (s : State) (tok : BitVec 3) (d : BitVec 6) (k : AccKind) (va : Word) (key size : Nat) (sign : Bool) :
    State :=
  let t := ((s.raise tok).updG fun g => { g with loaded := true }).updSeq fun q =>
    { q with acc := q.acc ++ [⟨s.tkt, s.cur.q, tok, s.g.inSys, k, d, va, key, size, sign, none, false⟩] }
  { t with tkt := s.tkt + 1 }

/-- A store of the issuing sequencer stands in its store buffer: its token is set, and it has taken the next number of the
program order (R42, R146). -/
def State.withStore (s : State) (tok : BitVec 3) (va : Word) (key : Nat) (bs : List Byte) : State :=
  let t := (s.raise tok).updSeq fun q => { q with sb := q.sb ++ [⟨s.tkt, tok, s.g.inSys, va, key, bs, true⟩] }
  { t with tkt := s.tkt + 1 }

/-- An engine part of a global access of each active lane is outstanding, with its token set once for each (R42, R149). -/
def State.withParts (s : State) (tok : BitVec 3) (f : Nat → EngKind × Word) : State :=
  let t := s.actives.foldl (fun t _ => t.raise tok) s
  let es := s.actives.map fun l => (⟨s.tkt, s.cur.q, tok, l, s.cur.slot, s.cur.head, (f l).1, (f l).2, []⟩ : EngAcc)
  { t with tkt := s.tkt + 1, g := { t.g with loaded := t.g.loaded || !es.isEmpty, eng := t.g.eng ++ es } }

/-! What every active lane does for itself (R54, R199). -/

/-- Each active lane has a result of its own in flight, once the instruction has taken its units. -/
def State.landsEach (s : State) (i : Instr) (f : Nat → Landing) : State := (s.occupy i).withFlight (s.actives.map f)

/-- Each active lane parks, where it meets a fault, or else does its part, in increasing order; what they read is what stood
at issue. -/
def State.eachOr (s : State) (i : Instr) (bad : Nat → Option (Cause × Word)) (part : Nat → State → State) : State :=
  s.actives.foldl (fun t l =>
    match bad l with
    | some (c, w) => t.park l c w
    | none => part l t) (s.occupy i)

/-- The active lanes have results in flight together. -/
def State.landsAll (s : State) (i : Instr) (lat : Nat) (f : Nat → Landed) : State :=
  (s.occupy i).withFlight [⟨lat, s.actives.map f, false⟩]

/-- The active lanes have results of an M-slot instruction in flight together. -/
def State.landsAllM (s : State) (i : Instr) (lat : Nat) (f : Nat → Landed) : State :=
  (s.occupy i).withFlight [⟨lat, s.actives.map f, true⟩]

/-- A result in flight as one of an M-slot instruction, which a drain waits for (R236). -/
def Landing.ofM (x : Landing) : Landing := { x with matrix := true }

/-- A result of whole rows for a tile, each at a row, with the shape the tile takes and the flags raised (R79, R199,
R201). -/
def tileRows (lat l : Nat) (td : BitVec 4) (rows : List (Nat × List Byte)) (shape : Option (Nat × Nat)) (fl : FlagBits) :
    Landing :=
  ⟨lat, .tile l td (rows.map fun r => (128 * r.1, r.2)) shape :: if fl = 0 then [] else [.flags l fl], false⟩

/-- A result of rows of elements of w bits for a tile, with the shape it takes, and the flags the elements raise (R79,
R199, R201). -/
def tileResult (lat w l : Nat) (td : BitVec 4) (rows : List (Nat × List (Nat × FlagBits))) (shape : Option (Nat × Nat)) :
    Landing :=
  tileRows lat l td (rows.map fun r => (r.1, bytesOfElems w (r.2.map (·.1)))) shape
    ((rows.map fun r => r.2.map (·.2)).flatten.foldl (· ||| ·) 0)

/-- The rows below n that row mask k of a lane selects (R198, R215). -/
def Lane.picked (e : Lane) (k : BitVec 3) (n : Nat) : List Nat := (List.range n).filter fun i => (e.mask k).getLsbD i

/-- An elementwise result: in each selected row of the operating shape of its sources, each element by its row and column
(R198, R199). -/
def State.elementwise (s : State) (lat w : Nat) (td : BitVec 4) (k : BitVec 3) (srcs : List (BitVec 4))
    (el : Lane → Nat → Nat → Nat × FlagBits) (l : Nat) : Landing :=
  let e := s.g.lane l
  let rows := (srcs.map e.rows).foldl min 64
  let bytes := (srcs.map e.rowBytes).foldl min 128
  tileResult lat w l td ((e.picked k rows).map fun i => (i, (List.range (bytes * 8 / w)).map (el e i))) (some (rows, bytes))

/-- Runs of words of an accumulator of a lane are in flight, each from its row and column on, with the flags they raise: a
result in flight that would land later gives up the words that are written here (R79, R221). -/
def State.landsWords (s : State) (lat l : Nat) (a : BitVec 2) (ws : List (Nat × Nat × List (Nat × FlagBits))) : State :=
  let rows := ws.map fun w => (256 * w.1 + 4 * w.2.1, bytesOfElems 32 (w.2.2.map (·.1)))
  let fl := (ws.map fun w => w.2.2.foldl (fun a b => a ||| b.2) 0).foldl (· ||| ·) 0
  let t : State := { s with g := { s.g with fl := s.g.fl.map fun x =>
    if lat < x.left then { x with what := x.what.map (Landed.yieldAcc l a rows) } else x } }
  t.withFlight [⟨lat, .acc l a rows :: if fl = 0 then [] else [.flags l fl], true⟩]

/-- A word of an FP32 accumulator after chunks of products (R76): each chunk is summed exactly and added with one
rounding to nearest even, and the flags of every step join. -/
def chunkSums (old n : Nat) (terms : Nat → List Formed) : Nat × FlagBits :=
  (List.range n).foldl (fun acc c =>
    let sum := sumFormed 0 ((.zero false, 0) :: terms c)
    let v := (decodeElem 0 false acc.1).add 0 sum.1
    let out := encodeF 0 0 v.1
    (out.1, acc.2 ||| sum.2 ||| v.2 ||| out.2)) (old, 0)

/-- The block of an X-slot operation in a lane: its local offset (R176). -/
def State.blockAt (s : State) (x : XF) (l : Nat) : Nat :=
  (s.operand x.a + (s.g.lane l).e.getD (x.b.extractLsb' 0 4).toNat 0).toNat

/-- A part of an X-slot operation of each active lane stands in the command queue, with its block of n bytes as read at
issue, and the token set once for each (R42, R175, R176). -/
def State.withXParts (s : State) (x : XF) (kind : PartKind) (n : Nat) : State :=
  let t := s.actives.foldl (fun t _ => t.raise x.tok) s
  let part (l : Nat) : Part :=
    ⟨16 * s.tkt + l, s.cur.q, x.tok, s.cur.slot, s.cur.head, l, kind, if x.bar = 31 then none else some x.bar.toNat,
      s.mem.bytes (s.g.localKey l (s.blockAt x l)) n, s.blockAt x l, none, false, [], [], 0, [], false,
        s.actives.length⟩
  { t with tkt := s.tkt + 1, g := { t.g with parts := t.g.parts ++ s.actives.map part } }

/-! Conditions, as R116 tables them. -/

/-- The condition of a number over two words. -/
def Cond116 (c : Nat) (a b : Word) : Prop :=
  match c with
  | 0 => a = b
  | 1 => a ≠ b
  | 2 => a.toInt < b.toInt
  | 3 => a.toInt ≤ b.toInt
  | 4 => a.toInt > b.toInt
  | 5 => a.toInt ≥ b.toInt
  | 6 => a.toNat < b.toNat
  | _ => a.toNat ≥ b.toNat

/-- The functions of PLOG, as R117 tables them. -/
def Fun117 (f : Nat) (x y : Prop) : Prop :=
  match f with
  | 0 => x ∧ y
  | 1 => x ∨ y
  | 2 => ¬(x ↔ y)
  | 3 => x ∧ ¬y
  | 4 => x ∨ ¬y
  | 5 => ¬(x ∧ y)
  | 6 => ¬(x ∨ y)
  | _ => (x ↔ y)

/-! The values of R66, as rational numbers. -/

/-- The real number of a finite value; a NaN and an infinity have none and give 0. -/
def Val.real : Val → ℚ
  | .num m e d => (m : ℚ) * 2 ^ e / d
  | _ => 0

/-- A zero or a real number. -/
def Val.Finite (v : Val) : Prop := v ≠ .nan ∧ ∀ n, v ≠ .inf n

/-- The real numbers of a value in the form the model builds: not zero, and over a denominator that is not zero. -/
def Val.Proper (v : Val) : Prop := ∀ m e d, v = .num m e d → m ≠ 0 ∧ d ≠ 0

/-- A value below zero, or the negative zero. -/
def Val.Minus (v : Val) : Prop := v.real < 0 ∨ v = .zero true ∨ v = .inf true

/-- The order of the values that are not NaN: the infinities outside the real numbers, and the zeros equal (R204). -/
def Val.Below (a b : Val) : Prop :=
  a ≠ .nan ∧ b ≠ .nan ∧
    ((a = .inf true ∧ b ≠ .inf true) ∨ (b = .inf false ∧ a ≠ .inf false) ∨ (a.Finite ∧ b.Finite ∧ a.real < b.real))

/-- The order of minima and maxima, in which -0 stands below +0 (R204). -/
def Val.Under (a b : Val) : Prop := a.Below b ∨ (a = .zero true ∧ b = .zero false)

/-- round() of a rational number, as R72 tables its modes. -/
def rounded (mode : Nat) (x : ℚ) : ℤ :=
  match mode with
  | 0 => if x - ⌊x⌋ < 1 / 2 then ⌊x⌋ else if 1 / 2 < x - ⌊x⌋ then ⌊x⌋ + 1 else if ⌊x⌋ % 2 = 0 then ⌊x⌋ else ⌊x⌋ + 1
  | 1 => if 0 ≤ x then ⌊x⌋ else ⌈x⌉
  | 2 => ⌊x⌋
  | _ => ⌈x⌉

end Sys2Proof.Machine
end

