-- ==== Sys2Proof/Certificates/Slice0/Obligations.lean ====
section
/-! DEFINITION. The statements about the machine, for the provers. Each says what a numbered rule of the spec says an
instruction or the machine does, or what follows from several. The results are stated as the exact next state, so that each
of them is also its instruction's frame: what the equation does not name is unchanged. -/

open Sys2Proof Sys2Proof.Machine

/-! ## The scalar class (R109 to R128). -/

/-- R112: the result of each integer arithmetic instruction is on its way to s[d], and nothing else has changed. The
latencies are those of R49. -/
def Obligations.ScalarArithmetic : Prop :=
  ∀ (x : SR) (y : SI) (s : State), let A := s.operand x.a; let B := s.operand x.b
    (s.goes (.add x) → exec (.add x) s = .next (s.lands 1 x.d (A + B))) ∧
    (s.goes (.sub x) → exec (.sub x) s = .next (s.lands 1 x.d (A - B))) ∧
    (s.goes (.addi y) → exec (.addi y) s = .next (s.lands 1 y.d (s.operand y.a + y.imm.signExtend 64))) ∧
    (s.goes (.addsh x) → exec (.addsh x) s = .next (s.lands 1 x.d (A + (B <<< x.f.toNat)))) ∧
    (s.goes (.mul x) → exec (.mul x) s = .next (s.lands 3 x.d (A * B))) ∧
    (s.goes (.mulh x) → x.f = 0 →
      exec (.mulh x) s = .next (s.lands 3 x.d (BitVec.ofInt 64 (A.toInt * B.toInt / 2 ^ 64)))) ∧
    (s.goes (.mulh x) → x.f = 1 →
      exec (.mulh x) s = .next (s.lands 3 x.d (BitVec.ofNat 64 (A.toNat * B.toNat / 2 ^ 64)))) ∧
    (s.goes (.mulh x) → x.f = 2 →
      exec (.mulh x) s = .next (s.lands 3 x.d (BitVec.ofInt 64 (A.toInt * (B.toNat : Int) / 2 ^ 64)))) ∧
    (s.goes (.minS x) → x.f = 0 →
      exec (.minS x) s = .next (s.lands 1 x.d (if A.toInt ≤ B.toInt then A else B))) ∧
    (s.goes (.minS x) → x.f = 1 →
      exec (.minS x) s = .next (s.lands 1 x.d (if A.toNat ≤ B.toNat then A else B))) ∧
    (s.goes (.maxS x) → x.f = 0 →
      exec (.maxS x) s = .next (s.lands 1 x.d (if A.toInt ≤ B.toInt then B else A))) ∧
    (s.goes (.maxS x) → x.f = 1 →
      exec (.maxS x) s = .next (s.lands 1 x.d (if A.toNat ≤ B.toNat then B else A)))

/-- R113: DIV and REM land a quotient that truncates and a remainder with the sign of the dividend; division by zero and
the signed overflow have fixed results; the divider is busy for 20 cycles. Nothing else changes. With a divisor other than zero,
quotient times divisor plus remainder is the dividend, the remainder is smaller than the divisor in magnitude, and a signed
remainder has the sign of the dividend. -/
def Obligations.Division : Prop :=
  ∀ (x : SR) (s : State), let A := s.operand x.a; let B := s.operand x.b
    let t := s.divBusy
    (s.goes (.div x) → x.f = 0 → exec (.div x) s = .next (t.lands 20 x.d
      (if B = 0 then BitVec.ofInt 64 (-1) else if A = BitVec.intMin 64 ∧ B = BitVec.ofInt 64 (-1) then BitVec.intMin 64
        else BitVec.ofInt 64 (A.toInt.tdiv B.toInt)))) ∧
    (s.goes (.div x) → x.f = 1 → exec (.div x) s = .next (t.lands 20 x.d
      (if B = 0 then BitVec.ofInt 64 (-1) else BitVec.ofNat 64 (A.toNat / B.toNat)))) ∧
    (s.goes (.rem x) → x.f = 0 → exec (.rem x) s = .next (t.lands 20 x.d
      (if B = 0 then A else if A = BitVec.intMin 64 ∧ B = BitVec.ofInt 64 (-1) then 0
        else BitVec.ofInt 64 (A.toInt.tmod B.toInt)))) ∧
    (s.goes (.rem x) → x.f = 1 → exec (.rem x) s = .next (t.lands 20 x.d
      (if B = 0 then A else BitVec.ofNat 64 (A.toNat % B.toNat)))) ∧
    (s.goes (.div x) → s.goes (.rem x) → x.f.toNat ≤ 1 → B ≠ 0 →
      ∃ q m : Word, exec (.div x) s = .next (t.lands 20 x.d q) ∧ exec (.rem x) s = .next (t.lands 20 x.d m) ∧
        q * B + m = A ∧ (x.f = 1 → m.toNat < B.toNat) ∧
        (x.f = 0 → m.toInt.natAbs < B.toInt.natAbs ∧ (m ≠ 0 → (m.toInt < 0 ↔ A.toInt < 0))))

/-- R114, R115: the logic instructions, whose immediate forms use imm, sign-extended; and the shifts, which take their count from
the low six bits of B, or of the immediate. -/
def Obligations.LogicAndShifts : Prop :=
  ∀ (x : SR) (y : SI) (s : State), let A := s.operand x.a; let B := s.operand x.b; let I := y.imm.signExtend 64
    let n := B.toNat % 64; let C := s.operand y.a; let k := y.imm.toNat % 64
    (s.goes (.andS x) → exec (.andS x) s = .next (s.lands 1 x.d (A &&& B))) ∧
    (s.goes (.orS x) → exec (.orS x) s = .next (s.lands 1 x.d (A ||| B))) ∧
    (s.goes (.xorS x) → exec (.xorS x) s = .next (s.lands 1 x.d (A ^^^ B))) ∧
    (s.goes (.andn x) → exec (.andn x) s = .next (s.lands 1 x.d (A &&& ~~~ B))) ∧
    (s.goes (.andi y) → exec (.andi y) s = .next (s.lands 1 y.d (s.operand y.a &&& I))) ∧
    (s.goes (.ori y) → exec (.ori y) s = .next (s.lands 1 y.d (s.operand y.a ||| I))) ∧
    (s.goes (.xori y) → exec (.xori y) s = .next (s.lands 1 y.d (s.operand y.a ^^^ I))) ∧
    (s.goes (.shl x) → exec (.shl x) s = .next (s.lands 1 x.d (BitVec.ofNat 64 (A.toNat * 2 ^ n)))) ∧
    (s.goes (.shr x) → exec (.shr x) s = .next (s.lands 1 x.d (BitVec.ofNat 64 (A.toNat / 2 ^ n)))) ∧
    (s.goes (.sar x) → exec (.sar x) s = .next (s.lands 1 x.d (BitVec.ofInt 64 (A.toInt / 2 ^ n)))) ∧
    (s.goes (.shli y) → exec (.shli y) s = .next (s.lands 1 y.d (BitVec.ofNat 64 (C.toNat * 2 ^ k)))) ∧
    (s.goes (.shri y) → exec (.shri y) s = .next (s.lands 1 y.d (BitVec.ofNat 64 (C.toNat / 2 ^ k)))) ∧
    (s.goes (.sari y) → exec (.sari y) s = .next (s.lands 1 y.d (BitVec.ofInt 64 (C.toInt / 2 ^ k))))

/-- R116, R117, R118: CMP and CMPI write one predicate, PLOG combines two, SEL chooses by one. A result for p0 is discarded, one
for another predicate lands in the ordinary one alone. p0 reads 1; while a frame is open p4 to p7 read as sp0 to sp3. -/
def Obligations.ComparesAndSelection : Prop :=
  ∀ (x : SR) (y : SI) (s : State),
    (s.goes (.cmp x) → ∃ v : Bool,
      exec (.cmp x) s = .next (s.withFlight [⟨1, [.pred s.cur.q (x.d.extractLsb' 0 3) v], false⟩]) ∧
      (v = true ↔ Cond116 (x.d.extractLsb' 3 3).toNat (s.operand x.a) (s.operand x.b))) ∧
    (s.goes (.cmpi y) → ∃ v : Bool,
      exec (.cmpi y) s = .next (s.withFlight [⟨1, [.pred s.cur.q (y.d.extractLsb' 0 3) v], false⟩]) ∧
      (v = true ↔ Cond116 (y.d.extractLsb' 3 3).toNat (s.operand y.a) (y.imm.signExtend 64))) ∧
    (s.goes (.plog x) → ∃ v : Bool,
      exec (.plog x) s = .next (s.withFlight [⟨1, [.pred s.cur.q (x.d.extractLsb' 0 3) v], false⟩]) ∧
      (v = true ↔ Fun117 x.f.toNat (s.readPred (x.a.extractLsb' 0 3) = true) (s.readPred (x.b.extractLsb' 0 3) = true))) ∧
    (s.goes (.sel x) →
      exec (.sel x) s = .next (s.lands 1 x.d (if s.readPred x.f then s.operand x.a else s.operand x.b))) ∧
    (∀ (q : Nat) (p p' : BitVec 3) (v : Bool), let t := s.landOne (.pred q p v)
      (t.g.seq q).pred p' = (if p' = p ∧ p ≠ 0 then v else (s.g.seq q).pred p') ∧
      (t.g.seq q).frames = (s.g.seq q).frames ∧ (p = 0 → t = s)) ∧
    s.readPred 0 = true ∧ (s.stages = none → ∀ p, s.readPred p = s.seq.pred p) ∧
    (∀ sp, s.stages = some sp → ∀ p : BitVec 3, s.readPred p = if p.toNat < 4 then s.seq.pred p else sp.getLsbD (p.toNat - 4))

/-- R111, R119, R120: MOV, which takes the literal sign-extended where a is 63, MOVI and MOVHI; the counts of leading zeros and of
ones; NOP, which nothing keeps from having no effect, whatever its guard. -/
def Obligations.MovesAndCounts : Prop :=
  ∀ (x : SR) (y : SI) (s : State), let A := s.operand x.a
    (s.goes (.mov x) → exec (.mov x) s = .next (s.lands 1 x.d A)) ∧
    (∀ v : BitVec 32, s.cur.lit = some v → s.operand 63 = v.signExtend 64) ∧
    (s.goes (.movi y) → exec (.movi y) s = .next (s.lands 1 y.d (y.imm.signExtend 64))) ∧
    (s.goes (.movhi y) → exec (.movhi y) s = .next (s.lands 1 y.d
      ((s.operand y.a + y.imm.signExtend 64).setWidth 32 ++ (s.seq.reg y.d).setWidth 32 : BitVec (32 + 32)))) ∧
    (s.goes (.clz x) → ∃ n ≤ 64, exec (.clz x) s = .next (s.lands 1 x.d (BitVec.ofNat 64 n)) ∧
      A.toNat < 2 ^ (64 - n) ∧ (n < 64 → 2 ^ (63 - n) ≤ A.toNat)) ∧
    (s.goes (.popc x) → exec (.popc x) s = .next (s.lands 1 x.d
      (BitVec.ofNat 64 ((List.range 64).countP fun k => A.getLsbD k)))) ∧
    (s.goes (.nop x) → exec (.nop x) s = .next s) ∧
    (s.slotOk (.nop x) = true → s.cur.ready = true → s.goes (.nop x))

/-- R121: BFX and BFI, bit by bit. -/
def Obligations.BitFields : Prop :=
  ∀ (x : SR) (s : State), let A := s.operand x.a; let B := (s.operand x.b).toNat
    let pos := B % 64; let w := min (B / 256 % 128) (64 - pos)
    (s.goes (.bfx x) → ∃ v : Word, exec (.bfx x) s = .next (s.lands 1 x.d v) ∧
      ∀ k < 64, v.getLsbD k =
        if k < w then A.getLsbD (pos + k) else decide (x.f = 1 ∧ 0 < w) && A.getLsbD (pos + w - 1)) ∧
    (s.goes (.bfi x) → ∃ v : Word, exec (.bfi x) s = .next (s.lands 1 x.d v) ∧
      ∀ k < 64, v.getLsbD k = if pos ≤ k ∧ k < pos + w then A.getLsbD (k - pos) else (s.seq.reg x.d).getLsbD k)

/-- R123: QPOP takes the head of a queue register at issue and lands it, QPEEK lands it and leaves it, QCNT lands the
count; a pop or a peek of an empty one takes no effect and traps with QUND. -/
def Obligations.QueueRegisters : Prop :=
  ∀ (x : SR) (s : State), let Q := s.seq.q.getD x.a.toNat []
    (s.goes (.qpop x) → ∀ v r, Q = v :: r → exec (.qpop x) s = .next
      ((s.lands 1 x.d v).updSeq fun q => { q with q := updAt x.a.toNat (fun _ => r) q.q })) ∧
    (s.goes (.qpeek x) → ∀ v r, Q = v :: r → exec (.qpeek x) s = .next (s.lands 1 x.d v)) ∧
    (s.goes (.qcnt x) → exec (.qcnt x) s = .next (s.lands 1 x.d (BitVec.ofNat 64 Q.length))) ∧
    (∀ i, i = .qpop x ∨ i = .qpeek x → s.cur.ready = false → s.staticFault i = none → s.enabled i = true → Q = [] →
      s.cur.slot = 0 → exec i s = .next ((s.trapEnter s.cur.q ⟨.qund, infoOf x.a.toNat 0, 0⟩ s.cur.head).doneHere))

/-- R124 to R128: what each special register reads as; MOVS lands one, sampled at issue; MOVSW of FLAGS clears flags of the
active lanes and writes TRAPPC; EGET reads an engine scalar of any present lane; ESET writes one of every active lane. Of the
lane masks, the bits above the width read 0. That SPBASE has offset 0 for a LIVE instance too, whose region may start
elsewhere, is the model's reading of R125 (log row 79). -/
def Obligations.SpecialRegisters : Prop :=
  ∀ (x : SR) (s : State), let A := s.operand x.a; let N : BitVec 4 := x.b.extractLsb' 0 4; let l := A.toNat % 16
    let n (k : Nat) : Word := BitVec.ofNat 64 k
    let m (k : Lanes) : Word := (k &&& if s.g.info.width = 8 then 0x00FF else 0xFFFF).setWidth 64
    ((List.range 0x1C).map s.special =
      [n s.g.gx, n s.g.gy, n s.g.gz, n s.g.stage, n s.g.info.nx, n s.g.info.ny, n s.g.info.nz, n s.g.info.width,
        n s.g.place.die, n s.g.place.slot, n s.g.place.half, m s.seq.exec, m s.g.xmask, m s.g.pmask, m s.g.epres,
        n (windowKey s.g.place.die s.g.place.slot (s.g.engine 0) 0), s.g.info.lrec, s.g.info.args, n s.g.cycle,
        n s.g.egReason, n s.seq.ds.length, (s.g.flagsOf s.act).setWidth 64, s.g.lastBatch.setWidth 64, s.g.contpc,
        s.g.trapCause, s.g.trapPc, s.g.trapInfo, s.g.trapSlot]) ∧
    (s.goes (.movs x) → exec (.movs x) s = .next (s.lands 2 x.d (s.special x.a.toNat))) ∧
    (s.goes (.movsw x) → x.d = 0x15 → exec (.movsw x) s = .next
      (s.withFlight [⟨2, s.actives.map fun l => .clearFlags l (A.extractLsb' 0 5), false⟩])) ∧
    (s.goes (.movsw x) → x.d = 0x19 → exec (.movsw x) s = .next (s.withFlight [⟨2, [.trappc A], false⟩])) ∧
    (s.goes (.eget x) → exec (.eget x) s = .next (s.lands 8 x.d
      (if l < s.g.info.width ∧ s.g.epres.getLsbD l then (s.g.lane l).e.getD N.toNat 0 else 0))) ∧
    (s.goes (.eset x) → exec (.eset x) s = .next (s.landsLanes 8 N fun _ => A))

/-! ## The control class (R80 to R107). -/

/-- R53, R80, R82, R83: each transfer leaves a destination pending, with two delay bundles to come, and a call that is taken
lands retaddr in its link. JMP starts the fetch of its destination's segment. The bundle of a transfer leaves it pending; the
first delay bundle that ends leaves one to come; with the second, fetch goes to the destination under the mask it was given, or
on from where it stands when it was not taken. A bundle with no transfer pending and no frame open goes on after itself. Where
neither delay bundle opens a loop, retaddr is the address after the second; or START of the innermost frame, where the second is
its END bundle and passes are left. That it is the address fetch goes on at, and not that of a bundle past a line-end head, is
the model's choice (log row 87). -/
def Obligations.Branches : Prop :=
  ∀ (x : SB) (y : SR) (s : State) (ret : Nat),
    let taken := s.readPred x.p ≠ (x.n == 1)
    let dst := ((s.cur.head : Int) + 2 * x.disp.toInt).toNat
    let A := (s.operand y.a).toNat
    let f := s.finish
    let past := ranOff s.cur.head s.cur.next
    (s.goes (.br x) → taken → exec (.br x) s = .next (s.pending (some dst) none .nothing)) ∧
    (s.goes (.br x) → ¬taken → exec (.br x) s = .next (s.pending none none .nothing)) ∧
    (s.goes (.jmp x) → exec (.jmp x) s = .next ((s.startFetch (dst / 2 ^ 16)).pending (some dst) none .nothing)) ∧
    (s.goes (.jr y) → exec (.jr y) s = .next (s.pending (some A) none .nothing)) ∧
    (s.goes (.call x) → taken → s.retAddr = .ok ret →
      exec (.call x) s = .next ((s.lands 1 62 (BitVec.ofNat 64 ret)).pending (some dst) none .nothing)) ∧
    (s.goes (.call x) → ¬taken → exec (.call x) s = .next (s.pending none none .nothing)) ∧
    (s.goes (.callr y) → s.retAddr = .ok ret →
      exec (.callr y) s = .next ((s.lands 1 y.d (BitVec.ofNat 64 ret)).pending (some A) none .nothing)) ∧
    (s.goes (.ret y) → exec (.ret y) s = .next (s.pending (some A) none .nothing)) ∧
    (∀ t, s.seq.xfer = some t → s.cur.delay = false → f.seq.xfer = some t) ∧
    (∀ t, s.seq.xfer = some t → s.cur.delay = true → 2 ≤ t.left → f.seq.xfer = some { t with left := t.left - 1 }) ∧
    (∀ d m, s.seq.xfer = some ⟨some d, 1, m, .nothing⟩ → s.cur.delay = true →
      f.seq.pc = d ∧ f.seq.atEnd = false ∧ f.seq.exec = m.getD s.seq.exec ∧ f.seq.xfer = none ∧ f.seq.s = s.seq.s ∧
      f.seq.p = s.seq.p ∧ f.seq.ds = s.seq.ds ∧ f.seq.block = s.seq.block ∧ f.mem = s.mem) ∧
    (∀ m, s.seq.xfer = some ⟨none, 1, m, .nothing⟩ → s.cur.delay = true → s.seq.frames = [] →
      f.seq = { s.seq with pc := s.cur.next, atEnd := past, pastEnd := false, exec := m.getD s.seq.exec, xfer := none }) ∧
    (s.seq.xfer = none → s.seq.frames = [] → f.seq = { s.seq with pc := s.cur.next, atEnd := past, pastEnd := false } ∧
      f.cur.done = true ∧ f.mem = s.mem) ∧
    (∀ h n b h' n' b', s.fetch s.cur.next past = .bundle h n b → s.fetch n (ranOff h n) = .bundle h' n' b' →
      let plain (c : Bundle) : Prop := ∀ w ∈ c.words, w.1 = 0 → ∀ j, decodeWord (slotKindOf w.1) w.2 = .ok j →
        (∀ r, j ≠ .loop r) ∧ ∀ r, j ≠ .loopi r
      plain b → plain b' →
      (s.seq.frames = [] → s.retAddr = .ok n') ∧
      (∀ f, s.g.mode = .user → s.g.drain = .none → s.seq.xfer = none → s.seq.frames = [f] → f.copied = false →
        f.neff = f.n → 0 < f.n → f.fin = h' → h' ≠ s.cur.head → h' ≠ h →
        (f.j + 1 < f.n + f.s - 1 → s.retAddr = .ok f.start) ∧ (f.n + f.s - 1 ≤ f.j + 1 → s.retAddr = .ok n')))

/-- R84 to R89: LOOP and LOOPI open a frame, with N and S, that starts at the bundle after them and ends at the END bundle;
with a count of 0 they open none, and fetch goes on after the END bundle. LBRK that is taken pops the frame that was innermost
at its issue when it comes to its destination, and leaves those that its delay bundles have opened. The END bundle of the innermost frame goes back to START for the next pass, and closes the frame after
NEFF + S - 1 passes; a drain request lowers NEFF to the pass it finds, and the gang is at its drain point when the frame exits
so, with the frame kept as N - NEFF passes to restart (R89). That an enclosing frame with the same END then still owes its END
step is the model's choice (log row 107). While a frame is open p4 to p7 read as its stage predicates. -/
def Obligations.Loops : Prop :=
  ∀ (x : SR) (y : SI) (z : SB) (s : State) (endHead after : Nat) (b : Bundle),
    let N := (s.operand x.a).toNat % 2 ^ 32
    let fin := ((s.cur.head : Int) + 2 * (s.operand x.b).toInt).toNat
    let fin' := ((s.cur.head : Int) + 2 * (s.operand y.a).toInt).toNat
    let dst := ((s.cur.head : Int) + 2 * z.disp.toInt).toNat
    let u := s.finish.seq
    let opens (i : Instr) (fin n stages : Nat) : Prop := ∃ start, exec i s = .next (s.updSeq fun q =>
        { q with frames := ⟨start, fin, n, n, 0, stages, false⟩ :: q.frames }) ∧
      ∀ h a c, s.fetch s.cur.next (ranOff s.cur.head s.cur.next) = .bundle h a c → start = h
    (s.goes (.loop x) → N ≠ 0 → opens (.loop x) fin N (x.d.toNat % 4 + 1)) ∧
    (s.goes (.loop x) → N = 0 → s.fetch fin false = .bundle endHead after b →
      exec (.loop x) s = .next (s.finishWith after (ranOff endHead after))) ∧
    (s.goes (.loopi y) → y.imm ≠ 0 → opens (.loopi y) fin' y.imm.toNat (y.d.toNat % 4 + 1)) ∧
    (s.goes (.loopi y) → y.imm = 0 → s.fetch fin' false = .bundle endHead after b →
      exec (.loopi y) s = .next (s.finishWith after (ranOff endHead after))) ∧
    (s.goes (.lbrk z) → s.readPred z.p ≠ (z.n == 1) →
      exec (.lbrk z) s = .next (s.pending (some dst) none (.popLoop s.seq.frames.length))) ∧
    (s.goes (.lbrk z) → s.readPred z.p = (z.n == 1) → exec (.lbrk z) s = .next (s.pending none none .nothing)) ∧
    (∀ d opened f fs, s.seq.xfer = some ⟨some d, 1, none, .popLoop (fs.length + 1)⟩ → s.cur.delay = true → s.g.mode = .user →
      s.seq.frames = opened ++ f :: fs → (∀ g, opened.head? = some g → g.fin ≠ s.cur.head) →
      u.frames = opened ++ fs ∧ u.pc = d ∧ u.xfer = none) ∧
    (∀ f fs, s.g.mode = .user → s.seq.xfer = none → s.seq.frames = f :: fs → f.copied = false →
      (f.fin ≠ s.cur.head → u.frames = f :: fs ∧ u.pc = s.cur.next) ∧
      (f.fin = s.cur.head → s.g.drain = .none → f.neff = f.n →
        (f.j + 1 < f.neff + f.s - 1 → u.frames = { f with j := f.j + 1 } :: fs ∧ u.pc = f.start) ∧
        (f.neff + f.s - 1 ≤ f.j + 1 → (∀ g ∈ fs, g.fin ≠ s.cur.head) → u.frames = fs ∧ u.pc = s.cur.next)) ∧
      (f.fin = s.cur.head → ∀ since live, s.g.drain = .preempt since live → let e := min f.neff (f.j + 1)
        (f.j + 1 < e + f.s - 1 → u.frames = { f with neff := e, j := f.j + 1 } :: fs ∧ u.pc = f.start ∧
          u.atDrain = s.seq.atDrain) ∧
        (e + f.s - 1 ≤ f.j + 1 → u.atDrain = true ∧
          u.frames = { f with n := f.n - e, neff := f.n - e, j := 0 } :: fs))) ∧
    (s.cur.ready = false → (s.seq.frames = [] → ∀ n, s.readPred n = s.seq.pred n) ∧
      ∀ f fs, s.seq.frames = f :: fs → (∀ n, n.toNat < 4 → s.readPred n = s.seq.pred n) ∧
        ∀ k < 4, s.readPred (BitVec.ofNat 3 (4 + k)) = decide (k < f.s ∧ k ≤ f.j ∧ f.j - k < f.neff))

/-- R92, R93, R94, R96: IF pushes an entry with the lanes that take the else side and EXEC as it was, and the then side, or the
else side alone, or nothing runs; ELSE goes to JOINPC or on with the else side; JOIN pops and restores EXEC; EXIT retires
the active lanes and goes on with the other side, at JOINPC, or ends the sequencer. A SPLIT that does not split the gang is an
IF; a JOIN that finds the entry of a running split waits, and changes nothing. A JOIN or ELSE that finds a fragment's base entry, or
an EXIT of a fragment, ends it after its delay bundles: its sequencer issues no more, and once its tokens are clear and its
stores performed the gang is not split, its pts is the greater of the two, and the spare sequencer is as at the start. -/
def Obligations.Divergence : Prop :=
  ∀ (x : SB) (y : SR) (s : State), ∃ T : Lanes,
    let E := s.act &&& ~~~ T
    let elsePc := ((s.cur.head : Int) + 2 * x.disp.toInt).toNat
    let joinPc := match s.cur.lit with
      | some w => ((s.cur.head : Int) + 2 * w.toInt).toNat
      | none => elsePc
    let push (phase : Bool) := s.pushDs ⟨elsePc, joinPc, E, s.seq.exec, phase, 0⟩
    let retired := s.updG fun g => { g with xmask := g.xmask ||| s.act }
    let more := retired.g
    (∀ l < 16, T.getLsbD l = (s.act.getLsbD l &&
      ((x.p == 0 || (s.g.lane l).c.getLsbD (x.p.toNat - 1)) != (x.n == 1)))) ∧
    (s.goes (.ifD x) → T ≠ 0 → exec (.ifD x) s = .next ((push false).pending none (some T) .nothing)) ∧
    (s.goes (.ifD x) → T = 0 → E ≠ 0 → exec (.ifD x) s = .next ((push true).pending (some elsePc) (some E) .nothing)) ∧
    (s.goes (.ifD x) → T = 0 → E = 0 → exec (.ifD x) s = .next ((push false).pending (some joinPc) none .nothing)) ∧
    (s.goes (.split x) → ¬(s.g.info.width = 16 ∧ T ≠ 0 ∧ E ≠ 0 ∧ s.g.split = false ∧ s.cur.q = 0) → T ≠ 0 →
      exec (.split x) s = .next ((push false).pending none (some T) .nothing)) ∧
    (s.goes (.split x) → T = 0 → E ≠ 0 →
      exec (.split x) s = .next ((push true).pending (some elsePc) (some E) .nothing)) ∧
    (s.goes (.split x) → T = 0 → E = 0 → exec (.split x) s = .next ((push false).pending (some joinPc) none .nothing)) ∧
    (∀ e r, s.seq.ds = e :: r →
      let m := e.emask &&& ~~~ s.g.xmask &&& ~~~ s.g.pmask
      let m' := e.emask &&& ~~~ more.xmask &&& ~~~ more.pmask
      (s.goes (.elseD x) → e.kind = 0 → m = 0 → exec (.elseD x) s = .next (s.pending (some e.joinPc) none .nothing)) ∧
      (s.goes (.elseD x) → e.kind = 0 → m ≠ 0 → exec (.elseD x) s = .next
        ((s.updSeq fun q => { q with ds := { e with phase := true } :: r }).pending none (some m) .nothing)) ∧
      (s.goes (.elseD x) → e.kind = 1 → exec (.elseD x) s = .next (s.pending (some e.joinPc) none .nothing)) ∧
      (s.goes (.elseD x) → e.kind = 2 → exec (.elseD x) s = .next (s.pending none none .endFragment)) ∧
      (s.goes (.join y) → e.kind ≠ 2 → exec (.join y) s = .next
        ((s.updSeq fun q => { q with ds := r }).pending none (some e.rmask) .nothing)) ∧
      (s.goes (.join y) → e.kind = 2 → exec (.join y) s = .next
        ((s.updSeq fun q => { q with ds := r }).pending none (some e.rmask) .endFragment)) ∧
      (e.kind = 1 → s.g.split = true → s.slotOk (.join y) = true → s.cur.ready = false → s.staticFault (.join y) = none →
        s.enabled (.join y) = true → s.parkedHere = false → exec (.join y) s = .next s) ∧
      (s.goes (.exit y) → s.g.isFragment s.cur.q = false → e.kind = 0 → e.phase = false → m' ≠ 0 →
        exec (.exit y) s = .next ((retired.updSeq fun q => { q with ds := { e with phase := true } :: r }).pending
          (some e.elsePc) (some m') .nothing)) ∧
      (s.goes (.exit y) → s.g.isFragment s.cur.q = false → e.kind ≠ 0 ∨ e.phase = true ∨ m' = 0 →
        exec (.exit y) s = .next (retired.pending (some e.joinPc) none .nothing))) ∧
    (s.goes (.exit y) → s.g.isFragment s.cur.q = false → s.seq.ds = [] →
      exec (.exit y) s = .next (retired.pending none none .endInstance)) ∧
    (s.goes (.exit y) → s.g.isFragment s.cur.q = true → exec (.exit y) s = .next (retired.pending none none .endFragment)) ∧
    (∀ m, s.seq.xfer = some ⟨none, 1, m, .endFragment⟩ → s.cur.delay = true → s.seq.block = .none → let u := s.finish.seq
      u.block = .fragmentOver ∧ u.xfer = none ∧ u.exec = m.getD s.seq.exec ∧ u.ds = s.seq.ds ∧ u.toks = s.seq.toks ∧ u.sb = s.seq.sb) ∧
    (s.g.split = true → s.g.q1.block = .fragmentOver → s.g.mode = .user →
      ((∃ n ∈ s.g.q1.toks, n ≠ 0) ∨ s.g.q1.sb ≠ [] → exec (.fragmentEnd s.g.gid) s = .next s) ∧
      ((∀ n ∈ s.g.q1.toks, n = 0) → s.g.q1.sb = [] → exec (.fragmentEnd s.g.gid) s = .next (s.updG fun g => { g with
        split := false, q0 := { g.q0 with pts := max g.q0.pts g.q1.pts }, q1 := { Seq.start with utlb := g.q1.utlb }
        fl := g.fl.map fun x => { x with what := x.what.filter fun w => !w.ofFragment } })))

/-- R95, R53: SPLIT of a full gang with lanes on both sides, by the primary while no split runs, keeps the side with more lanes
on the primary, the then side on a tie. When its second delay bundle has issued the fragment stands at the other side's first
bundle with its side as EXEC, a copy of the new entry with KIND 2 on its stack, no token set, empty queues and store buffer and
the primary's pts; in the next cycle it has the primary's scalars, predicates and frames, those read-only, with every landing
up to then, and may issue. -/
def Obligations.Splitting : Prop :=
  ∀ (x : SB) (s : State) (T : Lanes), s.goes (.split x) →
    (∀ l < 16, T.getLsbD l = (s.act.getLsbD l &&
      ((x.p == 0 || (s.g.lane l).c.getLsbD (x.p.toNat - 1)) != (x.n == 1)))) →
    let E := s.act &&& ~~~ T
    let elsePc := ((s.cur.head : Int) + 2 * x.disp.toInt).toNat
    let joinPc := match s.cur.lit with
      | some w => ((s.cur.head : Int) + 2 * w.toInt).toNat
      | none => elsePc
    let entry (phase : Bool) : DsEntry := ⟨elsePc, joinPc, E, s.seq.exec, phase, 1⟩
    let t := { s with tkt := s.tkt + 1, g := { s.g with splitTkt := s.tkt } }
    (s.g.info.width = 16 ∧ T ≠ 0 ∧ E ≠ 0 ∧ s.g.split = false ∧ s.cur.q = 0 →
      (laneCount E ≤ laneCount T → exec (.split x) s = .next
        ((t.pushDs (entry false)).pending none (some T) (.startFragment true E))) ∧
      (laneCount T < laneCount E → exec (.split x) s = .next
        ((t.pushDs (entry true)).pending (some elsePc) (some E) (.startFragment false T)))) ∧
    (∀ (u : State) (dst : Option Nat) (own : Lanes) (e : Bool) (m : Lanes) (d : DsEntry) (r : List DsEntry),
      u.cur.q = 0 → u.cur.delay = true → u.g.q0.frames = [] → u.g.q0.ds = d :: r →
      u.g.q0.xfer = some ⟨dst, 1, some own, .startFragment e m⟩ → let f := u.finish
        let past := ranOff u.cur.head u.cur.next
        f.g.split = true ∧ f.g.q0.exec = own ∧ f.g.q0.pc = dst.getD u.cur.next ∧ f.g.q0.ds = d :: r ∧
        f.g.q1.pc = (if e then d.elsePc else u.cur.next) ∧ f.g.q1.atEnd = (!e && past) ∧
        f.g.q1.ds = [{ d with kind := 2, phase := e }] ∧ f.g.q1.exec = m ∧ f.g.q1.block = .starting ∧
        f.g.q1.toks = List.replicate 8 0 ∧ f.g.q1.q = List.replicate 8 [] ∧ f.g.q1.sb = [] ∧ f.g.q1.acc = [] ∧
        f.g.q1.xfer = none ∧ f.g.q1.pts = u.g.q0.pts) ∧
    (∀ (u : State) (fl : List Landing), u.g.mode = .user → u.g.q1.block = .starting →
      (fl = [] ∨ ∃ r v, fl = [⟨1, [.sreg 0 r v], false⟩]) → u.g.fl = fl → let v := u.tick.g
        v.q1.s = v.q0.s ∧ v.q1.p = v.q0.p ∧ v.q1.frames = v.q0.frames.map (fun f => { f with copied := true }) ∧
        v.q1.block = .none ∧ v.q1.pts = v.q0.pts ∧ v.q1.pc = u.g.q1.pc ∧ v.q1.exec = u.g.q1.exec ∧ v.q1.ds = u.g.q1.ds)

/-- R53, R99 to R102, R106: HALT ends the sequencer after its delay bundles, and where their words have blocked it, once that is
over: the bundles that issued execute whole. WAIT holds the sequencer back for the count in
operand(a)[15:0]; IDLE holds it until one of the tokens named is clear, and not at all when it names none; SEGLD starts
the fetch of a segment under a token, and of a resident one it marks it most recently used and clears the token in the next
cycle; FCHK that finds no engine parked has no effect. -/
def Obligations.WaitsAndEnds : Prop :=
  ∀ (x : SR) (y : SI) (s : State), let n := (s.operand x.a).toNat % 2 ^ 16; let m : BitVec 8 := (s.operand x.a).setWidth 8
    let seg := (s.operand y.a).toNat + (y.imm.extractLsb' 3 6).toNat
    let tok : BitVec 3 := y.imm.setWidth 3
    (s.goes (.halt x) → exec (.halt x) s = .next (s.pending none none .endInstance)) ∧
    (∀ k after end_, (after = .endInstance ∧ end_ = .halted ∨ after = .endFragment ∧ end_ = .fragmentOver) →
      s.seq.xfer = some ⟨none, 1, k, after⟩ → s.cur.delay = true → let u := s.finish.seq
        (s.seq.block = .none → u.block = end_ ∧ u.ends = none) ∧
        (s.seq.block ≠ .none → u.block = s.seq.block ∧ u.ends = some end_)) ∧
    (∀ b, b ≠ .none → s.g.inSys = false → s.g.drain = .none → s.seq.block = .none → s.seq.ends = some b →
      s.openTurn exec s.cur.q = .next (s.updSeq fun q => { q with block := b, ends := none })) ∧
    (s.goes (.wait x) → n = 0 → exec (.wait x) s = .next s) ∧
    (s.goes (.wait x) → n ≠ 0 → exec (.wait x) s = .next (s.blocked (.wait n))) ∧
    (s.goes (.idle x) → (m = 0 ∨ ∃ k < 8, m.getLsbD k = true ∧ s.tokenSet (BitVec.ofNat 3 k) = false) →
      exec (.idle x) s = .next s) ∧
    (s.goes (.idle x) → m ≠ 0 → (∀ k < 8, m.getLsbD k = true → s.tokenSet (BitVec.ofNat 3 k) = true) →
      exec (.idle x) s = .next (s.blocked (.idle m))) ∧
    (∀ k, s.cur.q ≤ 1 → s.seq.block = .idle k →
      ((∃ i < 8, k.getLsbD i = true ∧ s.tokenSet (BitVec.ofNat 3 i) = false) → s.poll s.cur.q = s.release s.cur.q) ∧
      (k ≠ 0 → (∀ i < 8, k.getLsbD i = true → s.tokenSet (BitVec.ofNat 3 i) = true) → s.poll s.cur.q = s)) ∧
    (s.goes (.segld y) → (∀ f, s.frameOf seg = some f → f.fill ≠ .resident) →
      exec (.segld y) s = .next ((s.startFetch seg).withOp tok 0 (.segld seg))) ∧
    (s.goes (.segld y) → ∀ f, s.frameOf seg = some f → f.fill = .resident → exec (.segld y) s = .next
      (((s.touchSegment seg).raise tok).withFlight [⟨1, [.token s.cur.q s.g.inSys tok], false⟩])) ∧
    (s.goes (.fchk x) → exec (.fchk x) s = .next s)

/-! ## Memory accesses, barriers, signals, time and system instructions at issue. -/

/-- R42, R143 to R146: LD, LDX, ST, STX, AMO, SWAP, CAS and INCB whose address passes its checks leave one access (or one
store-buffer entry) outstanding at that address under their token. The operands they read are read at issue. PREF asks for
256 bytes, and for none at an address that would fault (R147); FENCE blocks its sequencer and takes a place in program order
(R148), and lets it go on once every earlier store, atomic, QPUSH and sealed batch of the gang has been performed, with its
batches published. That it waits for earlier retrieval operations too is the model's choice (log row 119). -/
def Obligations.LoadsAndStores : Prop :=
  ∀ (x : SM) (y : SR) (s : State) (key : Nat) (ent : Option TlbEnt),
    let line := s.operand x.a + BitVec.ofInt 64 (x.b.toInt * 256)
    let n : Nat := 2 ^ x.size.toNat
    let near := s.operand x.a + BitVec.ofInt 64 (x.b.toInt * (n : Int))
    let far := s.operand x.a + s.operand x.b * BitVec.ofNat 64 n
    let A := s.operand x.a
    let B := s.operand x.b
    let D := s.seq.reg x.d
    let sg := decide (x.sign = 1)
    let t := s.filled ent
    let store (va : Word) := t.withStore x.tok va key (leBytes n (s.operand x.d).toNat)
    (s.goes (.ld x) → s.locateS ⟨near, n, 0⟩ = .at_ key ent →
      exec (.ld x) s = .next (t.withAcc x.tok x.d .load near key n sg)) ∧
    (s.goes (.ldx x) → s.locateS ⟨far, n, 0⟩ = .at_ key ent →
      exec (.ldx x) s = .next (t.withAcc x.tok x.d .load far key n sg)) ∧
    (s.goes (.st x) → s.locateS ⟨near, n, 1⟩ = .at_ key ent → exec (.st x) s = .next (store near)) ∧
    (s.goes (.stx x) → s.locateS ⟨far, n, 1⟩ = .at_ key ent → exec (.stx x) s = .next (store far)) ∧
    (s.locateS ⟨A, n, 2⟩ = .at_ key ent →
      (s.goes (.amo x) → exec (.amo x) s = .next (t.withAcc x.tok x.d (.amo x.b.toNat D) A key n sg)) ∧
      (s.goes (.swap x) → exec (.swap x) s = .next (t.withAcc x.tok x.d (.swap B) A key n sg)) ∧
      (s.goes (.cas x) → exec (.cas x) s = .next (t.withAcc x.tok x.d (.cas D B) A key n sg)) ∧
      (s.goes (.incb x) → exec (.incb x) s = .next (t.withAcc x.tok x.d (.incb B) A key n sg))) ∧
    (s.goes (.pref x) → s.locateS ⟨line, 256, 0⟩ = .at_ key ent →
      exec (.pref x) s = .next (t.withAcc x.tok x.d .pref line key 256 sg)) ∧
    (s.goes (.pref x) → (∀ k e, s.locateS ⟨line, 256, 0⟩ ≠ .at_ k e) → ∃ t : State, exec (.pref x) s = .next t ∧
      t.mem = s.mem ∧ t.tkt = s.tkt + 1 ∧ ∀ r, t.seq.reg r = s.seq.reg r) ∧
    (s.goes (.fence y) → exec (.fence y) s = .next
      (State.blocked { s with tkt := s.tkt + 1 } (.fence y.f.toNat s.g.sealed s.tkt))) ∧
    (∀ q scope b k, q ≤ 1 → (s.g.seq q).block = .fence scope b k →
      ((s.g.q0.sb ++ s.g.q1.sb = []) → (∀ a ∈ s.g.q0.acc ++ s.g.q1.acc, a.kind = .load ∨ a.kind = .pref) → s.g.eng = [] →
        s.g.ops = [] →
        (∀ r ∈ s.g.parts, r.batch = none ∧ r.kind.retrieval = false) → s.poll q = (s.publishBatches scope q b).setBlock q .none) ∧
      ((∃ e ∈ (s.g.seq q).sb, e.tkt < k) → s.poll q = s) ∧
      ((∃ o ∈ s.g.ops, o.q = q ∧ o.oid < k ∧
        ((∃ j n v c, o.kind = .sig j n v c) ∨ ∃ n c, o.kind = .rstat n c ∧ 128 ≤ c.toNat ∧ c.toNat ≤ 134)) → s.poll q = s))

/-- R246 to R249, R251, R252, R169: the barrier instructions and SSTEP. The tokened ones leave an operation for the
Barrier File; a count of 0 stands for 1. The blocking ones block their sequencer. An initialised entry whose arrivals have
reached its count with nothing pending completes its phase: PHASE turns over and ARR is 0 again; any other entry is as it was.
A BAR.WAIT or BAR.SYNC that waits for a phase is released when one more has completed, and one whose phase has passed at once,
acquiring the times of the entry's publishers; one at an entry without BAR.INIT is over with a deferred cause. SSTEP is
released when its superstep has passed. A release takes effect at once; where the slot was gated, the first bundle of it that
nothing else keeps from issuing issues 60 cycles later, and each cycle in which only that keeps a bundle counts as one of them. The
model's choices are here: that a rejected BAR.WAIT is over (log row 76), that the 60 cycles run from where the bundle would have
issued, and no others (log row 24), and the times of the entry's publishers (log row 118). -/
def Obligations.Barriers : Prop :=
  ∀ (x : SR) (s : State) (e : Barrier), let A := (s.operand x.a).toNat; let B := s.operand x.b
    let c := max 1 (B.toNat % 2 ^ 12)
    (s.goes (.barInit x) → exec (.barInit x) s = .next
      (s.withOp x.f 0 (.barInit x.d.toNat (A % 2 ^ 12) (A / 2 ^ 12 % 4) B))) ∧
    (s.goes (.barArrive x) → exec (.barArrive x) s = .next (s.withOp x.f x.d (.barArrive x.a.toNat c s.g.sealed))) ∧
    (s.goes (.barExpect x) → exec (.barExpect x) s = .next (s.withOp x.f 0 (.barExpect x.a.toNat B))) ∧
    (s.goes (.barTest x) → exec (.barTest x) s = .next (s.withOp x.f x.d (.barTest x.a.toNat))) ∧
    (s.goes (.barWait x) → exec (.barWait x) s = .next (s.blocked (.barWait x.a.toNat (B.getLsbD 0) none))) ∧
    (s.goes (.barSync x) → exec (.barSync x) s = .next (s.blocked (.barSync x.a.toNat c s.g.sealed none))) ∧
    (s.goes (.sstep x) → exec (.sstep x) s = .next (s.blocked (.sstep none))) ∧
    (e.initd = true → e.arr = e.exp → e.pend = 0 →
      e.settle.phase = !e.phase ∧ e.settle.arr = 0 ∧ e.settle.phases = e.phases + 1 ∧ e.settle.initd = true ∧
      e.settle.exp = e.exp ∧ e.settle.pend = 0 ∧ e.settle.scope = e.scope) ∧
    (¬(e.initd = true ∧ e.arr = e.exp ∧ e.pend = 0) → e.settle = e) ∧
    (∀ q ≤ 1, s.release q = s.wakeSlot.setBlock q .none ∧ (∀ n, ((s.acquire q n).g.seq q).pts = max (s.g.seq q).pts n)) ∧
    (s.gated = false → s.wakeSlot = s) ∧
    (s.gated = true → s.wakeSlot = s.mapGangs fun g =>
      if g.place.running && g.place.die == s.myDie && g.place.slot == s.g.place.slot then { g with wake := 60 } else g) ∧
    (s.tick.g.wake = s.g.wake) ∧
    (∀ q head next b, let t := s.atBundle q head next b
      t.decodeFault b = none → t.hurdle b = .none → b.head.k = false →
        (t.g.wake ≠ 0 → s.comeUp exec q head next b = .next t.payWake) ∧
        (t.g.wake = 0 → s.comeUp exec q head next b = t.started.issue exec b (b.words.filterMap slotInstr))) ∧
    (s.cur.woke = false → s.payWake.g = { s.g with wake := s.g.wake - 1 } ∧ s.payWake.cur.woke = true) ∧
    (s.cur.woke = true → s.payWake = s) ∧
    ((∀ g ∈ s.gangs, g.wake = 0) → s.started = s) ∧
    (s.g.place.running = true → s.started.g = { s.g with wake := 0 }) ∧
    (∀ q b l, q ≤ 1 → s.launch s.g.info.lid = some l → let f := s.barrier l b
      let passed := (s.release q).acquire q (f.timeFor s.g.gid s.myDie)
      (∀ ph k, (s.g.seq q).block = .barWait b ph (some k) → s.poll q = if k < f.phases then passed else s) ∧
      (∀ cnt m k, (s.g.seq q).block = .barSync b cnt m (some k) → s.poll q = if k < f.phases then passed else s) ∧
      (∀ ph, (s.g.seq q).block = .barWait b ph none → s.g.ops = [] →
        (f.initd = false → s.poll q = (s.release q).updG fun g => g.defer q 0 (barErr b 1 0 0)) ∧
        (f.initd = true → f.phase ≠ ph → s.poll q = passed) ∧
        (f.initd = true → f.phase = ph → s.poll q = s.setBlock q (.barWait b ph (some f.phases)))) ∧
      (∀ n, (s.g.seq q).block = .sstep (some n) → n < l.step → s.poll q = (s.release q).acquire q l.stime))

/-- R243: GBALLOT gathers a condition of the active lanes; GSCAN gives each lane the scan of the active lanes before it and
the sequencer the whole; GREDS reduces an engine scalar over the active lanes. -/
def Obligations.GangScalars : Prop :=
  ∀ (x : SR) (s : State),
    let val (l : Nat) : Word := (s.g.lane l).e.getD (x.a.extractLsb' 0 4).toNat 0
    let vals (n : Nat) : List Word := ((List.range n).filter fun l => s.act.getLsbD l).map val
    let scan (f : Word → Word → Word) : State := s.withFlight [⟨12,
      (s.actives.map fun l => .esc l (x.b.extractLsb' 0 4) ((vals l).foldl f 0)) ++ [.sreg s.cur.q x.d ((vals 16).foldl f 0)], false⟩]
    let red (f : Word → Word → Word) (z : Word) : State := s.lands 20 x.d ((vals 16).foldl f z)
    (s.goes (.gballot x) → ∃ v : Word, exec (.gballot x) s = .next (s.lands 8 x.d v) ∧ ∀ l < 64, v.getLsbD l =
      (decide (l < 16) && s.act.getLsbD l && ((s.g.lane l).c.getLsbD x.a.toNat != decide (x.f = 1)))) ∧
    (s.goes (.gscan x) → x.f = 0 → exec (.gscan x) s = .next (scan (· + ·))) ∧
    (s.goes (.gscan x) → x.f = 1 → exec (.gscan x) s = .next (scan (· ||| ·))) ∧
    (s.goes (.gscan x) → x.f = 2 → exec (.gscan x) s = .next (scan fun a b => if a.toNat < b.toNat then b else a)) ∧
    (s.goes (.greds x) → x.f = 0 → exec (.greds x) s = .next (red (· + ·) 0)) ∧
    (s.goes (.greds x) → x.f = 1 → exec (.greds x) s = .next (red (· &&& ·) (BitVec.allOnes 64))) ∧
    (s.goes (.greds x) → x.f = 2 → exec (.greds x) s = .next (red (· ||| ·) 0)) ∧
    (s.goes (.greds x) → x.f = 3 → exec (.greds x) s = .next (red (· ^^^ ·) 0)) ∧
    (s.goes (.greds x) → x.f = 4 → exec (.greds x) s = .next
      (red (fun a b => if b.toInt < a.toInt then b else a) (BitVec.intMax 64))) ∧
    (s.goes (.greds x) → x.f = 5 → exec (.greds x) s = .next
      (red (fun a b => if a.toInt < b.toInt then b else a) (BitVec.intMin 64))) ∧
    (s.goes (.greds x) → x.f = 6 → exec (.greds x) s = .next
      (red (fun a b => if b.toNat < a.toNat then b else a) (BitVec.allOnes 64))) ∧
    (s.goes (.greds x) → x.f = 7 → exec (.greds x) s = .next (red (fun a b => if a.toNat < b.toNat then b else a) 0))

/-- R295, R297 to R299: QPUSH, QRES and SIG leave an operation at their checked addresses under a token, SIGW blocks, and
NEXT draws the lowest item of its die's reserve into a queue register. A sequencer in SIGW that finds its condition true of the
signal goes on with the value in its register, and one that does not stays. -/
def Obligations.QueuesAndSignals : Prop :=
  ∀ (x : SR) (s : State) (k : Nat) (ent : Option TlbEnt),
    let A := s.operand x.a
    let B := s.operand x.b
    let t := s.filled ent
    (s.goes (.qpush x) → s.locateS ⟨A, 64, 2⟩ = .at_ k ent → ∀ pk ent2, t.locateS ⟨B, 64, 0⟩ = .at_ pk ent2 →
      exec (.qpush x) s = .next ((t.filled ent2).withOp x.f x.d (.qpush k pk))) ∧
    (s.goes (.qres x) → s.locateS ⟨A, 64, 2⟩ = .at_ k ent → exec (.qres x) s = .next (t.withOp x.f x.d (.qres k B))) ∧
    (s.goes (.sig x) → s.locateS ⟨A, 8, 2⟩ = .at_ k ent →
      exec (.sig x) s = .next (t.withOp x.f 0 (.sig k (x.d == 1) B s.g.sealed))) ∧
    (s.goes (.sigw x) → s.locateS ⟨A, 8, 0⟩ = .at_ k ent →
      exec (.sigw x) s = .next (t.blocked (.sigw k x.d x.f.toNat B))) ∧
    (s.goes (.next x) → s.launch s.g.info.lid = none → exec (.next x) s = .next
      (s.withFlight [⟨24, [.queue s.cur.q x.d.toNat (BitVec.allOnes 64)], false⟩])) ∧
    (s.goes (.next x) → ∀ l, s.launch s.g.info.lid = some l → l.reserveOf s.myDie = [] → exec (.next x) s = .next
      (s.withFlight [⟨24, [.queue s.cur.q x.d.toNat (BitVec.allOnes 64)], false⟩])) ∧
    (s.goes (.next x) → ∀ l n, s.launch s.g.info.lid = some l → n ∈ l.reserveOf s.myDie →
      (∀ m ∈ l.reserveOf s.myDie, n ≤ m) → exec (.next x) s = .next
        (State.withFlight (s.updLaunch l.info.lid fun k => k.setReserve s.myDie ((l.reserveOf s.myDie).erase n))
          [⟨24, [.queue s.cur.q x.d.toNat (BitVec.ofNat 64 (n % l.cx + n / l.cx * 2 ^ 32))], false⟩])) ∧
    (∀ q key d c w, q ≤ 1 → (s.g.seq q).block = .sigw key d c w → s.unseen = [] → s.g.inOrder q s.tkt = true →
      (∀ x ∈ s.dies, x.failed = false) →
      c < 8 → let v := BitVec.ofNat 64 (s.mem.le key 8)
      (¬Cond116 c v w → s.poll q = s) ∧
      (Cond116 c v w → ∃ u : State, s.poll q = u ∧ u.mem = s.mem ∧ u.dies = s.dies ∧ u.launches = s.launches ∧
        (u.g.seq q).block = ((s.release q).g.seq q).block ∧
        ∀ r, (u.g.seq q).reg r = if r = d ∧ r ≠ 0 ∧ r ≠ 63 then v else (s.g.seq q).reg r))

/-- R305, R311 to R316: TIME and SLACK land the time of the die and the signed time left; PROG, VSET and ECOMMIT leave an
operation under a token; ENDG discards the frames and is the drain point of its endgame, with EGREASON 2 to come, or 3 for the form
that is the trigger for the launch on every die: what has not been taken of it never starts, and its other instances are asked for
an endgame of EGREASON 3, at once where they run in USER mode and by a mark where they do not. -/
def Obligations.TimeOperations : Prop :=
  ∀ (x : SR) (s : State) (key : Nat) (ent : Option TlbEnt),
    let A := s.operand x.a
    let N := s.now s.g.place.die
    let I := s.g.info
    let word := I.bmAddr + BitVec.ofNat 64 (8 * (A.toNat / 64))
    let t := s.filled ent
    (s.goes (.time x) → exec (.time x) s = .next (s.lands 4 x.d (BitVec.ofNat 64 N))) ∧
    (s.goes (.slack x) → I.dline = false → exec (.slack x) s = .next (s.lands 4 x.d (BitVec.intMax 64))) ∧
    (s.goes (.slack x) → I.dline = true → x.f = 0 →
      exec (.slack x) s = .next (s.lands 4 x.d (BitVec.ofInt 64 ((I.deadline : Int) - N)))) ∧
    (s.goes (.slack x) → I.dline = true → x.f = 1 →
      exec (.slack x) s = .next (s.lands 4 x.d (BitVec.ofInt 64 (((I.deadline - I.budget : Nat) : Int) - N)))) ∧
    (s.goes (.prog x) → exec (.prog x) s = .next (s.withOp x.f 0 (.prog (A.toNat % 2 ^ 32)))) ∧
    (s.goes (.vset x) → (I.bmAddr = 0 ∨ I.bmLen ≤ A.toNat) → exec (.vset x) s = .next (s.withOp x.f x.d .vsetNone)) ∧
    (s.goes (.vset x) → I.bmAddr ≠ 0 → A.toNat < I.bmLen → s.locateS ⟨word, 8, 2⟩ = .at_ key ent →
      exec (.vset x) s = .next
        (t.withAcc x.f x.d (.vset (A.toNat % 64) ((s.operand x.b).getLsbD 0)) word key 8 false)) ∧
    (s.goes (.ecommit x) → exec (.ecommit x) s = .next (s.withOp x.f x.d (.ecommit s.g.sealed))) ∧
    (s.goes (.endg x) → x.f = 0 → s.g.drain = .none → s.g.split = false → exec (.endg x) s = .next
      (State.doneHere { s with
        g := { s.g with q0 := { s.g.q0 with frames := [], atDrain := true }, drain := .endgame 2 } })) ∧
    (s.goes (.endg x) → x.f = 1 → s.g.drain = .none → s.g.split = false → exec (.endg x) s = .next
      (State.doneHere { s with
        g := { s.g with q0 := { s.g.q0 with frames := [], atDrain := true }, drain := .endgame 3 }
        others := s.others.map fun c => if c.info.lid = I.lid then c.askEndgame 3 else c
        launches := s.launches.map fun l =>
          let all := l.info.nx * l.info.ny * l.info.nz * l.info.stages
          if l.info.lid = I.lid then { l with
            trig := (l.trig ++ [0, 1, 2, 3]).eraseDups, trigAll := true, taken := all,
            tally := { l.tally with never := l.tally.never + (all - l.taken) } } else l })) ∧
    (∀ c : Gang, c.drain = .none → c.egReason = 0 → c.egMark = none → c.stopping = false → c.halted = false →
      (c.place.running = true → c.inSys = false → c.frozen = false → c.askEndgame 3 = { c with drain := .endgame 3 }) ∧
      (c.place.running = false ∨ c.inSys = true ∨ c.frozen = true → c.askEndgame 3 = { c with egMark := some 3 }))

/-- R326, R328, R329, R344, R364, R365, R304: TRAP enters a trap with its detail at the bundle that would have come next;
TRET blocks until the return, which comes when no SYS token is set and no result of the handler is in flight; SYSR lands what a
register reads as when it lands, and SYSW lands a write of one. A register that is RW reads back what was written to it, and
every other as before, SSCR0 to SSCR7 of the sequencer that accesses them among them; a write to an RO one changes no register; KILL reads as 0, and a write of it without bit 7 does nothing;
FABn keeps EN and INPART of what is written, and TCFG the fields that are in range. That SYSR samples its register as it lands,
and not at issue, is the model's choice (log row 105), and so is what an access of a failed die's register does (log row
121). -/
def Obligations.TrapAndSystemRegisters : Prop :=
  ∀ (x : SR) (y : SI) (s : State), let A := s.operand x.a
    let kept (n : Nat) : Prop :=
      (0x010 ≤ n ∧ n ≤ 0x018) ∨ (0x070 ≤ n ∧ n ≤ 0x07F) ∨ (0x100 ≤ n ∧ n ≤ 0x13F ∧ n % 4 ≠ 3)
    let ro (n : Nat) : Prop :=
      n = 0x020 ∨ (0x030 ≤ n ∧ n ≤ 0x03D) ∨ (0x050 ≤ n ∧ n ≤ 0x057) ∨ (0x080 ≤ n ∧ n ≤ 0x09F)
    let known (n : Nat) : Prop := kept n ∨ ro n ∨ n = 0x021 ∨ n = 0x040 ∨ (0x060 ≤ n ∧ n ≤ 0x067)
    (s.goes (.trap y) → exec (.trap y) s = .next
      (s.finish.trapNext s.cur.q ⟨.trap, s.operand y.a + y.imm.setWidth 64, 0⟩)) ∧
    (s.goes (.tret x) → exec (.tret x) s = .next (s.blocked .tret).doneHere) ∧
    (∀ q, (s.g.seq q).block = .tret →
      ((∀ n ∈ (s.g.seq q).systoks, n = 0) → s.g.fl = [] → s.g.drain = .none → s.g.egMark = none →
        s.poll q = s.trapReturn) ∧
      ((∃ n ∈ (s.g.seq q).systoks, n ≠ 0) ∨ s.g.fl ≠ [] → s.poll q = s)) ∧
    (s.goes (.sysr x) → exec (.sysr x) s = .next (s.withFlight [⟨4, [.sysread s.cur.q x.d A], false⟩])) ∧
    (s.goes (.sysw x) → exec (.sysw x) s = .next (s.withFlight [⟨4, [.sysreg s.cur.q A (s.operand x.b)], false⟩])) ∧
    (∀ q r, q ≤ 1 → r ≠ 0 → r ≠ 63 → s.selDead A = false → ((s.landOne (.sysread q r A)).g.seq q).reg r =
      s.sysRead (s.scratch q) (A.toNat / 2 ^ 12 % 4) (A.toNat % 2 ^ 12)) ∧
    (∀ q v, s.selDead A = true → s.landOne (.sysreg q A v) = s ∧
      ∀ r, ∃ u w, s.landOne (.sysread q r A) = u.updG (fun g => g.updSeq q fun x => x.setReg r w) ∧
        u = { s with free := s.free + 1 }) ∧
    (∀ q v, q ≤ 1 → A.toNat % 2 ^ 12 ≤ 7 → s.g.place.die < s.dies.length → s.g.place.slot < (s.die s.g.place.die).slots.length →
      s.mySlot.sscr.length = 16 → s.g.place.half ≤ 1 → let t := s.landOne (.sysreg q A v)
        let owner (p : Nat) : Nat := if s.g.info.width = 8 then s.g.place.half else p
        t.g = s.g ∧ t.mem = s.mem ∧ (∀ p n, p ≤ 1 → n ≤ 7 → (t.scratch p).getD n 0 =
          if owner p = owner q ∧ n = A.toNat % 2 ^ 12 then v else (s.scratch p).getD n 0) ∧
        (∀ die sc, t.sysRead sc die (A.toNat % 2 ^ 12) = sc.getD (A.toNat % 2 ^ 12) 0)) ∧
    (∀ q v, A.toNat % 2 ^ 12 > 7 → s.selDead A = false →
      s.landOne (.sysreg q A v) = s.sysWrite (A.toNat / 2 ^ 12 % 4) (A.toNat % 2 ^ 12) v) ∧
    (∀ die n v sc, die < s.dies.length → (s.die die).notify.length = 16 → (s.die die).parts.length = 16 →
      let t := s.sysWrite die n v
      (kept n → t.sysRead sc die n = v ∧
        ∀ d' n', known n' → d' ≠ die ∨ n' ≠ n → t.sysRead sc d' n' = s.sysRead sc d' n') ∧
      (ro n → ∀ d' n', t.sysRead sc d' n' = s.sysRead sc d' n') ∧
      (n = 0x040 → s.sysRead sc die n = 0 ∧ (v.getLsbD 7 = false → t = s)) ∧
      (0x060 ≤ n → n ≤ 0x067 → s.ports.length = 8 → t.sysRead sc die n = BitVec.ofNat 64
        ((if (s.ports.getD (n - 0x060) ⟨false, false, 0⟩).up then 128 else 0) + (if v.getLsbD 5 then 32 else 0) +
          v.toNat % 16)) ∧
      (n = 0x021 → ∀ k, k = t.sysRead sc die n →
        k.toNat / 256 % 16 = (if 2 ≤ v.toNat / 256 % 16 ∧ v.toNat / 256 % 16 ≤ 10 then v.toNat / 256 % 16
          else (s.die die).tu.annto % 16) ∧
        k.toNat % 256 = (if v.toNat % 256 < 128 then v.toNat % 256 else (s.die die).tu.domain % 256)))

/-- R336, R337, R338, R343, R253, R255, R268, R269: TLBINV, the page instructions, RFAM, RSTAT and RCUR leave an operation
under a token; SUSPEND also asks its target to drain. TLBINV removes the translations its operand names from the caches of its
die, or of all; SUSPEND is over when its target is. RFAM takes SEED and K of a family from its descriptor, and a number above 15
is an RTAB; RSTAT lands a counter, which bit 7 clears, and RCUR the cursor with the state and sizes. A page command block
out of range has STATUS 7; a page that is shared adds 1 to COUNT of its frame and takes an entry with PERM; one that is unmapped
loses its entry and takes 1 from COUNT, and where that leaves 0 its frame is zeroed, if ZOF asks for it, and its number joins the
list at AUX; a frame with COUNT up to 1 has nothing to copy, and one with more is copied to the free frame at AUX, which the entry
names from then on. The model's choices are here: that TLBINV
of KIND 0 removes global entries too (log row 73), that a SUSPEND is over when its target ends (log row 34), and the order of a
page operation's tests (log row 74). -/
def Obligations.ServiceOperations : Prop :=
  ∀ (x : SR) (s : State) (key : Nat) (ent : Option TlbEnt),
    let A := s.operand x.a
    let B := s.operand x.b
    let t := s.filled ent
    (s.goes (.tlbinv x) → exec (.tlbinv x) s = .next (s.withOp x.f 0 (.tlbinv A B s.g.sealed))) ∧
    (s.locateS ⟨A, 64, 2⟩ = .at_ key ent →
      (s.goes (.pgshare x) → exec (.pgshare x) s = .next (t.withOp x.f 0 (.pages .share key 0))) ∧
      (s.goes (.pgunmap x) → exec (.pgunmap x) s = .next (t.withOp x.f 0 (.pages .unmap key 0))) ∧
      (s.goes (.pgcow x) → exec (.pgcow x) s = .next (t.withOp x.f 0 (.pages .cow key 0)))) ∧
    (s.goes (.rfam x) → exec (.rfam x) s = .next (s.withOp x.f 0 (.rfam A B))) ∧
    (s.goes (.rstat x) → exec (.rstat x) s = .next (s.withOp x.f x.d (.rstat A B))) ∧
    (s.goes (.rcur x) → exec (.rcur x) s = .next (s.withOp x.f x.d (.rcur A))) ∧
    (s.goes (.suspend x) → ∀ v, s.targetOf (A.toNat % 64) (A.toNat / 64 % 2) = some v → v.gid ≠ s.g.gid →
      ∃ u : State, exec (.suspend x) s = .next u ∧ u.mem = s.mem ∧ u.tkt = s.tkt + 1 ∧
        u.g = (s.withOp x.f 0 (.suspend v.gid B.toNat)).g ∧
        ∀ c ∈ u.others, c.gid = v.gid → ∃ w a, c.drain = .suspend w a) ∧
    (∀ (gid : Nat) (o : TokOp), s.hasGang gid → let t := s.focus gid
      let ev : Instr := .tokenedOperationComplete gid o.oid
      let ends (u : State) : State :=
        ((u.updG fun g => { g with ops := g.ops.filter (·.oid != o.oid) }).lower o.q o.sys o.tok).focus s.g.gid
      let gives (u : State) (v : Word) : State := ends (u.updG fun g => g.updSeq o.q fun x => x.setReg o.d v)
      let fails (c : Cause) (i : Word) : State := ends (t.updG fun g => g.defer o.q 0 ⟨c, i, o.slot⟩)
      t.g.ops.find? (fun x => x.oid == o.oid) = some o →
      (∀ va c batch, o.kind = .tlbinv va c batch → t.g.fenced o.q o.oid batch = true →
        let part := c.toNat % 16
        let kind := c.toNat / 16 % 4
        let hit (e : TlbEnt) : Bool :=
          if kind = 0 then (e.part == part || e.glob) && va.toNat % 2 ^ 56 / (if e.big then 2 ^ 30 else 2 ^ 17) == e.page
          else if kind = 1 then e.part == part && !e.glob else true
        ∃ u : State, exec ev s = .next (ends u) ∧ u.mem = t.mem ∧ u.g.q0.utlb = t.g.q0.utlb.filter (fun e => !hit e) ∧
          u.g.q1.utlb = t.g.q1.utlb.filter (fun e => !hit e) ∧
          ∀ d < min 4 t.dies.length, (u.die d).tlb =
            if c.toNat / 64 % 4 = 0 ∧ d ≠ t.myDie then (t.die d).tlb else (t.die d).tlb.filter fun e => !hit e) ∧
      (∀ gid' as, o.kind = .suspend gid' as → exec ev s = .next
        (if ∃ c ∈ t.gangs, c.gid = gid' ∧ c.stopping = false ∧ c.halted = false then t.focus s.g.gid else ends t)) ∧
      (t.g.inOrder o.q o.oid = true → t.unseen = [] →
        (∀ n a, o.kind = .rfam n a → n.toNat > 15 → exec ev s = .next (fails .rtab (infoOf 4 (n.toNat % 2 ^ 56)))) ∧
        (∀ n a pa, o.kind = .rfam n a → t.myDie < t.dies.length → n.toNat ≤ 15 → a.toNat % 64 = 0 →
          t.rAddr a.toNat 0 = .ok pa →
          let k := t.mem.le (pa + 4) 1
          8 ≤ k → k ≤ 24 → (∀ i, 5 ≤ i → i < 64 → t.mem.get (pa + i) = 0) → ∃ u, exec ev s = .next (ends u) ∧
            u.mem = t.mem ∧ (u.die t.myDie).fams = updAt n.toNat (fun _ => (BitVec.ofNat 32 (t.mem.le pa 4), k))
              (t.die t.myDie).fams) ∧
        (∀ n c tb, o.kind = .rstat n c → c.toNat ≤ 6 → t.table n.toNat 0 = .ok tb → ∃ u, u.mem = t.mem ∧
          exec ev s = .next (gives u (BitVec.ofNat 64 (t.mem.le (tb.pa + 0x40 + 8 * c.toNat) 8)))) ∧
        (∀ n c tb, o.kind = .rstat n c → 128 ≤ c.toNat → c.toNat ≤ 134 → t.table n.toNat 2 = .ok tb →
          let at_ := tb.pa + 0x40 + 8 * (c.toNat - 128)
          ∃ u, u.mem = t.mem.put at_ (leBytes 8 0) ∧
            exec ev s = .next (gives u (BitVec.ofNat 64 (t.mem.le at_ 8)))) ∧
        (∀ n tb, o.kind = .rcur n → t.table n.toNat 0 = .ok tb → ∃ u, u.mem = t.mem ∧
          exec ev s = .next (gives u (BitVec.ofNat 64 (t.mem.le (tb.pa + 0x34) 4 + t.mem.le (tb.pa + 0x33) 1 * 2 ^ 32 +
            t.mem.le (tb.pa + 0x30) 1 * 2 ^ 40 + t.mem.le (tb.pa + 0x31) 1 * 2 ^ 48))))) ∧
      (∀ k key, o.kind = .pages k key 0 → let b := t.pageBlock key
        let closes (u : State) (status done : Nat) (m : Memory) : Prop := exec ev s = .next (ends u) ∧
          u.mem = (m.put (key + 0x20) (leBytes 4 status)).put (key + 0x24) (leBytes 4 done)
        (b.ok k = false → ∃ u, closes u 7 0 t.mem) ∧
        (b.ok k = true → b.npage = 1 → (∀ x ∈ t.dies, x.failed = false) → t.mem.wf = true → ∀ part va l,
          (part, va) = (if k = .share then (b.spart, b.sva) else (b.dpart, b.dva)) → t.pageLeaf part va = some l →
          let n := t.mem.le l.desc 8 % 2 ^ 16
          (l.entry = t.mem.le l.at_ 8 ∧ l.entry.testBit 0 = true ∧ l.entry.testBit 6 = true ∧
            l.frame = l.entry / 2 ^ 17 % 2 ^ 35 * 2 ^ 17 ∧ l.desc = (t.die t.myDie).ftbase.toNat + 8 * (l.frame / 2 ^ 17)) ∧
          (∀ d, k = .share → t.thirdLevel b.dpart b.dva = some d → (t.mem.le d 8).testBit 0 = false →
            (t.mem.le l.desc 8).testBit 16 = false → n ≠ 0xFFFF → ∃ u, closes u 0 1
              ((t.mem.put l.desc (leBytes 2 (n + 1))).put d (leBytes 8
                (l.entry - 2 * (l.entry / 2 % 8) - 32 * (l.entry / 32 % 2) + 2 * b.perm)))) ∧
          (k = .unmap → (t.mem.le l.desc 8).testBit 16 = false → 2 ≤ n →
            ∃ u, closes u 0 1 ((t.mem.put l.at_ (leBytes 8 0)).put l.desc (leBytes 2 (n - 1)))) ∧
          (k = .unmap → (t.mem.le l.desc 8).testBit 16 = false → n = 1 → let list := b.aux % 2 ^ 52
            let gone := (t.mem.put l.at_ (leBytes 8 0)).put l.desc (leBytes 2 0)
            ∃ (m : Memory) (u : State), (∀ a, m.get a = if (t.mem.le l.desc 8).testBit 17 = true ∧ l.frame ≤ a ∧ a < l.frame + 2 ^ 17 then 0
                else gone.get a) ∧
              (t.backed list = true → t.backed (list + 8 + 8 * m.le list 8) = true → closes u 0 1
                ((m.put (list + 8 + 8 * m.le list 8) (leBytes 8 (l.frame / 2 ^ 17))).put list
                  (leBytes 8 (m.le list 8 + 1))))) ∧
          (k = .cow → l.entry.testBit 2 = true → (t.mem.le l.desc 8).testBit 16 = false → 2 ≤ n → b.aux % 2 ^ 17 = 0 →
            b.aux < 2 ^ 52 → ∀ nd, t.frameDesc b.aux = some nd → (t.mem.le nd 8).testBit 16 = false →
            t.mem.le nd 8 % 2 ^ 16 = 0 → let taken := t.mem.put nd (leBytes 2 1)
            ∃ (m : Memory) (u : State), (∀ a, m.get a = if b.aux ≤ a ∧ a < b.aux + 2 ^ 17 then taken.get (l.frame + (a - b.aux)) else taken.get a) ∧
              closes u 0 1 ((m.put l.at_ (leBytes 8 (l.entry - l.frame + b.aux))).put l.desc (leBytes 2 (n - 1)))) ∧
          (k = .cow → l.entry.testBit 2 = true → (t.mem.le l.desc 8).testBit 16 = false → n ≤ 1 →
            ∃ u, closes u 1 1 t.mem))))

/-- R331, R333 to R335: CONT and UNPARK land in one cycle: CONTPC takes the address; the lanes named that are parked are unparked,
their records leave the ring, OVF clears when that empties it, and nothing else changes. PARKRD lands a word of the fault ring, and CRESUME unparks,
gives the divergence stack, the frames and EXEC back, and goes to TRAPPC. That a pending transfer is held aside and given back
with them is the model's choice (log row 52). -/
def Obligations.Continuations : Prop :=
  ∀ (x : SR) (s : State), let A := s.operand x.a
    (s.goes (.cont x) → exec (.cont x) s = .next (s.withFlight [⟨1, [.contpc A], false⟩])) ∧
    (s.goes (.unpark x) → exec (.unpark x) s = .next (s.withFlight [⟨1, [.unpark (A.setWidth 16 &&& s.g.pmask)], false⟩])) ∧
    (∀ v, s.landOne (.contpc v) = s.updG fun g => { g with contpc := v }) ∧
    (∀ m, let gone := m &&& s.g.pmask
      let left := s.g.ring.filter fun r => !gone.getLsbD r.lane
      s.landOne (.unpark m) =
        s.updG fun g => { g with pmask := g.pmask &&& ~~~ gone, ring := left, ovf := g.ovf && left != [] }) ∧
    (s.goes (.parkrd x) → A.toNat / 16 % 2 = 1 → exec (.parkrd x) s = .next
      (s.lands 8 x.d (BitVec.ofNat 64 (s.g.ring.length + if s.g.ovf then 16 else 0)))) ∧
    (s.goes (.parkrd x) → A.toNat / 8 % 4 = 0 → ∀ r, s.g.ring[A.toNat % 8]? = some r →
      exec (.parkrd x) s = .next (s.lands 8 x.d (BitVec.ofNat 64
        (r.pc % 2 ^ 22 * 2 ^ 16 + r.slot % 8 * 2 ^ 12 + r.lane % 16 * 2 ^ 8 + r.cause.code)))) ∧
    (s.goes (.parkrd x) → A.toNat / 8 % 4 = 1 → ∀ r, s.g.ring[A.toNat % 8]? = some r →
      exec (.parkrd x) s = .next (s.lands 8 x.d r.info)) ∧
    (s.goes (.parkrd x) → A.toNat / 16 % 2 = 0 → s.g.ring[A.toNat % 8]? = none →
      exec (.parkrd x) s = .next (s.lands 8 x.d 0)) ∧
    (s.goes (.cresume x) → ∀ h, s.g.held = some h → ∃ t : State, exec (.cresume x) s = .next t ∧
      t.g.q0.ds = h.ds ∧ t.g.q0.frames = h.frames ∧ t.g.q0.exec = h.exec ∧ t.g.q0.xfer = h.xfer ∧
      t.g.q0.pc = s.g.trapPc.toNat ∧ t.g.held = none ∧ t.g.pmask = s.g.pmask &&& ~~~ (A.setWidth 16) ∧ t.cur.done = true ∧
      (∀ r, t.g.q0.reg r = s.g.q0.reg r) ∧ t.mem = s.mem)

/-! ## The tile classes (R151 to R153, R197 to R218, R237 to R242). -/

/-- R198 to R205: each float elementwise instruction lands, in every active lane, the operating shape and, at each selected
position, the encoding of the exact value that R202 tables for the decoded elements; the special functions are those of
R205. TCMP gives all ones or all zeros, and TSEL raw bits. The operations on values are the real ones (R66): finite sums and
products are exact, an exact zero has the sign R66 gives it, infinities and NaN follow it with their INVALID, and a sum of
several terms is judged as a whole; minima, maxima and the conditions are those of R204, and the special functions have the
special inputs R205 tables, with the reciprocal the exact quotient. Their other values are the next statement's. -/
def Obligations.TileArithmetic : Prop :=
  ∀ (x : VT) (y : VS) (s : State),
    let d := s.fmt x.fs
    let d' := s.fmt y.fs
    let w := widthOf (fElem d)
    let r := fRmode d
    let v := decodeElem 0 false ((s.operand y.s).toNat % 2 ^ 32)
    let lands (i : Instr) (lat : Nat) (srcs : List (BitVec 4)) (el : Lane → Nat → Nat → Nat × FlagBits) : Prop :=
      s.goes i → exec i s = .next (s.landsEach i (s.elementwise lat w x.td x.k srcs el))
    let two (f : Val → Val → Formed) : Lane → Nat → Nat → Nat × FlagBits := fun e i j =>
      encodeFormed (fElem d) d (f (decodeF d (e.elem w x.ta i j)) (decodeF d (e.elem w x.tb i j)))
    let three (f : Val → Val → Val → Formed) : Lane → Nat → Nat → Nat × FlagBits := fun e i j =>
      encodeFormed (fElem d) d
        (f (decodeF d (e.elem w x.ta i j)) (decodeF d (e.elem w x.tb i j)) (decodeF d (e.elem w x.td i j)))
    let fn (n : Nat) : Lane → Nat → Nat → Nat × FlagBits := fun e i j => special n d (e.elem w x.ta i j)
    let scalar (i : Instr) (lat : Nat) (f : Val → Formed) : Prop :=
      s.goes i → exec i s = .next (s.landsEach i (s.elementwise lat (widthOf (fElem d')) y.td y.k [y.ta] fun e i j =>
        encodeFormed (fElem d') d' (f (decodeF d' (e.elem (widthOf (fElem d')) y.ta i j)))))
    lands (.tadd x) 6 [x.ta, x.tb] (two fun a b => a.add r b) ∧
    lands (.tsub x) 6 [x.ta, x.tb] (two fun a b => a.sub r b) ∧
    lands (.tmul x) 8 [x.ta, x.tb] (two fun a b => a.mul b) ∧
    lands (.tfma x) 8 [x.ta, x.tb, x.td] (three fun a b d => sumFormed r [a.mul b, (d, 0)]) ∧
    lands (.tfms x) 8 [x.ta, x.tb, x.td] (three fun a b d => sumFormed r [(d, 0), a.negate.mul b]) ∧
    lands (.tmin x) 6 [x.ta, x.tb] (two fun a b => (a.min2 b, 0)) ∧
    lands (.tmax x) 6 [x.ta, x.tb] (two fun a b => (a.max2 b, 0)) ∧
    lands (.tabs x) 6 [x.ta] (two fun a _ => (a.abs, 0)) ∧
    lands (.tneg x) 6 [x.ta] (two fun a _ => (a.negate, 0)) ∧
    lands (.tclamp x) 6 [x.ta, x.tb, x.td] (three fun a b d => ((a.max2 d).min2 b, 0)) ∧
    lands (.tcmp x) 6 [x.ta, x.tb] (fun e i j =>
      (if valCond x.mod.toNat (decodeF d (e.elem w x.ta i j)) (decodeF d (e.elem w x.tb i j)) then 2 ^ w - 1 else 0, 0)) ∧
    lands (.tsel x) 6 [x.ta, x.tb, x.td] (fun e i j =>
      (if e.elem w x.td i j ≠ 0 then e.elem w x.ta i j else e.elem w x.tb i j, 0)) ∧
    lands (.texp2 x) 14 [x.ta] (fn 0) ∧ lands (.tlog2 x) 14 [x.ta] (fn 1) ∧ lands (.trcp x) 14 [x.ta] (fn 2) ∧
    lands (.trsq x) 14 [x.ta] (fn 3) ∧ lands (.tsqrt x) 14 [x.ta] (fn 4) ∧ lands (.ttanh x) 14 [x.ta] (fn 5) ∧
    lands (.tsigm x) 14 [x.ta] (fn 6) ∧
    scalar (.tscl y) 8 (fun a => a.mul v) ∧ scalar (.tadds y) 6 (fun a => a.add (fRmode d') v) ∧
    -- sums
    (∀ (m : Nat) (a b : Val), a.Proper → b.Proper → a.Finite → b.Finite →
      (a.add m b).2 = 0 ∧ (a.add m b).1.Finite ∧ (a.add m b).1.Proper ∧ (a.add m b).1.real = a.real + b.real ∧
      (∀ n, a = .zero n → b = .zero n → (a.add m b).1 = .zero n) ∧
      (a.real + b.real = 0 → (∀ n, ¬(a = .zero n ∧ b = .zero n)) → (a.add m b).1 = .zero (decide (m = 2)))) ∧
    (∀ (m : Nat) (n : Bool) (a : Val), a ≠ .nan → a ≠ .inf (!n) →
      (Val.inf n).add m a = (.inf n, 0) ∧ a.add m (.inf n) = (.inf n, 0)) ∧
    (∀ (m : Nat) (n : Bool), (Val.inf n).add m (.inf !n) = (.nan, 1)) ∧
    (∀ (m : Nat) (a : Val), Val.nan.add m a = (.nan, 0) ∧ a.add m .nan = (.nan, 0)) ∧
    -- differences, signs and magnitudes
    (∀ (m : Nat) (a b : Val), a.sub m b = a.add m b.negate) ∧
    (∀ a : Val, a.Finite → a.negate.Finite ∧ a.abs.Finite ∧ a.negate.real = -a.real ∧ a.abs.real = |a.real|) ∧
    (∀ n, (Val.zero n).negate = .zero (!n) ∧ (Val.zero n).abs = .zero false ∧ (Val.inf n).negate = .inf (!n) ∧
      (Val.inf n).abs = .inf false) ∧ Val.nan.negate = .nan ∧ Val.nan.abs = .nan ∧
    -- products
    (∀ a b : Val, a.Proper → b.Proper → a.Finite → b.Finite →
      (a.mul b).2 = 0 ∧ (a.mul b).1.Finite ∧ (a.mul b).1.Proper ∧ (a.mul b).1.real = a.real * b.real ∧
      (a.real * b.real = 0 → ∃ n : Bool, (a.mul b).1 = .zero n ∧ (n = true ↔ ¬(a.Minus ↔ b.Minus)))) ∧
    (∀ (n : Bool) (b : Val), b.Proper → b ≠ .nan → (∀ z, b ≠ .zero z) → ∃ p : Bool,
      (p = true ↔ ¬(n = true ↔ b.Minus)) ∧ (Val.inf n).mul b = (.inf p, 0) ∧ b.mul (.inf n) = (.inf p, 0)) ∧
    (∀ n z : Bool, (Val.inf n).mul (.zero z) = (.nan, 1) ∧ (Val.zero z).mul (.inf n) = (.nan, 1)) ∧
    (∀ a : Val, Val.nan.mul a = (.nan, 0) ∧ a.mul .nan = (.nan, 0)) ∧
    -- sums of several terms, judged as a whole
    (∀ (m : Nat) (ts : List Val), Val.inf true ∈ ts → Val.inf false ∈ ts → sumVals m ts = (.nan, 1)) ∧
    (∀ (m : Nat) (ts : List Val), Val.nan ∈ ts → ¬(Val.inf true ∈ ts ∧ Val.inf false ∈ ts) → sumVals m ts = (.nan, 0)) ∧
    (∀ (m : Nat) (n : Bool) (ts : List Val), Val.nan ∉ ts → Val.inf n ∈ ts → Val.inf (!n) ∉ ts →
      sumVals m ts = (.inf n, 0)) ∧
    (∀ (m : Nat) (ts : List Val), (∀ t ∈ ts, t.Finite ∧ t.Proper) →
      (sumVals m ts).2 = 0 ∧ (sumVals m ts).1.Finite ∧ (sumVals m ts).1.real = (ts.map Val.real).sum) ∧
    (∀ (m : Nat) (ts : List Formed), (sumFormed m ts).1 = (sumVals m (ts.map (·.1))).1 ∧
      ∀ i, (sumFormed m ts).2.getLsbD i = true ↔
        (sumVals m (ts.map (·.1))).2.getLsbD i = true ∨ ∃ t ∈ ts, t.2.getLsbD i = true) ∧
    -- minima, maxima and conditions
    (∀ a : Val, a.min2 .nan = .nan ∧ Val.nan.min2 a = .nan ∧ a.max2 .nan = .nan ∧ Val.nan.max2 a = .nan) ∧
    (∀ a b : Val, a.Proper → b.Proper → a ≠ .nan → b ≠ .nan →
      (b.Under a → a.min2 b = b) ∧ (¬b.Under a → a.min2 b = a) ∧
      (a.Under b → a.max2 b = b) ∧ (¬a.Under b → a.max2 b = a)) ∧
    (∀ a b : Val, a.Proper → b.Proper →
      let nums := a ≠ .nan ∧ b ≠ .nan
      let same := nums ∧ ¬a.Below b ∧ ¬b.Below a
      (valCond 0 a b = true ↔ same) ∧ (valCond 1 a b = true ↔ ¬same) ∧ (valCond 2 a b = true ↔ a.Below b) ∧
      (valCond 3 a b = true ↔ a.Below b ∨ same) ∧ (valCond 4 a b = true ↔ b.Below a) ∧
      (valCond 5 a b = true ↔ b.Below a ∨ same) ∧ (valCond 6 a b = true ↔ nums) ∧ (valCond 7 a b = true ↔ ¬nums)) ∧
    -- the special inputs of R205, and the reciprocal of every other number
    (∀ (f : Word) (raw : Nat),
      let is (n : Nat) (v : Val) (t : Formed) : Prop :=
        decodeF f raw = v → special n f raw = encodeFormed (fElem f) f t
      let one : Val := .num 1 0 1
      (∀ n < 7, is n .nan (.nan, 0)) ∧
      (∀ z, is 0 (.zero z) (one, 0) ∧ is 1 (.zero z) (.inf true, 2) ∧ is 2 (.zero z) (.inf z, 2) ∧
        is 3 (.zero z) (.inf z, 2) ∧ is 4 (.zero z) (.zero z, 0) ∧ is 5 (.zero z) (.zero z, 0) ∧
        is 6 (.zero z) (.num 1 (-1) 1, 0) ∧ is 2 (.inf z) (.zero z, 0)) ∧
      is 0 (.inf true) (.zero false, 0) ∧ is 0 (.inf false) (.inf false, 0) ∧ is 1 (.inf false) (.inf false, 0) ∧
      is 3 (.inf false) (.zero false, 0) ∧ is 4 (.inf false) (.inf false, 0) ∧ is 5 (.inf true) (.num (-1) 0 1, 0) ∧
      is 5 (.inf false) (one, 0) ∧ is 6 (.inf true) (.zero false, 0) ∧ is 6 (.inf false) (one, 0) ∧
      (∀ v : Val, v.real < 0 ∨ v = .inf true → is 1 v (.nan, 1) ∧ is 3 v (.nan, 1) ∧ is 4 v (.nan, 1)) ∧
      ((decodeF f raw).real ≠ 0 → ∃ t : Val, t.Finite ∧ t.Proper ∧ t.real = 1 / (decodeF f raw).real ∧
        special 2 f raw = encodeFormed (fElem f) f (t, 0)))

/-- R205: in FP32 under RNE tanh, the logistic function and 2^a of 1, 1 and 0.5 and log2 of 3 are their exact values rounded once.
Each special function of a number other than 0 lies within half a unit in the last place of its exact value under RNE,
and within one unit under the other rounding modes, wherever the exact value lies in the normal range of the destination. 2^a of
an integer, log2 of a power of two and the inverse root of a power of four are exact. Where the
model's bounds of 768 bits encode apart, which no case is known to do, and only then the value is a free one (log row 56). -/
def Obligations.SpecialFunctions : Prop :=
  (special 5 0 0x3F800000 = (0x3F42F7D6, 16) ∧ special 6 0 0x3F800000 = (0x3F3B26A8, 16) ∧
    special 0 0 0x3F000000 = (0x3FB504F3, 16) ∧ special 1 0 0x40400000 = (0x3FCAE00D, 16)) ∧
  ∀ (n : Nat) (f : Word) (raw : Nat),
    let E := fElem f
    let a := decodeF f raw
    let x : ℝ := (a.real : ℝ)
    let M : Nat := [23, 7, 10, 3, 2, 1].getD E 0
    let B : Int := [127, 127, 15, 7, 15, 1].getD E 0
    let top : ℚ := (decodeElem E false ([0x7F7FFFFF, 0x7F7F, 0x7BFF, 0x7E, 0x7B, 0x7].getD E 0)).real
    let v : ℝ := match n with
      | 0 => (2 : ℝ) ^ x
      | 1 => Real.logb 2 x
      | 2 => x⁻¹
      | 3 => (Real.sqrt x)⁻¹
      | 4 => Real.sqrt x
      | 5 => Real.tanh x
      | _ => (1 + Real.exp (-x))⁻¹
    let r := special n f raw
    n < 7 → E < 6 → a.Finite → a.real ≠ 0 →
    ((n = 1 ∨ n = 3 ∨ n = 4 → 0 < a.real) →
      (r = (Config.specialRest n E (f.toNat / 2 ^ 8 % 4) raw, 16) ∧
        (∃ lo hi, specialB n 768 a = .between lo hi ∧ encodeFloat E f lo true ≠ encodeFloat E f hi true) ∧
        (n = 0 ∧ |x| < 4096 ∨ n = 1 ∨ n = 5 ∧ |x| < 64 ∨ n = 6 ∧ |x| < 512)) ∨
      ∀ q : Int, 1 - B ≤ q → (2 : ℝ) ^ q ≤ |v| → |v| < (2 : ℝ) ^ (q + 1) → |v| ≤ (top : ℝ) →
        let y := decodeElem E false r.1
        y.Finite ∧ (f.toNat / 2 ^ 8 % 4 = 0 → |(y.real : ℝ) - v| ≤ (2 : ℝ) ^ (q - M) / 2) ∧
          |(y.real : ℝ) - v| < (2 : ℝ) ^ (q - M)) ∧
    (∀ k : Int, n = 0 → a.real = k → -4096 < k → k < 4096 → r = encodeFormed E f (.num 1 k 1, 0)) ∧
    (∀ k : Int, n = 1 → a.real = 2 ^ k → r = encodeFormed E f (Val.ofInt k, 0)) ∧
    (∀ k : Int, n = 3 → a.real = 4 ^ k → ∃ t : Val, t.Finite ∧ t.Proper ∧ t.real = 2 ^ (-k) ∧ r = encodeFormed E f (t, 0))

/-- R206: the integer and bitwise elementwise instructions. Sums and products are encoded, shifts take the count modulo the
width, and the minimum and maximum are elements as they stand. -/
def Obligations.TileIntegers : Prop :=
  ∀ (x : VT) (s : State),
    let d := s.fmt x.fs
    let w := widthOf (fElem d)
    let lands (i : Instr) (lat : Nat) (f : Nat → Nat → Nat × FlagBits) : Prop :=
      s.goes i → exec i s = .next (s.landsEach i (s.elementwise lat w x.td x.k [x.ta, x.tb] fun e i j =>
        f (e.elem w x.ta i j) (e.elem w x.tb i j)))
    let arith (f : Val → Val → Formed) (a b : Nat) : Nat × FlagBits :=
      encodeFormed (fElem d) d (f (decodeF d a) (decodeF d b))
    let sx (a : Nat) : Int := if a % 2 ^ w < 2 ^ (w - 1) then (a % 2 ^ w : Nat) else (a % 2 ^ w : Nat) - 2 ^ w
    lands (.tiadd x) 6 (arith fun a b => a.add (fRmode d) b) ∧
    lands (.tisub x) 6 (arith fun a b => a.sub (fRmode d) b) ∧
    lands (.timul x) 8 (arith fun a b => a.mul b) ∧
    lands (.tand x) 6 (fun a b => ((a &&& b) % 2 ^ w, 0)) ∧
    lands (.tor x) 6 (fun a b => ((a ||| b) % 2 ^ w, 0)) ∧
    lands (.txor x) 6 (fun a b => ((a ^^^ b) % 2 ^ w, 0)) ∧
    lands (.tshl x) 6 (fun a b => (a * 2 ^ (b % w) % 2 ^ w, 0)) ∧
    lands (.tshr x) 6 (fun a b => (a / 2 ^ (b % w) % 2 ^ w, 0)) ∧
    lands (.tsar x) 6 (fun a b => ((sx a / 2 ^ (b % w) % 2 ^ w).toNat, 0)) ∧
    lands (.timin x) 6 (fun a b => (if (decodeF d a).lt (decodeF d b) then a else b, 0)) ∧
    lands (.timax x) 6 (fun a b => (if (decodeF d a).lt (decodeF d b) then b else a, 0))

/-- R207 to R211: TCVT converts a part of each row, TMOV copies, TZERO clears and TIOTA counts in the tile's own shape, TTRN
transposes, SHAPE sets a shape tag and SHGET reads one; a shape that no tag can hold parks the engine, and those that park in one
cycle enter the ring in lane order (log row 54). The elements these and
all other tile instructions read and write are those of the number formats: decode() (R73) gives the value the fields of the
format stand for (R62, R63), and encode() (R74) rounds as R72 tables the mode, saturates, flushes, takes the special inputs
of R75 and raises the flags, for a float and for an integer format. -/
def Obligations.TileMoves : Prop :=
  ∀ (x : VT) (y : VS) (s : State),
    let d := s.fmt x.fs
    let w := widthOf (fElem d)
    let src := s.fmt (x.tb.extractLsb' 0 3)
    let ws := widthOf (fElem src)
    let g := 1024 / w
    let c := x.mod.toNat
    (s.goes (.tcvt x) → exec (.tcvt x) s = .next (s.landsEach (.tcvt x) fun l =>
      let e := s.g.lane l
      let m := min (e.rowBytes x.ta * 8 / ws - c * g) g
      let out := if m = 0 then 8 else 8 * ((m * w + 63) / 64)
      tileResult 8 w l x.td ((e.picked x.k (e.rows x.ta)).map fun i => (i, (List.range (out * 8 / w)).map fun j =>
        if j < m then encodeF (fElem d) d (decodeF src (e.elem ws x.ta i (c * g + j))) else (0, 0)))
        (some (e.rows x.ta, out)))) ∧
    (s.goes (.tmov x) → exec (.tmov x) s = .next (s.landsEach (.tmov x) fun l =>
      let e := s.g.lane l
      tileRows 6 l x.td ((e.picked x.k (e.rows x.ta)).map fun i => (i, e.row x.ta i 0 (e.rowBytes x.ta)))
        (some (e.shape x.ta)) 0)) ∧
    (s.goes (.tzero x) → exec (.tzero x) s = .next (s.landsEach (.tzero x) fun l =>
      let e := s.g.lane l
      tileRows 6 l x.td ((e.picked x.k (e.rows x.td)).map fun i => (i, List.replicate (e.rowBytes x.td) 0)) none 0)) ∧
    (s.goes (.tiota x) → exec (.tiota x) s = .next (s.landsEach (.tiota x) fun l =>
      let e := s.g.lane l
      let n := e.rowBytes x.td * 8 / w
      tileResult 6 w l x.td ((e.picked x.k (e.rows x.td)).map fun i => (i, (List.range n).map fun j =>
        encodeF (fElem d) d (Val.ofInt ((if x.mod = 0 then j else if x.mod = 1 then i else i * n + j : Nat) : Int)))) none)) ∧
    (s.goes (.ttrn x) → exec (.ttrn x) s = .next (s.eachOr (.ttrn x)
      (fun l =>
        let e := s.g.lane l
        let n := e.rowBytes x.ta * 8 / w
        if shapeOk n (e.rows x.ta * w / 8) ∧ e.rows x.ta * w % 8 = 0 then none
        else some (.shape, infoOf 2 (e.rows x.ta + n * 256)))
      (fun l t =>
        let e := s.g.lane l
        let n := e.rowBytes x.ta * 8 / w
        t.withFlight [tileResult 20 w l x.td ((e.picked x.k n).map fun j => (j, (List.range (e.rows x.ta)).map fun i =>
          (e.elem w x.ta i j, 0))) (some (n, e.rows x.ta * w / 8))]))) ∧
    (s.goes (.shape y) → exec (.shape y) s = .next (s.eachOr (.shape y)
      (fun l =>
        let v := (if y.mod = 0 then s.operand y.s else (s.g.lane l).es y.ta).toNat
        if shapeOk (v % 128) (v / 256 % 256) then none else some (.shape, infoOf 1 (v % 2 ^ 16)))
      (fun l t =>
        let v := (if y.mod = 0 then s.operand y.s else (s.g.lane l).es y.ta).toNat
        t.withFlight [tileRows 2 l y.td [] (some (v % 128, v / 256 % 256)) 0]))) ∧
    (s.goes (.shget x) → exec (.shget x) s = .next (s.landsAll (.shget x) 2 fun l =>
      .esc l x.td (BitVec.ofNat 64 ((s.g.lane l).rows x.ta + (s.g.lane l).rowBytes x.ta * 256)))) ∧
    -- the formats: width, exponent bits, mantissa bits, bias, the largest finite code, the infinity, the NaN
    (let W (f : Nat) : Nat := [32, 16, 16, 8, 8, 4, 32, 8, 8, 4].getD f 0
     let E (f : Nat) : Nat := [8, 8, 5, 4, 5, 2].getD f 0
     let M (f : Nat) : Nat := [23, 7, 10, 3, 2, 1].getD f 0
     let B (f : Nat) : Int := [127, 127, 15, 7, 15, 1].getD f 0
     let top (f : Nat) : Nat := [0x7F7FFFFF, 0x7F7F, 0x7BFF, 0x7E, 0x7B, 0x7].getD f 0
     let infinity (f : Nat) : Nat := [0x7F800000, 0x7F80, 0x7C00, 0, 0x7C].getD f 0
     let quiet (f : Nat) : Nat := [0x7FC00000, 0x7FC0, 0x7E00, 0x7F, 0x7E].getD f 0
     let lo (f : Nat) : Int := [-2147483648, -128, 0, -8].getD (f - 6) 0
     let hi (f : Nat) : Int := [2147483647, 127, 255, 7].getD (f - 6) 0
     let sb (f : Nat) (n : Bool) : Nat := if n then 2 ^ (W f - 1) else 0
     let pat (f : Nat) (i : Int) : Nat := (i % 2 ^ W f).toNat
     -- decode()
     (∀ f < 6, ∀ (ftz : Bool), ∀ b < 2 ^ W f,
       let n := b.testBit (W f - 1)
       let ex : Nat := b / 2 ^ M f % 2 ^ E f
       let mt : Nat := b % 2 ^ M f
       let v := decodeElem f ftz b
       let infs : Prop := (f = 0 ∨ f = 1 ∨ f = 2 ∨ f = 4) ∧ ex = 2 ^ E f - 1
       let nan8 : Prop := f = 3 ∧ ex = 15 ∧ mt = 7
       (infs → v = if mt = 0 then .inf n else .nan) ∧ (nan8 → v = .nan) ∧
       (¬infs → ¬nan8 → v.Finite ∧ v.Proper ∧ v.real = (if n then -1 else 1) *
         (if ex = 0 then (if ftz then 0 else (mt : ℚ) * 2 ^ (1 - B f - M f))
           else (2 ^ M f + mt : ℚ) * 2 ^ ((ex : Int) - B f - M f))) ∧
       (ex = 0 → mt = 0 ∨ ftz = true → v = .zero n)) ∧
     (∀ f, 6 ≤ f → f ≤ 9 → ∀ (ftz : Bool), ∀ b < 2 ^ W f,
       (decodeElem f ftz b).Finite ∧ (decodeElem f ftz b).Proper ∧ (b = 0 → decodeElem f ftz b = .zero false) ∧
       (decodeElem f ftz b).real = if f ≠ 8 ∧ 2 ^ (W f - 1) ≤ b then (b : ℚ) - 2 ^ W f else b) ∧
     (∀ (f : Word) (b : Nat), decodeF f b = decodeElem (f.toNat % 16) (f.getLsbD 10) (b % 2 ^ W (f.toNat % 16)) ∨
       10 ≤ f.toNat % 16) ∧
     -- encode() of a float format
     (∀ f < 6, ∀ fs : Word,
       encodeF f fs .nan = (if f = 5 then (0, 1) else (quiet f, 0)) ∧
       (∀ n, encodeF f fs (.inf n) =
         if fs.getLsbD 7 = true ∨ f = 5 then (sb f n + top f, 4)
         else if f = 3 then (quiet f, 1) else (sb f n + infinity f, 0)) ∧
       (∀ n, encodeF f fs (.zero n) = (sb f n, 0)) ∧
       (∀ (m e : Int) (k : Nat) (q : Int), m ≠ 0 → k ≠ 0 →
         let u := (Val.num m e k).real
         let neg := decide (u < 0)
         let tiny : Prop := |u| < 2 ^ (1 - B f)
         let y : ℚ := rounded (fs.toNat / 2 ^ 8 % 4) (u / 2 ^ (q - M f)) * 2 ^ (q - M f)
         let fl : FlagBits := if y = u then 0 else if |u| < 2 ^ (1 - B f) then 24 else 16
         let r := encodeF f fs (.num m e k)
         let away : Prop := fs.toNat / 2 ^ 8 % 4 = 0 ∨ (fs.toNat / 2 ^ 8 % 4 = 3 ∧ 0 < u) ∨
           (fs.toNat / 2 ^ 8 % 4 = 2 ∧ u < 0)
         let over1 : Prop := (decodeElem f false (top f)).real < |y|
         (tiny → fs.getLsbD 10 = true → r = (sb f neg, 24)) ∧
         (¬(tiny ∧ fs.getLsbD 10 = true) → (tiny ∧ q = 1 - B f) ∨ (1 - B f ≤ q ∧ 2 ^ q ≤ |u| ∧ |u| < 2 ^ (q + 1)) →
           (over1 → fs.getLsbD 7 = true ∨ f = 5 ∨ ¬away → r = (sb f neg + top f, fl ||| 20)) ∧
           (over1 → fs.getLsbD 7 = false → f ≠ 5 → away →
             r = ((if f = 3 then quiet f else sb f neg + infinity f), fl ||| 20)) ∧
           (¬over1 → r.2 = fl ∧ r.1 < 2 ^ W f ∧ (y = 0 → r.1 = sb f neg) ∧
             (y ≠ 0 → (decodeElem f false r.1).Finite ∧ (decodeElem f false r.1).real = y))))) ∧
     -- encode() of an integer format
     (∀ f, 6 ≤ f → f ≤ 9 → ∀ fs : Word,
       encodeF f fs .nan = (0, 1) ∧ encodeF f fs (.inf false) = (pat f (hi f), 1) ∧
       encodeF f fs (.inf true) = (pat f (lo f), 1) ∧ (∀ n, encodeF f fs (.zero n) = (0, 0)) ∧
       (∀ (m e : Int) (k : Nat), m ≠ 0 → k ≠ 0 →
         let u := (Val.num m e k).real
         let y := rounded (fs.toNat / 2 ^ 8 % 4) u
         let fl : FlagBits := if (y : ℚ) = u then 0 else 16
         encodeF f fs (.num m e k) =
           if fs.getLsbD 7 = true ∧ y < lo f then (pat f (lo f), fl ||| 4)
           else if fs.getLsbD 7 = true ∧ hi f < y then (pat f (hi f), fl ||| 4)
           else (pat f y, fl))) ∧
     -- a formed value brings its own flags
     (∀ (f : Nat) (fs : Word) (t : Formed),
       encodeFormed f fs t = ((encodeF f fs t.1).1, (encodeF f fs t.1).2 ||| t.2)))

/-- R212 to R214: RROT and CROT rotate, or shift with zeros; RBC and CBC broadcast the element, or the row, of an index;
RRED and CRED reduce each row, or the columns of the selected rows: the empty set gives zero bits, a sum is exact and encoded
once, and a maximum or minimum is one that no other value exceeds, NaN when any value is. -/
def Obligations.RowsAndColumns : Prop :=
  ∀ (x : VT) (y : VS) (s : State),
    let d := s.fmt x.fs
    let w := widthOf (fElem d)
    let w' := widthOf (fElem (s.fmt y.fs))
    let v := (s.operand y.s).toInt
    let from_ (n : Nat) (j : Nat) : Option Nat :=
      if y.mod = 1 then (if 0 ≤ (j : Int) - v ∧ (j : Int) - v < n then some ((j : Int) - v).toNat else none)
      else some (((j : Int) - v) % n).toNat
    (s.goes (.rrot y) → exec (.rrot y) s = .next (s.landsEach (.rrot y) fun l =>
      let e := s.g.lane l
      let n := e.rowBytes y.ta * 8 / w'
      tileResult 8 w' l y.td ((e.picked y.k (e.rows y.ta)).map fun i => (i, (List.range n).map fun j =>
        (((from_ n j).map fun p => e.elem w' y.ta i p).getD 0, 0))) (some (e.shape y.ta)))) ∧
    (s.goes (.crot y) → exec (.crot y) s = .next (s.landsEach (.crot y) fun l =>
      let e := s.g.lane l
      tileRows 16 l y.td ((e.picked y.k (e.rows y.ta)).map fun i =>
        (i, ((from_ (e.rows y.ta) i).map fun p => e.row y.ta p 0 (e.rowBytes y.ta)).getD
          (List.replicate (e.rowBytes y.ta) 0))) (some (e.shape y.ta)) 0)) ∧
    (s.goes (.rbc x) → exec (.rbc x) s = .next (s.landsEach (.rbc x) fun l =>
      let e := s.g.lane l
      let n := e.rowBytes x.ta * 8 / w
      tileResult 8 w l x.td ((e.picked x.k (e.rows x.ta)).map fun i => (i, (List.range n).map fun _ =>
        (e.elem w x.ta i ((e.es x.tb).toNat % 256 % n), 0))) (some (e.shape x.ta)))) ∧
    (s.goes (.cbc x) → exec (.cbc x) s = .next (s.landsEach (.cbc x) fun l =>
      let e := s.g.lane l
      tileRows 16 l x.td ((e.picked x.k (e.rows x.ta)).map fun i =>
        (i, e.row x.ta ((e.es x.tb).toNat % 256 % e.rows x.ta) 0 (e.rowBytes x.ta))) (some (e.shape x.ta)) 0)) ∧
    (s.goes (.rred x) → exec (.rred x) s = .next (s.landsEach (.rred x) fun l =>
      let e := s.g.lane l
      let n := e.rowBytes x.ta * 8 / w
      let res := (e.picked x.k (e.rows x.ta)).map fun i =>
        (i, reduceVals x.mod.toNat d ((List.range n).map fun j => decodeF d (e.elem w x.ta i j)))
      tileRows 8 l x.td (res.map fun r => (r.1, leBytes 8 r.2.1)) (some (e.rows x.ta, 8))
        ((res.map (·.2.2)).foldl (· ||| ·) 0))) ∧
    (s.goes (.cred x) → exec (.cred x) s = .next (s.landsEach (.cred x) fun l =>
      let e := s.g.lane l
      let n := e.rowBytes x.ta * 8 / w
      let res := (List.range n).map fun j =>
        reduceVals x.mod.toNat d ((e.picked x.k (e.rows x.ta)).map fun i => decodeF d (e.elem w x.ta i j))
      tileRows 16 l x.td ((0, bytesOfElems w (res.map (·.1))) :: [1, 2, 3].map fun i =>
        (i, List.replicate (e.rowBytes x.ta) 0)) (some (4, e.rowBytes x.ta)) ((res.map (·.2)).foldl (· ||| ·) 0))) ∧
    -- the reductions
    (∀ (op : Nat) (f : Word), op < 4 → reduceVals op f [] = (0, 0)) ∧
    (∀ (f : Word) (ts : List Val), ts ≠ [] →
      reduceVals 0 f ts = encodeFormed (fElem f) f (sumVals (fRmode f) ts)) ∧
    (∀ (op : Nat) (f : Word) (ts : List Val), 1 ≤ op → op < 4 → Val.nan ∈ ts →
      reduceVals op f ts = encodeFormed (fElem f) f (.nan, 0)) ∧
    (∀ (f : Word) (ts : List Val), ts ≠ [] → (∀ t ∈ ts, t ≠ .nan ∧ t.Proper) →
      (∃ t ∈ ts, (∀ u ∈ ts, ¬t.Under u) ∧ reduceVals 1 f ts = encodeFormed (fElem f) f (t, 0)) ∧
      (∃ t ∈ ts, (∀ u ∈ ts, ¬u.Under t) ∧ reduceVals 2 f ts = encodeFormed (fElem f) f (t, 0)) ∧
      (∃ t ∈ ts, (∀ u ∈ ts, ¬t.abs.Under u.abs) ∧ reduceVals 3 f ts = encodeFormed (fElem f) f (t.abs, 0)))

/-- R215: the row masks. KCMP compares element 0 of each selected row, KOP combines two masks by the functions of R117, KSET
sets one from a word, a count or an engine scalar, and KCNT counts the rows of one. -/
def Obligations.RowMasks : Prop :=
  ∀ (x : VT) (y : VS) (s : State),
    let d := s.fmt x.fs
    let w := widthOf (fElem d)
    (s.goes (.kcmp x) → ∃ M : Nat → Word,
      exec (.kcmp x) s = .next (s.landsAll (.kcmp x) 8 fun l => .kmask l (x.td.extractLsb' 0 3) (M l)) ∧
      ∀ l, ∀ i < 64, let e := s.g.lane l
        (M l).getLsbD i = (decide (i < min (e.rows x.ta) (e.rows x.tb)) && (e.mask x.k).getLsbD i &&
          valCond x.mod.toNat (decodeF d (e.elem w x.ta i 0)) (decodeF d (e.elem w x.tb i 0)))) ∧
    (s.goes (.kop x) → ∃ M : Nat → Word,
      exec (.kop x) s = .next (s.landsAll (.kop x) 2 fun l => .kmask l (x.td.extractLsb' 0 3) (M l)) ∧
      ∀ l, ∀ i < 64, let e := s.g.lane l
        ((M l).getLsbD i = true ↔ Fun117 x.mod.toNat ((e.mask (x.ta.extractLsb' 0 3)).getLsbD i = true)
          ((e.mask (x.tb.extractLsb' 0 3)).getLsbD i = true))) ∧
    (s.goes (.kset y) → y.mod = 0 → exec (.kset y) s = .next (s.landsAll (.kset y) 2 fun l =>
      .kmask l (y.td.extractLsb' 0 3) (s.operand y.s))) ∧
    (s.goes (.kset y) → y.mod = 1 → ∃ M : Word,
      exec (.kset y) s = .next (s.landsAll (.kset y) 2 fun l => .kmask l (y.td.extractLsb' 0 3) M) ∧
      ∀ i < 64, M.getLsbD i = decide (i < (s.operand y.s).toNat)) ∧
    (s.goes (.kset y) → y.mod = 2 → exec (.kset y) s = .next (s.landsAll (.kset y) 2 fun l =>
      .kmask l (y.td.extractLsb' 0 3) ((s.g.lane l).es y.ta))) ∧
    (s.goes (.kcnt x) → exec (.kcnt x) s = .next (s.landsAll (.kcnt x) 2 fun l =>
      .esc l x.td (BitVec.ofNat 64 ((List.range 64).countP fun i => ((s.g.lane l).mask (x.ta.extractLsb' 0 3)).getLsbD i))))

/-- R217, R218: the engine-scalar class; shift counts are modulo 64. EMOVT reads an element of a tile, 0 outside its shape,
and ETMOV writes one, and nothing outside its shape. -/
def Obligations.EngineScalars : Prop :=
  ∀ (x : VT) (s : State),
    let a (l : Nat) : Word := (s.g.lane l).es x.ta
    let b (l : Nat) : Word := (s.g.lane l).es x.tb
    let w := widthOf (fElem (s.fmt x.fs))
    let row (l : Nat) := (b l).toNat % 64
    let col (l : Nat) := (b l).toNat / 256 % 256
    let inside (l : Nat) (t : BitVec 4) : Prop :=
      row l < (s.g.lane l).rows t ∧ col l < (s.g.lane l).rowBytes t * 8 / w
    let gives (i : Instr) (f : Nat → Word) : Prop :=
      s.goes i → exec i s = .next (s.landsAll i 2 fun l => .esc l x.td (f l))
    gives (.eadd x) (fun l => a l + b l) ∧ gives (.esub x) (fun l => a l - b l) ∧ gives (.emul x) (fun l => a l * b l) ∧
    gives (.eand x) (fun l => a l &&& b l) ∧ gives (.eor x) (fun l => a l ||| b l) ∧
    gives (.eshl x) (fun l => BitVec.ofNat 64 ((a l).toNat * 2 ^ ((b l).toNat % 64))) ∧
    (x.mod = 0 → gives (.eshr x) fun l => BitVec.ofNat 64 ((a l).toNat / 2 ^ ((b l).toNat % 64))) ∧
    (x.mod = 1 → gives (.eshr x) fun l => BitVec.ofInt 64 ((a l).toInt / 2 ^ ((b l).toNat % 64))) ∧
    (x.mod = 0 → gives (.emin x) fun l => if (a l).toInt ≤ (b l).toInt then a l else b l) ∧
    (x.mod = 1 → gives (.emin x) fun l => if (a l).toNat ≤ (b l).toNat then a l else b l) ∧
    (x.mod = 0 → gives (.emax x) fun l => if (a l).toInt ≤ (b l).toInt then b l else a l) ∧
    (x.mod = 1 → gives (.emax x) fun l => if (a l).toNat ≤ (b l).toNat then b l else a l) ∧
    gives (.esel x) (fun l => if (s.g.lane l).c.getLsbD (x.mod.toNat % 4) then a l else b l) ∧
    (x.mod = 0 → gives (.eid x) fun l => BitVec.ofNat 64 l) ∧
    (x.mod = 1 → gives (.eid x) fun l => BitVec.ofNat 64 (s.g.engine l)) ∧
    (s.goes (.ecmp x) → ∃ C : Nat → Bool,
      exec (.ecmp x) s = .next (s.landsAll (.ecmp x) 2 fun l => .cond l (x.td.extractLsb' 0 2) (C l)) ∧
      ∀ l, (C l = true ↔ Cond116 x.mod.toNat (a l) (b l))) ∧
    (s.goes (.emovt x) → ∃ V : Nat → Word,
      exec (.emovt x) s = .next (s.landsAll (.emovt x) 6 fun l => .esc l x.td (V l)) ∧
      ∀ l, (¬inside l x.ta → V l = 0) ∧
        (inside l x.ta → x.mod = 0 → V l = BitVec.ofNat 64 ((s.g.lane l).elem w x.ta (row l) (col l))) ∧
        (inside l x.ta → x.mod = 1 →
          V l = (BitVec.ofNat w ((s.g.lane l).elem w x.ta (row l) (col l))).signExtend 64)) ∧
    (s.goes (.etmov x) → exec (.etmov x) s = .next ((s.occupy (.etmov x)).withFlight
      ((s.actives.filter fun l => (s.g.lane l).inShape w x.td (row l, col l)).map fun l => ⟨6,
        [if w = 4 then .nibble l x.td (128 * row l + col l / 2) (col l % 2 == 1) ((a l).toNat % 16)
          else .tile l x.td [(128 * row l + col l * (w / 8), leBytes (w / 8) ((a l).toNat % 2 ^ w))] none], false⟩)))

/-- R238 to R241: the gang exchanges. GSHUF, GBC and GROT give every active lane the tile of a valid source with c3 clear,
or the fill with c3 set; GRED gives every active lane the reduction over the active lanes; GCOMP packs the selected rows. That
GRED raises in each lane the flags of the rows its own mask selects is the model's choice (log row 54). -/
def Obligations.Exchanges : Prop :=
  ∀ (x : VT) (y : VS) (s : State),
    let d := s.fmt x.fs
    let w := widthOf (fElem d)
    let w' := widthOf (fElem (s.fmt y.fs))
    let give (lat w : Nat) (td ta : BitVec 4) (k : BitVec 3) (src : Int) (fill : Nat) (l : Nat) : Landing :=
      let from_ := s.g.lane src.toNat
      let e := s.g.lane l
      if 0 ≤ src ∧ src < s.g.info.width ∧ s.act.getLsbD src.toNat = true then
        ⟨lat, [.tile l td ((e.picked k (from_.rows ta)).map fun i => (128 * i, from_.row ta i 0 (from_.rowBytes ta)))
          (some (from_.shape ta)), .cond l 3 false], false⟩
      else
        ⟨lat, [.tile l td ((e.picked k (e.rows ta)).map fun i => (128 * i, bytesOfElems w
          (List.replicate (e.rowBytes ta * 8 / w) (fill % 2 ^ w)))) (some (e.shape ta)), .cond l 3 true], false⟩
    let v := (s.operand y.s).toNat
    let step : Int := ((s.operand y.s).extractLsb' 0 8).toInt
    let bytes := (s.actives.map fun l => (s.g.lane l).rowBytes x.ta).foldl min 128
    let rows := (s.actives.map fun l => (s.g.lane l).rows x.ta).foldl min 64
    let red (i : Nat) := (List.range (bytes * 8 / w)).map fun j => reduceVals x.mod.toNat d
      ((s.actives.filter fun l => ((s.g.lane l).mask x.k).getLsbD i).map fun l => decodeF d ((s.g.lane l).elem w x.ta i j))
    let packed := (s.actives.map fun l => ((s.g.lane l).picked x.k ((s.g.lane l).rows x.ta)).map fun i =>
      (s.g.lane l).row x.ta i 0 bytes).flatten
    (s.goes (.gshuf x) → exec (.gshuf x) s = .next (s.landsEach (.gshuf x) fun l =>
      let u := ((s.g.lane l).es x.tb).toNat
      give 24 w x.td x.ta x.k ((u % 16 : Nat) : Int) (u / 2 ^ 32) l)) ∧
    (s.goes (.gbc y) → exec (.gbc y) s = .next (s.landsEach (.gbc y) fun l =>
      give 20 w' y.td y.ta y.k ((v % 16 : Nat) : Int) (v / 2 ^ 32) l)) ∧
    (s.goes (.grot y) → y.mod = 0 → exec (.grot y) s = .next (s.landsEach (.grot y) fun l =>
      give 20 w' y.td y.ta y.k (((l : Int) - step) % s.g.info.width) (v / 2 ^ 32) l)) ∧
    (s.goes (.grot y) → y.mod = 1 → exec (.grot y) s = .next (s.landsEach (.grot y) fun l =>
      give 20 w' y.td y.ta y.k ((l : Int) - step) (v / 2 ^ 32) l)) ∧
    (s.goes (.gred x) → exec (.gred x) s = .next (s.landsEach (.gred x) fun l =>
      tileRows 40 l x.td ((List.range rows).map fun i => (i, bytesOfElems w ((red i).map (·.1)))) (some (rows, bytes))
        (((((s.g.lane l).picked x.k rows).map red).flatten.map (·.2)).foldl (· ||| ·) 0))) ∧
    (s.goes (.gcomp x) → exec (.gcomp x) s = .next ((s.occupy (.gcomp x)).withFlight (s.actives.zipIdx.map fun a =>
      let m := min 64 (packed.length - 64 * a.2)
      let n := max 4 (4 * ((m + 3) / 4))
      ⟨32, [.tile a.1 x.td ((List.range n).map fun i =>
          (128 * i, if i < m then packed.getD (64 * a.2 + i) [] else List.replicate bytes 0)) (some (n, bytes)),
        .esc a.1 x.tb (BitVec.ofNat 64 (m + packed.length * 2 ^ 16 + a.2 * 2 ^ 32))], false⟩)))

/-- R151 to R153, R168: the local accesses. A lane whose offset is misaligned or leaves its allocation parks with ALIGN or PROT,
and one of TLDK whose header announces no shape with SHAPE, in lane order where several do (log row 54); any other lane loads or stores: TLD, TLDK and LDE land at their
latencies, TST and STE write at issue the bytes the statement names and no other. A write leaves a record, of its gang's and
published to no place, of what other agents may still find until the gang publishes. -/
def Obligations.LocalAccesses : Prop :=
  ∀ (x : VS) (s : State),
    let off (l : Nat) : Nat := (s.operand x.s + (s.g.lane l).es x.ta).toNat
    let pitch (bytes : Nat) : Nat := if x.mod = 1 then bytes else 128
    let bad (align : Nat) (n : Nat → Nat) (l : Nat) : Option (Cause × Word) :=
      if off l % align ≠ 0 then some (.align, infoOf 1 (off l % 2 ^ 56))
      else if s.g.info.spBytes < off l + n l then some (.prot, infoOf 5 (off l % 2 ^ 56)) else none
    let tile (l : Nat) : Nat := (s.g.lane l).rows x.td * pitch ((s.g.lane l).rowBytes x.td)
    let sz := 2 ^ x.mod.toNat
    (s.goes (.tld x) → exec (.tld x) s = .next (s.eachOr (.tld x) (bad 64 tile) fun l t =>
      let e := s.g.lane l
      t.withFlight [⟨12, [.tile l x.td ((e.picked x.k (e.rows x.td)).map fun i => (128 * i,
        s.mem.bytes (s.g.localKey l (off l + i * pitch (e.rowBytes x.td))) (e.rowBytes x.td))) none], false⟩])) ∧
    let header (l : Nat) : Nat := leValue (s.mem.bytes (s.g.localKey l (off l)) 8)
    let kept (us : List Unseen) : Prop := ∃ new, us = new ++ s.unseen ∧
      ∀ r ∈ new, r.gid = s.g.gid ∧ r.pid = none ∧ r.reach = [] ∧ r.ring = false
    (s.goes (.tst x) → ∃ us, kept us ∧ exec (.tst x) s = .next { (s.eachOr (.tst x) (bad 64 tile) fun l t =>
      let e := s.g.lane l
      { t with mem := (e.picked x.k (e.rows x.td)).foldl (fun m i =>
        m.put (s.g.localKey l (off l + i * pitch (e.rowBytes x.td))) (e.row x.td i 0 (e.rowBytes x.td))) t.mem }) with
      unseen := us }) ∧
    (s.goes (.tldk x) → exec (.tldk x) s = .next (s.eachOr (.tldk x)
      (fun l => (bad 64 (fun _ => 64) l).orElse fun _ =>
        let h := header l
        if h < 2 ^ 16 ∧ h % 256 < 128 ∧ shapeOk (h % 128) (h / 256) = true then
          bad 64 (fun _ => 64 + h % 128 * pitch (h / 256)) l
        else some (.shape, infoOf 6 (h % 2 ^ 56)))
      fun l t => t.withFlight [⟨12, [.tile l x.td (((s.g.lane l).picked x.k (header l % 128)).map fun i => (128 * i,
        s.mem.bytes (s.g.localKey l (off l + 64 + i * pitch (header l / 256))) (header l / 256)))
        (some (header l % 128, header l / 256))], false⟩])) ∧
    (s.goes (.lde x) → exec (.lde x) s = .next (s.eachOr (.lde x) (bad sz fun _ => sz) fun l t =>
      let v := leValue (s.mem.bytes (s.g.localKey l (off l)) sz)
      t.withFlight [⟨8, [.esc l x.td
        (if x.fs.getLsbD 0 then (BitVec.ofNat (8 * sz) v).signExtend 64 else BitVec.ofNat 64 v)], false⟩])) ∧
    (s.goes (.ste x) → ∃ us, kept us ∧ exec (.ste x) s = .next { (s.eachOr (.ste x) (bad sz fun _ => sz) fun l t =>
      { t with mem := t.mem.put (s.g.localKey l (off l)) (leBytes sz ((s.g.lane l).es x.td).toNat) }) with unseen := us })

/-! ## The matrix class, the X slot and the engine accesses (R149, R175 to R194, R219 to R234, R257 to R264). -/

/-- R76, R77, R221, R224, R225: MMA, MMAZ and MMAT schedule the words of the operating size, from the accumulator as every
write accepted before leaves it, and an engine whose K is not a multiple of the chunk parks with SHAPE. An engine with
nothing in flight is read as it stands, and a word in flight for an accumulator is read there. Integer words without
saturation are the sum modulo 2^32, and with it each chunk's sum stops at the ends of the range with OVERFLOW. Other words
are the chunked sums of R76, with the scales that vary along k inside the sum and the others multiplying it. That a sum
starts from +0, and how a NaN scale stands beside an INVALID, are the model's readings of R66 and R76 (log row 55), and so is the
lane order in which engines that park together enter the ring (log row 54). -/
def Obligations.DenseProducts : Prop :=
  ∀ (x : MF) (s : State),
    let fa := s.fmt x.fsA
    let fb := s.fmt x.fsB
    let wa := widthOf (fElem fa)
    let wb := widthOf (fElem fb)
    let chunk := if max wa wb = 16 then 8 else if max wa wb = 8 then 16 else 32
    let lat := if max wa wb = 16 then 136 else if max wa wb = 8 then 72 else 40
    let nA (l : Nat) := (s.g.accLane l).rowBytes x.ta * 8 / wa
    let nB (l : Nat) := (s.g.accLane l).rowBytes x.tb * 8 / wb
    let A (l i k : Nat) := decodeF fa ((s.g.accLane l).elem wa x.ta i k)
    let B (l k j : Nat) := decodeF fb ((s.g.accLane l).elem wb x.tb k j)
    let int : Prop := isInt (fElem fa) = true ∧ isInt (fElem fb) = true ∧ fSmode fa = 0 ∧ fSmode fb = 0
    let one := Val.ofInt 1
    let rA : BitVec 2 := if x.mod.getLsbD 0 then 2 else 0
    let rB : BitVec 2 := if x.mod.getLsbD 0 then 3 else 1
    let SA (l i k : Nat) := (s.g.accLane l).scaleAt rA fa false i k
    let product (i : Instr) (zero : Bool) (K N : Nat → Nat) (B SB : Nat → Nat → Nat → Val) (bAlong : Bool) : Prop :=
      s.goes i → ∃ C : Nat → Nat → Nat → Nat × FlagBits,
        exec i s = .next (s.eachOr i
          (fun l => if K l % chunk = 0 then none else some (.shape, infoOf 3 (K l + chunk * 256)))
          (fun l t => t.landsWords lat l x.acc (((s.g.accLane l).picked x.k ((s.g.accLane l).rows x.ta)).map fun r =>
            (r, 0, (List.range (N l)).map fun j => C l r j)))) ∧
        ∀ l r j, K l % chunk = 0 → r < (s.g.accLane l).rows x.ta → j < N l →
          let old := if zero then 0 else (s.g.accLane l).accWord x.acc r j
          let overInts (c : Nat) := ((List.range chunk).map fun k =>
            intVal (A l r (c * chunk + k)) * intVal (B l (c * chunk + k) j)).sum
          let aAlong := decide (fSmode fa = 2)
          (int → fSat fa = false → C l r j = (((sextNat old 32 +
            ((List.range (K l)).map fun k => intVal (A l r k) * intVal (B l k j)).sum) % 2 ^ 32).toNat, 0)) ∧
          (int → fSat fa = true → C l r j = (List.range (K l / chunk)).foldl (fun acc c =>
            let v := sextNat acc.1 32 + overInts c
            if v < -2 ^ 31 then (0x80000000, acc.2 ||| fOverflow)
            else if 2 ^ 31 ≤ v then (0x7FFFFFFF, acc.2 ||| fOverflow)
            else ((v % 2 ^ 32).toNat, acc.2)) (old, 0)) ∧
          (¬int → fSmode fa = 0 → fSmode fb = 0 →
            C l r j = chunkSums old (K l / chunk) fun c => (List.range chunk).map fun k =>
              (A l r (c * chunk + k)).mul (B l (c * chunk + k) j)) ∧
          (¬int → C l r j = (List.range (K l / chunk)).foldl (fun acc c =>
            chunkFloat acc
              ((List.range chunk).flatMap fun k => scaledProd
                (A l r (c * chunk + k)) (if aAlong then SA l r (c * chunk + k) else one)
                (B l (c * chunk + k) j) (if bAlong then SB l (c * chunk + k) j else one))
              (if aAlong then one else SA l r (c * chunk)) (if bAlong then one else SB l (c * chunk) j)) (old, 0))
    let K (l : Nat) := min (min (nA l) ((s.g.accLane l).rows x.tb)) 64
    let SB (l k j : Nat) := (s.g.accLane l).scaleAt rB fb true k j
    product (.mma x) false K (fun l => min (nB l) 64) B SB (decide (fSmode fb = 1)) ∧
    product (.mmaz x) true K (fun l => min (nB l) 64) B SB (decide (fSmode fb = 1)) ∧
    product (.mmat x) false (fun l => min (min (nA l) (nB l)) 64) (fun l => (s.g.accLane l).rows x.tb)
      (fun l k j => B l j k) (fun l k j => (s.g.accLane l).scaleAt rB fb false j k) (decide (fSmode fb = 2)) ∧
    (s.g.fl = [] → ∀ l, s.g.accLane l = s.g.lane l) ∧
    (∀ l a r j v n b, (s.g.lane l).store.wf = true → v < 2 ^ 32 →
      s.g.fl = [⟨n, [.acc l a [(256 * r + 4 * j, leBytes 4 v)]], b⟩] → r < 64 → j < 64 →
      ∀ r' j', r' < 64 → j' < 64 → (s.g.accLane l).accWord a r' j' =
        if r' = r ∧ j' = j then v else (s.g.lane l).accWord a r' j')

/-- R227, R229: MMAS multiplies the kept elements that the metadata places, and an engine with an illegal pair parks with
SPMETA; SQD sums the squares of differences. A K that is not a multiple of 8 parks with SHAPE. That the sums start from +0
is the model's reading of R76 (log row 55), and that engines which park together enter the ring in lane order its choice (log
row 54). -/
def Obligations.SparseAndDistances : Prop :=
  ∀ (x : MF) (s : State),
    let fa := s.fmt x.fsA
    let fb := s.fmt x.fsB
    let wa := widthOf (fElem fa)
    let wb := widthOf (fElem fb)
    let nA (l : Nat) := (s.g.accLane l).rowBytes x.ta * 8 / wa
    let nB (l : Nat) := (s.g.accLane l).rowBytes x.tb * 8 / wb
    let A (l i k : Nat) := decodeF fa ((s.g.accLane l).elem wa x.ta i k)
    let B (l k j : Nat) := decodeF fb ((s.g.accLane l).elem wb x.tb k j)
    let sc : BitVec 2 := x.mod.extractLsb' 0 2
    let pair (l i g : Nat) : Nat × Nat :=
      let m := (s.g.accLane l).store.le (0x3_0000 + 0x200 * sc.toNat + 8 * i) 8 / 16 ^ g % 16
      (m % 4, m / 4)
    let rows (l : Nat) := (s.g.accLane l).picked x.k ((s.g.accLane l).rows x.ta)
    let K (l : Nat) := min (min (2 * nA l) ((s.g.accLane l).rows x.tb)) 64
    let K' (l : Nat) := min (min (nA l) (nB l)) 64
    let words (l : Nat) (n : Nat) (C : Nat → Nat → Nat × FlagBits) : List (Nat × Nat × List (Nat × FlagBits)) :=
      (rows l).map fun r => (r, 0, (List.range n).map fun j => C r j)
    (s.goes (.mmas x) → exec (.mmas x) s = .next (s.eachOr (.mmas x)
      (fun l =>
        if K l % 8 ≠ 0 then some (.shape, infoOf 3 (K l + 8 * 256))
        else ((rows l).findSome? fun i => ((List.range (K l / 4)).find? fun g =>
          decide ((pair l i g).2 ≤ (pair l i g).1)).map fun g => (i, g)).map fun p => (.spmeta, infoOf 1 (p.1 + p.2 * 256)))
      (fun l t => t.landsWords 72 l x.acc (words l (min (nB l) 64) fun r j =>
        chunkSums ((s.g.accLane l).accWord x.acc r j) (K l / 8) fun c => [2 * c, 2 * c + 1].flatMap fun g =>
          [(A l r (2 * g)).mul (B l (4 * g + (pair l r g).1) j),
            (A l r (2 * g + 1)).mul (B l (4 * g + (pair l r g).2) j)])))) ∧
    (s.goes (.sqd x) → exec (.sqd x) s = .next (s.eachOr (.sqd x)
      (fun l => if K' l % 8 = 0 then none else some (.shape, infoOf 3 (K' l + 8 * 256)))
      (fun l t => t.landsWords 140 l x.acc (words l ((s.g.accLane l).rows x.tb) fun r j =>
        chunkSums (if x.mod.getLsbD 0 then (s.g.accLane l).accWord x.acc r j else 0) (K' l / 8) fun c =>
          (List.range 8).map fun k =>
            let d := (A l r (8 * c + k)).sub 0 (B l j (8 * c + k))
            ((d.1.mul d.1).1, d.2 ||| (d.1.mul d.1).2)))))

/-- R228, R230, R257, R258: PRUNE keeps two elements of each group of four with their metadata, TOPK lands the columns of
each row in order, HSIGN packs the signs of columns, and HIDX lands the bucket indices of its enabled entries. A lane whose
row length, control word or first bad entry breaks the instruction's rules parks with SHAPE and the other lanes do their
part. Those kept are the two of greatest magnitude, a NaN above every number, the lower index first among equals; TOPK sorts its
columns by their numbers, NaN last, equal ones in rising order; the words and entries have the ranges R230, R257 and R258 table.
That lanes which park together enter the ring in lane order is the model's choice (log row 54). -/
def Obligations.MatrixSelections : Prop :=
  ∀ (x : MF) (s : State),
    let sc : BitVec 2 := x.mod.extractLsb' 0 2
    let elem (l i j : Nat) := (s.g.lane l).elem 16 x.ta i j
    let kept (l i g : Nat) := keptOf ((List.range 4).map fun p =>
      decodeElem (fElem (s.fmt x.fsA)) false (elem l i (4 * g + p)))
    let ctl (l : Nat) := ((s.g.lane l).es x.ta).toNat
    let cnt := 4 * 2 ^ (x.mod.extractLsb' 1 2).toNat
    let each (f : Nat → Landing) (l : Nat) (t : State) : State := t.withFlight [f l]
    let entry (l h : Nat) := (s.g.lane l).store.le (0x3_0000 + 0x200 * sc.toNat + 8 * h) 8
    let badEntry (l : Nat) := (List.range 16).find? fun h => s.hidxBad (entry l h)
    (s.goes (.prune x) → exec (.prune x) s = .next (s.eachOr (.prune x)
      (fun l => if (s.g.lane l).rowBytes x.ta % 16 = 0 then none
        else some (.shape, infoOf 4 ((s.g.lane l).rowBytes x.ta)))
      (each fun l =>
        let e := s.g.lane l
        let n := e.rowBytes x.ta / 8
        let rows := e.picked x.k (e.rows x.ta)
        ⟨24, [.tile l x.tb (rows.map fun i => (128 * i, bytesOfElems 16 ((List.range n).flatMap fun g =>
            (kept l i g).map fun p => elem l i (4 * g + p)))) (some (e.rows x.ta, e.rowBytes x.ta / 2)),
          .scale l sc (rows.map fun i => (8 * i, leBytes 8 ((List.range n).map fun g =>
            ((kept l i g).getD 0 0 + 4 * (kept l i g).getD 1 0) * 16 ^ g).sum))], true⟩))) ∧
    (s.goes (.topk x) → exec (.topk x) s = .next (s.eachOr (.topk x)
      (fun l => if topkOk (ctl l) then none else some (.shape, infoOf 5 (ctl l % 2 ^ 16)))
      (each fun l =>
        let e := s.g.lane l
        let n := ctl l % 128
        (tileRows 48 l x.tb ((e.picked x.k (ctl l / 256)).map fun i =>
          let order := (List.range n).foldl
            (fun a j => insertKey (topBefore (x.mod.getLsbD 0)) ((s.g.accLane l).accVal x.acc i j, j) a) []
          (i, bytesOfElems 32 ((List.range cnt).map fun r => if r < n then (order.map (·.2)).getD r 0 else 0xFFFFFFFF)))
          (some (ctl l / 256, 4 * cnt)) 0).ofM))) ∧
    (s.goes (.hsign x) → ∃ code : Nat → Nat → Nat, exec (.hsign x) s = .next (s.eachOr (.hsign x)
      (fun l => if hsignOk (ctl l) then none else some (.shape, infoOf 0x21 (ctl l % 2 ^ 56)))
      (each fun l =>
        ⟨16, [.tile l x.tb (((s.g.lane l).picked x.k (ctl l / 2 ^ 24)).map fun i =>
          (128 * i + 4 * (ctl l / 2 ^ 16 % 32), leBytes 4 (code l i))) (some (ctl l / 2 ^ 24, 128))], true⟩)) ∧
      ∀ l i j, (code l i).testBit j =
        (decide (j < ctl l % 32) && atLeastZero ((s.g.accLane l).accVal x.acc i (ctl l / 2 ^ 8 % 64 + j)))) ∧
    (s.goes (.hidx x) → exec (.hidx x) s = .next (s.eachOr (.hidx x)
      (fun l => (badEntry l).map fun h => (.shape, infoOf 0x22 h))
      (each fun l =>
        let e := s.g.lane l
        let on := (List.range 16).filter fun h => (entry l h).testBit 63
        ⟨8, [.tile l x.tb ((e.picked x.k (e.rows x.ta)).flatMap fun i => on.map fun h =>
          let fam := s.family s.myDie (entry l h % 16)
          let code := BitVec.ofNat 32 (e.elem 32 x.ta i (entry l h / 2 ^ 16 % 32) % 2 ^ fam.2)
          (128 * i + 4 * (entry l h / 2 ^ 24 % 32),
            leBytes 4 (((code ^^^ fam.1) * 0x9E3779B1).toNat / 2 ^ (32 - entry l h / 2 ^ 8 % 32))))
          (some (e.rows x.ta, 128))], true⟩))) ∧
    -- the two kept of a group
    (∀ vs : List Val, vs.length = 4 → (∀ v ∈ vs, v.Proper) →
      let v (p : Nat) : Val := vs.getD p .nan
      let above (p q : Nat) : Prop := v p = .nan ∧ v q ≠ .nan ∨ v p ≠ .nan ∧ v q ≠ .nan ∧ (v q).abs.Below (v p).abs
      ∃ p0 p1, p0 < p1 ∧ p1 < 4 ∧ keptOf vs = [p0, p1] ∧
        ∀ q < 4, q ≠ p0 → q ≠ p1 → ∀ p ∈ [p0, p1], above p q ∨ (¬above q p ∧ p < q)) ∧
    -- the order of TOPK
    (∀ (desc : Bool) (n : Nat) (v : Nat → Val), (∀ j, (v j).Proper) →
      let before (a b : Val) : Prop := a ≠ .nan ∧ b = .nan ∨ if desc then b.Below a else a.Below b
      let order := (List.range n).foldl (fun a j => insertKey (topBefore desc) (v j, j) a) []
      (order.map (·.2)).Perm (List.range n) ∧ (∀ a ∈ order, a.1 = v a.2) ∧
        order.Pairwise fun a b => ¬before b.1 a.1 ∧ (¬before a.1 b.1 → a.2 < b.2)) ∧
    -- the ranges
    (∀ c : Nat, topkOk c = true ↔ c < 2 ^ 16 ∧ c / 2 ^ 7 % 2 = 0 ∧ 4 ≤ c / 2 ^ 8 ∧ c / 2 ^ 8 ≤ 64 ∧ c / 2 ^ 8 % 4 = 0 ∧
      1 ≤ c % 128 ∧ c % 128 ≤ 64) ∧
    (∀ c : Nat, hsignOk c = true ↔ c < 2 ^ 31 ∧ c / 2 ^ 21 % 8 = 0 ∧ c / 2 ^ 14 % 4 = 0 ∧ c / 2 ^ 5 % 8 = 0 ∧
      4 ≤ c / 2 ^ 24 ∧ c / 2 ^ 24 ≤ 64 ∧ c / 2 ^ 24 % 4 = 0 ∧ c / 2 ^ 8 % 64 + c % 32 ≤ 64 ∧ 8 ≤ c % 32 ∧ c % 32 ≤ 24) ∧
    (∀ v : Val, v.Proper → (atLeastZero v = true ↔ v ≠ .nan ∧ ¬v.Below (.zero false))) ∧
    (∀ w < 2 ^ 64, s.hidxBad w = true ↔ 2 ^ 63 ≤ w ∧ (w / 2 ^ 29 % 2 ^ 34 ≠ 0 ∨ w / 2 ^ 21 % 8 ≠ 0 ∨ w / 2 ^ 13 % 8 ≠ 0 ∨
      w / 2 ^ 4 % 16 ≠ 0 ∨ w / 2 ^ 8 % 32 < 4 ∨ 24 < w / 2 ^ 8 % 32 ∨ (s.family s.myDie (w % 16)).2 = 0))

/-- R221, R231 to R234: ACCRD lands converted words in a tile, ACCWR lands a tile's elements as words, ACCZ lands cleared
rows, and the three functions of ACCSC scale an accumulator, load a scale register and store one. Words that land are in the
accumulator from then on. -/
def Obligations.AccumulatorMoves : Prop :=
  ∀ (x : MF) (s : State),
    let ft := s.fmt x.fsA
    let fv := s.fmt x.fsB
    let w := widthOf (fElem ft)
    let sc : BitVec 2 := x.mod.extractLsb' 0 2
    let c0 := if x.mod.getLsbD 2 then 32 else 0
    let never : Nat → Option (Cause × Word) := fun _ => none
    let scale (e : Lane) (i j : Nat) : Val := e.scaleAt sc ft false i j
    (s.goes (.accrd x) → exec (.accrd x) s = .next (s.landsEach (.accrd x) fun l =>
      let e := s.g.accLane l
      let m := min (e.rowBytes x.tb * 8 / w) (64 - c0)
      (tileResult 20 w l x.tb ((e.picked x.k (e.rows x.tb)).map fun i => (i, (List.range m).map fun j =>
        let v := decodeElem (fElem fv) false (e.accWord x.acc i (c0 + j))
        encodeFormed (fElem ft) ft (if fSmode ft = 0 then (v, 0) else v.div (scale e i j)))) none).ofM)) ∧
    (s.goes (.accwr x) → exec (.accwr x) s = .next (s.eachOr (.accwr x) never fun l t =>
      let e := s.g.lane l
      let m := min (e.rowBytes x.ta * 8 / w) (64 - c0)
      t.landsWords 20 l x.acc ((e.picked x.k (e.rows x.ta)).map fun i => (i, c0, (List.range m).map fun j =>
        let v := decodeF ft (e.elem w x.ta i j)
        encodeFormed (fElem fv) fv (if fSmode ft = 0 then (v, 0) else v.mul (scale e i j)))))) ∧
    (s.goes (.accz x) → exec (.accz x) s = .next (s.eachOr (.accz x) never fun l t =>
      t.landsWords 4 l x.acc (((s.g.lane l).picked x.k 64).map fun i => (i, 0, List.replicate 64 (0, 0))))) ∧
    (s.goes (.accscScale x) → exec (.accscScale x) s = .next (s.eachOr (.accscScale x) never fun l t =>
      t.landsWords 20 l x.acc (((s.g.lane l).picked x.k 64).map fun i => (i, 0, (List.range 64).map fun j =>
        encodeFormed 0 0 (((s.g.accLane l).accVal x.acc i j).mul (scale (s.g.accLane l) i j)))))) ∧
    (s.goes (.accscLoad x) → exec (.accscLoad x) s = .next (s.landsAllM (.accscLoad x) 20 fun l =>
      .scale l sc [(0, (s.g.lane l).store.bytes (0x2000 * x.ta.toNat) 512)])) ∧
    (s.goes (.accscStore x) → exec (.accscStore x) s = .next (s.landsAllM (.accscStore x) 20 fun l =>
      .tile l x.tb [(0, (s.g.lane l).store.bytes (0x3_0000 + 0x200 * sc.toNat) 512)] (some (4, 128)))) ∧
    (∀ l a r v, l < s.g.lanes.length → (s.g.lane l).store.wf = true → r < 64 → v.length = 64 →
      let t := s.landOne (.acc l a [(256 * r, bytesOfElems 32 v)])
      ∀ r' j, r' < 64 → j < 64 → (t.g.lane l).accWord a r' j =
        if r' = r then v.getD j 0 % 2 ^ 32 else (s.g.lane l).accWord a r' j)

/-- R42, R175, R176, R262: the copies and the retrieval operations of the X slot leave one part for each active lane, with
its command block as read at issue. A lane whose block is misaligned or leaves its allocation parks; that the token clears in
the next cycle when every lane parks is the model's choice (log row 77; R42 says so of an operation with no active engine), and so
is the lane order in which those that park enter the ring (log row 54). -/
def Obligations.XSlotParts : Prop :=
  ∀ (x : XF) (s : State), ∀ p ∈ ([(.copy x, .copy, 256), (.gather x, .gather, 64), (.scatter x, .scatter, 64),
      (.put x, .put, 32), (.get x, .get, 32), (.rgath x, .rgath, 32), (.fill x, .fill, 256), (.preft x, .preft, 256),
      (.pin x, .pin, 16), (.unpin x, .unpin, 16), (.rprobe x, .rprobe, 32), (.rins x, .rins, 32), (.rdel x, .rdel, 32),
      (.rmig x, .rmig, 32), (.rret x, .rret, 32)] : List (Instr × PartKind × Nat)),
    let i := p.1
    let kind := p.2.1
    let n := p.2.2
    let bad (l : Nat) : Option (Cause × Word) :=
      if s.blockAt x l % 64 ≠ 0 then some (.align, infoOf 1 (s.blockAt x l % 2 ^ 56))
      else if s.g.info.spBytes < s.blockAt x l + n then some (.prot, infoOf 5 (s.blockAt x l % 2 ^ 56)) else none
    (s.goes i → s.actives ≠ [] → (∀ l ∈ s.actives, bad l = none) → exec i s = .next (s.withXParts x kind n)) ∧
    (s.goes i → kind ≠ .preft → (∀ l ∈ s.actives, bad l ≠ none) →
      let t := s.eachOr i bad fun _ t => t
      exec i s = .next (State.withFlight (State.raise { t with tkt := s.tkt + 1 } x.tok)
        [⟨1, [.token s.cur.q s.g.inSys x.tok], false⟩]))

/-- R149, R190, R191: the engine global accesses leave one part for each active lane, with its address and data read at
issue; SEAL gives every unsealed part of an earlier bundle the next batch number, and BWAIT waits for the batches it names
that are not complete. -/
def Obligations.EngineAccessesAndBatches : Prop :=
  ∀ (x : XF) (s : State),
    let e (l : Nat) : Word := (s.g.lane l).e.getD (x.b.extractLsb' 0 4).toNat 0
    let e1 (l : Nat) : Word := (s.g.lane l).e.getD ((x.b.extractLsb' 0 4 : BitVec 4) + 1).toNat 0
    let N : BitVec 4 := x.b.extractLsb' 0 4
    let A := s.operand x.a
    let sz := 2 ^ x.mod.toNat
    let len := if x.mod = 0 then 8 else if x.mod = 1 then 64 else if x.mod = 2 then 256 else 1024
    let far (l : Nat) : Word := A + ((e l).extractLsb' 20 44).signExtend 64
    let b := s.g.sealed + 1
    let open_ (m : BitVec 16) : Prop := m ∈ s.g.openBatches ∧ (s.g.lastBatch - m).toNat < 2 ^ 15
    (s.actives ≠ [] →
      (s.goes (.gld x) → exec (.gld x) s = .next (s.withParts x.tok fun l => (.gld len ((e l).toNat % 2 ^ 20), far l))) ∧
      (s.goes (.gst x) → exec (.gst x) s = .next (s.withParts x.tok fun l =>
        (.gst len ((e l).toNat % 2 ^ 20) (s.localBytes l ((e l).toNat % 2 ^ 20) len), far l))) ∧
      (s.goes (.glde x) → exec (.glde x) s = .next (s.withParts x.tok fun l => (.glde N sz, A + e l))) ∧
      (s.goes (.gste x) → exec (.gste x) s = .next (s.withParts x.tok fun l => (.gste sz (e l), A + e1 l))) ∧
      (s.goes (.gamo x) → exec (.gamo x) s = .next (s.withParts x.tok fun l => (.gamo N x.mod.toNat (e l), A + e1 l)))) ∧
    (s.goes (.seal x) → ∃ t : State, exec (.seal x) s =
        .next ((t.raise x.tok).withFlight [⟨1, [.lastBatch b, .token s.cur.q s.g.inSys x.tok], false⟩]) ∧
      t.g.sealed = b ∧ t.mem = s.mem ∧ t.g.q0 = s.g.q0 ∧ t.g.q1 = s.g.q1 ∧ t.g.fl = s.g.fl ∧
      t.g.parts = s.g.parts.map fun p =>
        if p.kind.batched = true ∧ p.batch = none ∧ p.pid / 16 < s.cur.tkt0 then { p with batch := some b } else p) ∧
    (s.goes (.bwait x) → ∃ ms, exec (.bwait x) s = .next (s.withOp x.tok 0 (.bwait ms)) ∧
      (x.mod = 0 → ∀ m, m ∈ ms ↔ open_ m ∧ (A.setWidth 16 - m).toNat < 2 ^ 15) ∧
      (x.mod = 1 → ∀ m, m ∈ ms ↔ open_ m ∧ (s.g.lastBatch - A.setWidth 16 - m).toNat < 2 ^ 15))

/-! ## Events. An event concerns the context that its number names, wherever it is. -/

/-- R45, R100, R107, R371, R40, R41, R96, R325, R322: what becomes of a sequencer between its bundles. A count that has run
out ends its WAIT; the first cause that is held traps at the next head; a fetch that faults traps at the address fetched,
and its frame is dropped, an ECC error being counted; a refused head traps at that head with its bits in TRAPINFO[47:32], a
word of a reserved opcode or with a reserved field with its bits there, and in a fragment, but not in a handler, the END of
a copied frame once no token its bundle waits for is set. A sequencer that does not fetch raises none of these: one of a gang
that a pre-emption or a handler has frozen, one that waits, and sequencer 1 of a gang that is not split. A fragment that is over leaves the later time to the gang; results land; a handler that has run for 50 us is
killed with REASON 7; an uncorrectable soft error always traps, in a frozen gang when it goes on. The model's choices are here: that a cause of a fragment that
has ended is taken on sequencer 0 (log row 17), and a soft error too (row 18), what is counted as an error (row 19), the word a
kill leaves (row 20), and that a handler passes the END of a copied frame (row 22). -/
def Obligations.SequencerEvents : Prop :=
  ∀ (s : State) (gid q : Nat), s.hasGang gid →
    let t := s.focus gid
    let x := t.g.seq q
    let back (u : State) : Host.Outcome State Fault Refusal := .next (u.focus s.g.gid)
    let turn : Prop := (t.g.mode = .user ∧ (q = 0 ∨ q = 1 ∧ t.g.split = true)) ∨ ∃ h, t.g.mode = .sys h ∧ h.q = q
    let fetching : Prop := t.g.place.running = true ∧ t.g.stopping = false ∧ t.g.frozen = false ∧ turn ∧ x.block = .none
    (¬ fetching → exec (.fetchFault gid q) s = back t ∧ exec (.reservedEncoding gid q) s = back t) ∧
    (x.block = Block.wait 0 → exec (.waitCountExpiry gid q) s =
      back (t.updG fun g => g.updSeq q fun x => { x with block := Block.none })) ∧
    (∀ k lane e r, t.g.deferred = (k, lane, e) :: r → t.g.place.running = true → t.g.mode = .user →
      t.g.stopping = false →
      (t.g.holdsCauses = true → exec (.deferredTrap gid) s = back t) ∧
      (t.g.holdsCauses = false → exec (.deferredTrap gid) s = back ((t.wakeSlot.updG fun g => { g with deferred := r, found := min g.found r.length }).trapNext
        (if t.g.split then k else 0) e))) ∧
    (fetching → ∀ pc e, t.fetch x.pc x.atEnd = .fault pc e →
      exec (.fetchFault gid q) s =
        back (((if e.cause = .ecc then t.countHard else t).dropFailed (pc / 2 ^ 16)).trapEnter q e pc (e.pastSegment pc))) ∧
    (fetching → ∀ seg e, t.fetch x.pc x.atEnd = .absent seg → (t.forSeq q).askSegment seg 7 = .trap e →
      exec (.fetchFault gid q) s = back (t.trapEnter q e x.pc)) ∧
    (fetching → ∀ head b, t.fetch x.pc x.atEnd = .bad head b → b.words = [] → t.g.isFragment q = false →
      exec (.reservedEncoding gid q) s =
        back (t.trapEnter q ⟨.ill, infoOf 5 (b.head.bits.toNat * 2 ^ 24), 7⟩ head)) ∧
    (fetching → ∀ head next b n w, t.fetch x.pc x.atEnd = .bundle head next b → b.words = [(n, w)] → t.g.isFragment q = false →
      (decodeWord (slotKindOf n) w = .error .reservedOpcode →
        exec (.reservedEncoding gid q) s = back (t.trapEnter q ⟨.ill, infoOf 1 (w.toNat * 2 ^ 24), n⟩ head)) ∧
      (decodeWord (slotKindOf n) w = .error .reservedField →
        exec (.reservedEncoding gid q) s = back (t.trapEnter q ⟨.ill, infoOf 2 (w.toNat * 2 ^ 24), n⟩ head))) ∧
    (fetching → ∀ head next b f, t.fetch x.pc x.atEnd = .bundle head next b → b.words = [] → t.g.isFragment q = true →
      f ∈ x.frames → f.copied = true → f.fin = head →
      let waits (k : Nat) : Prop := b.head.wait.getLsbD k = true ∧ (t.atBundle q head next b).tokenSet (BitVec.ofNat 3 k) = true
      ((∀ k < 8, ¬waits k) → exec (.reservedEncoding gid q) s = back (match t.g.mode with
        | .user => t.trapEnter q ⟨.ill, infoOf 9 (b.head.bits.toNat * 2 ^ 24), 7⟩ head
        | .sys _ => t)) ∧
      ((∃ k < 8, waits k) → exec (.reservedEncoding gid q) s = back t)) ∧
    (t.g.split = true → t.g.q1.block = .fragmentOver → (∀ n ∈ t.g.q1.toks, n = 0) → t.g.q1.sb = [] → t.g.mode = .user →
      ∃ u, exec (.fragmentEnd gid) s = back u ∧ u.g.split = false ∧
        u.g.q0 = { t.g.q0 with pts := max t.g.q0.pts t.g.q1.pts } ∧ u.g.lanes = t.g.lanes ∧ u.mem = t.mem ∧
        u.others = t.others ∧ u.dies = t.dies ∧ u.launches = t.launches) ∧
    (exec (.resultLanding gid) s = back t.landDue) ∧
    (exec (.ptsAdvance gid q) s = back ((t.setPts 0 (t.g.q0.pts + q)).setPts 1 (t.g.q1.pts + q))) ∧
    (∀ h, t.g.mode = .sys h → h.since + 50000 ≤ t.now t.myDie → ∃ u, exec (.watchdogExpiry gid) s = back u ∧
      u.g = t.g.stop ∧ u.launches = (t.updLaunch t.g.info.lid fun l =>
        { l with tally := l.tally.kill 7 (faultWord t.g.trapCause.toNat t.g.trapInfo) }).launches) ∧
    (∀ sub lane, t.g.place.running = true → t.g.stopping = false → ∃ e : Exc,
      e.cause = .soft ∧ e.info = (if sub = 2 then infoOf 2 (lane % 16) else infoOf 1 0) ∧
      let u : State := { t.countHard with free := t.free + 1 }
      (t.g.frozen = false → exec (.soft gid sub lane) s = back (u.wakeSlot.trapNext 0 e)) ∧
      (t.g.frozen = true → exec (.soft gid sub lane) s = back (u.updG fun g => g.defer 0 0 e)))

/-- R144, R145, R146, R147, R157, R160, R161, R142: an access is performed at its home in its place in the order. A load
shows its register the bytes at its address, extended by its form; its time is not before the write time of any line it
reads. An atomic shows what stood there and leaves its function of it. A buffered store, of either sequencer, leaves its
bytes; its time is beyond every lease on the line. PREF takes a lease or, dropped, does nothing. Each then lowers its
token. A load under a valid lease takes the bytes read then, and its time is not before the lease's; one performed ahead of older stores stands while its lease
covers the gang's time, with its point then, and is else performed again. An uncorrectable error leaves the register and is
deferred. That an access to the memory of a die whose boot has failed waits is the model's reading of R369 (log row 71). -/
def Obligations.AccessesArePerformed : Prop :=
  (∀ (n old : Nat) (x y : Word), 0 < n → old < 2 ^ (8 * n) →
    let new (k : AccKind) : BitVec (8 * n) := BitVec.ofNat (8 * n) (k.newValue n old)
    let a := BitVec.ofNat (8 * n) old
    let b := BitVec.ofNat (8 * n) x.toNat
    new (.amo 0 x) = a + b ∧ new (.amo 1 x) = a &&& b ∧ new (.amo 2 x) = a ||| b ∧ new (.amo 3 x) = a ^^^ b ∧
    new (.amo 4 x) = (if a.slt b then a else b) ∧ new (.amo 5 x) = (if a.slt b then b else a) ∧
    new (.amo 6 x) = (if a.ult b then a else b) ∧ new (.amo 7 x) = (if a.ult b then b else a) ∧
    new (.swap x) = b ∧ new (.cas x y) = (if a = b then BitVec.ofNat (8 * n) y.toNat else a) ∧
    new (.incb x) = (if a.ult b then a + 1 else a) ∧
    (∀ (i : Nat) (v : Bool) (k : Nat), i < 8 * n → k < 8 * n →
      (new (.vset i v)).getLsbD k = if k = i then v else a.getLsbD k)) ∧
  ∀ (s : State) (gid n : Nat), s.hasGang gid →
    let t := s.focus gid
    let back (u : State) : Host.Outcome State Fault Refusal := .next (u.focus s.g.gid)
    (∀ a, (t.g.q0.acc ++ t.g.q1.acc).find? (fun b => b.tkt == n) = some a → a.size ≠ 0 → t.reachesKey a.key = false →
      ∀ how, exec (.seqAccessComplete gid n how) s = back t) ∧
    (∀ a, (t.g.q0.acc ++ t.g.q1.acc).find? (fun b => b.tkt == n) = some a → (a.size = 0 ∨ t.reachesKey a.key = true) →
      let old := t.mem.le a.key a.size
      let val (v : Nat) : Word := if a.sign then (BitVec.ofNat (8 * a.size) v).signExtend 64 else BitVec.ofNat 64 v
      let leaves (u : State) : State :=
        (u.updG fun g => g.updSeq a.q fun x => { x with acc := x.acc.filter (·.tkt != a.tkt) }).lower a.q a.sys a.tok
      let ends (u : State) (v : Word) : State := leaves (u.updG fun g => g.updSeq a.q fun x => x.setReg a.d v)
      let r := t.readLeased a.q a.key a.size
      let home := r.1.tookPoint a.q a.tkt r.2.1
      (r.1.mem = t.mem ∧ (t.g.seq a.q).pts ≤ r.2.1 ∧ ∀ l ∈ linesFor a.key a.size, (t.lineInfo l).wts ≤ r.2.1) ∧
      (a.shown = true → ∀ how v lease, a.got = some (v, lease) → exec (.seqAccessComplete gid n how) s = back (ends t v)) ∧
      (a.shown = false → t.unseen = [] → a.size ∈ [1, 2, 4, 8] → t.g.inOrder a.q a.tkt = true →
        (a.kind = .load → a.got = none →
          exec (.seqAccessComplete gid n .home) s = back (ends home (val old)) ∧
          ∀ e, (t.g.seq a.q).leaseFor a.key = some e →
            exec (.seqAccessComplete gid n .lease) s = back (ends (t.tookPoint a.q a.tkt (max (t.g.seq a.q).pts e.wts))
              (val (e.data.le (a.key % 256) a.size)))) ∧
        (a.kind ≠ .load → a.kind ≠ .pref →
          let p := t.readAt (t.g.seq a.q).pts a.key a.size
          let new := leBytes a.size (a.kind.newValue a.size old)
          let w := p.1.writeAt p.2 a.key new
          w.1.mem = t.mem.put a.key new ∧ (∀ l ∈ linesFor a.key a.size, (t.lineInfo l).rts < w.2) ∧
          exec (.seqAccessComplete gid n .home) s = back (ends (w.1.tookPoint a.q a.tkt w.2)
            (match a.kind with
              | .vset b _ => if old.testBit b then 1 else 0
              | _ => val old))) ∧
        ∀ v lease, a.kind = .load → a.got = some (v, lease) →
          exec (.loadConfirm gid n) s = back
            (if (t.g.seq a.q).pts ≤ lease then ends (t.tookPoint a.q a.tkt (t.g.seq a.q).pts) v else ends home (val old))) ∧
      (a.shown = false → a.kind = .pref → ∀ how, exec (.seqAccessComplete gid n how) s =
        back (leaves (if a.size = 0 then t else home))) ∧
      (a.shown = false → a.kind ≠ .pref → ∀ kind, exec (.seqAccessComplete gid n (.error kind)) s =
        back (leaves (t.countHard.updG fun g => g.defer a.q 0 ⟨.ecc, infoOf kind (a.va.toNat % 2 ^ 56), 0⟩)))) ∧
    (∀ q e, q < 2 → (t.g.q0.acc ++ t.g.q1.acc).find? (fun b => b.tkt == n) = none → t.g.mayStore = true →
      (q = 1 → t.g.q0.sb.find? (fun b => b.tkt == n) = none) →
      (t.g.seq q).sb.find? (fun b => b.tkt == n) = some e → t.reachesKey e.key = true → t.g.inOrder q e.tkt = true →
      let w := t.gangWrite (t.g.seq q).pts e.key e.data
      w.1.mem = t.mem.put e.key e.data ∧ (∀ l ∈ linesFor e.key e.data.length, (t.lineInfo l).rts < w.2) ∧
      exec (.seqAccessComplete gid n .home) s =
        back (let u := (w.1.tookPoint q e.tkt w.2).updG fun g =>
            g.updSeq q fun x => { x with sb := x.sb.filter (·.tkt != e.tkt) }
          if e.tokened then u.lower q e.sys e.tok else u))

/-- R26, R104, R107, R140, R322: an empty bundle ends as any other does; a segment that has been read is resident, and one
with an error in it is not, nor is one whose table or image faults, which fails with SEG subcode 5; a walk that succeeds
fills the TLB of its die, and one that faults fills none; an error that was corrected is only counted. The model's choices are
here: which entry a full TLB gives up (log row 73), and that the reading of an image waits for memory that nothing answers for
(log row 71). -/
def Obligations.MachineEvents : Prop :=
  ∀ (s : State) (die n m : Nat),
    (s.cur.ready = true → s.cur.done = false → exec .emptyBundle s = .next s.finish) ∧
    (∀ f t img, s.fillingFrame die n m = some f → s.readSegment die f 4 f.base f.len 0 [] = (t, .ok img) →
      exec (.segmentFetchComplete die n m 0) s =
        .next (t.updFrame die n m fun f => { f with fill := .resident, data := img })) ∧
    (∀ f t va, s.fillingFrame die n m = some f → s.readSegment die f 4 f.base f.len 0 [] = (t, .error (some va)) →
      exec (.segmentFetchComplete die n m 0) s =
        .next (t.updFrame die n m fun f => { f with fill := .failed (segExc 5 va 7), data := [] })) ∧
    (∀ f t, s.fillingFrame die n m = some f → s.readSegment die f 4 f.base f.len 0 [] = (t, .error none) →
      exec (.segmentFetchComplete die n m 0) s = .next s) ∧
    (∀ f ecc, s.fillingFrame die n m = some f → ecc ≠ 0 →
      exec (.segmentFetchComplete die n m ecc) s =
        .next (s.updFrame die n m fun f => { f with fill := .failed ⟨.ecc, infoOf ecc 0, 7⟩, data := [] })) ∧
    (∀ va acc pa e, s.walk die n va acc = .ok pa e →
      exec (.tlbWalkComplete die n va acc) s = .next (s.updDie die fun d => { d with tlb := tlbKeep 16384 e d.tlb })) ∧
    (∀ va acc, (∀ pa e, s.walk die n va acc ≠ .ok pa e) → exec (.tlbWalkComplete die n va acc) s = .next s) ∧
    (exec (.correctedError die true) s =
      .next (s.updDie die fun d => { d with health := { d.health with eccC := d.health.eccC + 1 } })) ∧
    (exec (.correctedError die false) s =
      .next (s.updDie die fun d => { d with health := { d.health with softC := d.health.softC + 1 } }))

/-- R42, R44, R246 to R248, R295 to R297, R313 to R315, R106: a tokened operation of the S slot takes its effect and lowers
its token. PROG counts work up to 2^64 - 1; an index past the bitmap leaves 2. BAR.INIT sets an entry up, BAR.ARRIVE adds
its count and leaves the phase and the arrivals, BAR.EXPECT adds its bytes, BAR.TEST reads the entry; a rejection is held
for the gang with its slot, and its token is lowered by the model's choice (log row 76). QPUSH puts its 64 bytes into the slot the write index names and advances the index, and QRES
advances it alone; either leaves all ones when the ring has no room, and QSCOPE is held. SIG sets its signal or adds to it.
The first ECOMMIT of a launch commits it and writes its record, leaving 0, or 2 without one; a later one leaves 1. SEGLD
ends when its segment is resident. The times of a barrier's publishers are the model's choice (log row 118), and so is that an
operation at memory that nothing answers for waits (log row 71). -/
def Obligations.OperationsTakeEffect : Prop :=
  ∀ (s : State) (gid : Nat) (o : TokOp), s.hasGang gid →
    let t := s.focus gid
    let back (u : State) : Host.Outcome State Fault Refusal := .next (u.focus s.g.gid)
    let ev : Instr := .tokenedOperationComplete gid o.oid
    let ends (u : State) : State := (u.updG fun g => { g with ops := g.ops.filter (·.oid != o.oid) }).lower o.q o.sys o.tok
    let gives (u : State) (v : Word) : State := ends (u.updG fun g => g.updSeq o.q fun x => x.setReg o.d v)
    let holds (e : Exc) : State := ends (t.updG fun g => g.defer o.q 0 { e with slot := o.slot })
    t.g.ops.find? (fun x => x.oid == o.oid) = some o →
    (∀ k ∈ o.kind.keys, t.reachesKey k = false → exec ev s = back t) ∧
    ((∀ k ∈ o.kind.keys, t.reachesKey k = true) →
    (∀ n, o.kind = .prog n → exec ev s =
      back (ends (t.updLaunch t.g.info.lid fun l => { l with progress := min (l.progress + n) (2 ^ 64 - 1) }))) ∧
    (o.kind = .vsetNone → exec ev s = back (gives t 2)) ∧
    (o.kind = .soon → exec ev s = back (ends t)) ∧
    (∀ ms, o.kind = .bwait ms → (∀ p ∈ t.g.parts, ∀ m, p.batch = some m → m ∉ ms) →
      exec ev s = back (ends (t.updG Gang.dropLeases))) ∧
    (∀ l, t.launch t.g.info.lid = some l → (o.kind.barrier = true → t.g.olderBar o.q o.oid = false) →
      (∀ b n sc pb, o.kind = .barInit b n sc pb →
        let e := t.barrier l b
        (n = 0 → exec ev s = back (holds (barErr b 6 0 0))) ∧
        (n ≠ 0 → 2 ^ 36 ≤ pb.toNat → exec ev s = back (holds (barErr b 3 pb.toNat 0))) ∧
        (n ≠ 0 → pb.toNat < 2 ^ 36 →
          (e.initd = true → e.exp = n → e.scope = sc → exec ev s = back (ends (t.barEvent l b e))) ∧
          (e.initd = true → (e.exp ≠ n ∨ e.scope ≠ sc) → (e.arr ≠ 0 ∨ e.pend ≠ 0) →
            exec ev s = back (holds (barErr b 5 (n + sc * 2 ^ 12) 0))) ∧
          (e.initd = false ∨ (e.exp ≠ n ∨ e.scope ≠ sc) ∧ e.arr = 0 ∧ e.pend = 0 → exec ev s = back (ends (t.barEvent l b
            { e with initd := true, exp := n, scope := sc, pend := pb.toNat, arr := 0 }))))) ∧
      (∀ b cnt m, o.kind = .barArrive b cnt m → t.g.batchesDone m = true → t.g.inOrder o.q o.oid = true →
        let e := t.barrier l b
        (e.initd = false → exec ev s = back (holds (barErr b 1 0 0))) ∧
        (e.initd = true → e.exp < e.arr + cnt → exec ev s = back (holds (barErr b 2 cnt 0))) ∧
        (e.initd = true → e.arr + cnt ≤ e.exp → t.g.wrote = [] → t.unseen = [] → exec ev s = back (gives
          (t.barEvent l b ({ e with arr := e.arr + cnt }.note t.g.gid t.myDie (t.g.seq o.q).pts))
          (BitVec.ofNat 64 ((if e.phase then 1 else 0) + 2 * (e.arr + cnt)))))) ∧
      (∀ b by_, o.kind = .barExpect b by_ →
        let e := t.barrier l b
        (e.initd = false → exec ev s = back (holds (barErr b 1 0 0))) ∧
        (e.initd = true → 2 ^ 36 ≤ e.pend + by_.toNat → exec ev s = back (holds (barErr b 3 by_.toNat 0))) ∧
        (e.initd = true → e.pend + by_.toNat < 2 ^ 36 →
          exec ev s = back (ends (t.barEvent l b { e with pend := e.pend + by_.toNat })))) ∧
      (∀ b, o.kind = .barTest b → exec ev s = back (gives t (t.barrier l b).word)) ∧
      (∀ m, o.kind = .ecommit m → t.g.fencedAll o.oid m = true → t.g.inOrder o.q o.oid = true →
        (l.tally.committed = true → exec ev s = back (gives t 1)) ∧
        (l.tally.committed = false → t.g.wrote = [] → t.unseen = [] →
          let c := (t.updLaunch l.info.lid fun l => { l with tally := { l.tally with committed := true } }).launches
          (t.recordAt l.info.home l.info.part l.crec = .ok none →
            ∃ u, exec ev s = back (gives u 2) ∧ u.mem = t.mem ∧ u.launches = c) ∧
          ∀ pa, t.recordAt l.info.home l.info.part l.crec = .ok (some pa) → ∃ u, exec ev s = back (gives u 0) ∧
            u.mem = t.mem.put pa (t.launchRecord l 1 t.g.egReason) ∧ u.launches = c))) ∧
    (∀ desc, t.g.olderQueueOp o.q o.oid desc = false → t.g.inOrder o.q o.oid = true →
      let d := t.qdesc desc
      (∀ pk, o.kind = .qpush desc pk →
        (∀ sub, t.scopeFault d = some sub → exec ev s = back (holds ⟨.qscope, infoOf sub 0, 0⟩)) ∧
        (t.scopeFault d = none →
          (d.ridx + d.rsize ≤ d.widx → exec ev s = back (gives t (BitVec.allOnes 64))) ∧
          ∀ pa, d.widx < d.ridx + d.rsize → t.unseen = [] →
            t.agentAddr (homeDie desc) d.part (d.slotVa d.widx) 1 = .ok pa → ∃ u,
            exec ev s = back (gives u (BitVec.ofNat 64 d.widx)) ∧
            u.mem = (t.mem.put pa (t.mem.bytes pk 64)).put (desc + 0x10) (leBytes 8 (d.widx + 1)))) ∧
      (∀ n, o.kind = .qres desc n →
        (∀ sub, t.scopeFault d = some sub → exec ev s = back (holds ⟨.qscope, infoOf sub 0, 0⟩)) ∧
        (t.scopeFault d = none →
          (n = 0 ∨ d.ridx + d.rsize < d.widx + n.toNat → exec ev s = back (gives t (BitVec.allOnes 64))) ∧
          (n ≠ 0 → d.widx + n.toNat ≤ d.ridx + d.rsize → ∃ u, exec ev s = back (gives u (BitVec.ofNat 64 d.widx)) ∧
            u.mem = t.mem.put (desc + 0x10) (leBytes 8 (d.widx + n.toNat)))))) ∧
    (∀ key set v batch, o.kind = .sig key set v batch → t.g.fenced o.q o.oid batch = true →
      t.g.inOrder o.q o.oid = true → t.unseen = [] → ∃ u, exec ev s = back (ends u) ∧ u.mem = t.mem.put key
        (leBytes 8 (if set then v.toNat else (t.mem.le key 8 + v.toNat) % 2 ^ 64))) ∧
    (∀ seg f, o.kind = .segld seg → t.g.inSys = o.sys → t.frameOf seg = some f →
      (f.fill = .resident → exec ev s = back (ends t)) ∧ (f.fill = .filling → exec ev s = back t)))

/-- R142, R149, R150, R157, R160: an engine's part of a global access is performed in its place in the order. GSTE leaves
its bytes at the address, and GST each 8-byte unit as it was at issue or as it is; GLDE gives the engine scalar what stood
there, or what its path holds under a valid lease; GAMO does so too and leaves the sum, the or, the greater or the new
value; GLD brings the bytes to the lane's scratchpad, where some of the units may stand before it completes. A part whose
address or local offset faults parks its engine with a record of the fault, and so does an uncorrectable error, which is
counted. Each lowers its token. The model's choices are here: that a copy the path holds serves whenever it is valid (log row
92), which of its bytes a GST stores and a local read of a GLD finds (row 91), and what is counted as an error (row 19). -/
def Obligations.EngineAccessesArePerformed : Prop :=
  ∀ (s : State) (gid : Nat) (e : EngAcc), s.hasGang gid →
    let t := s.focus gid
    let back (u : State) : Host.Outcome State Fault Refusal := .next (u.focus s.g.gid)
    let ends (u : State) : State :=
      (u.updG fun g => { g with eng := g.eng.filter fun x => x.tkt != e.tkt || x.lane != e.lane }).lower e.q false e.tok
    let parks (u : State) (c : Cause) (i : Word) : State := ends (u.updG fun g => g.park e.lane e.head e.slot c i)
    let ev (ecc : Nat) : Instr := .engineAccessComplete gid e.tkt e.lane ecc
    let loc := t.locateFor (some e.tkt) [] t.myDie t.g.info.part false e.va.toNat e.kind.bytes e.kind.acc
    t.g.eng.find? (fun x => x.tkt == e.tkt && x.lane == e.lane) = some e → t.g.inOrder e.q e.tkt = true →
    (∀ len off, e.kind = .gld len off → e.got ≠ [] → exec (ev 0) s = back (ends (t.localPut e.lane off e.got))) ∧
    (e.got = [] →
      (∀ f, loc = .fault f → e.kind.localSide = none →
        exec (ev 0) s = back (parks t f.1 (faultInfo f e.va.toNat))) ∧
      (∀ key ent off n, loc = .at_ key ent → e.kind.localSide = some (off, n) →
        (off % 8 ≠ 0 → exec (ev 0) s = back (parks t .align (infoOf 1 off))) ∧
        (off % 8 = 0 → t.g.inAlloc off n = false → exec (ev 0) s = back (parks t .prot (infoOf 5 off)))) ∧
      (∀ key ent ecc, loc = .at_ key ent → e.kind.localSide = none → ecc ≠ 0 →
        exec (ev ecc) s = back (parks t.countHard .ecc (infoOf ecc (e.va.toNat % 2 ^ 56)))) ∧
      ∀ key ent, loc = .at_ key ent →
        (∀ n v, e.kind = .gste n v →
          ∃ u, exec (ev 0) s = back (ends u) ∧ u.mem = t.mem.put key (leBytes n v.toNat) ∧ u.g.lanes = t.g.lanes) ∧
        (∀ n f v, e.kind = .gamo n f v → t.unseen = [] →
          let old := t.mem.le key 8
          let new := if f = 0 then (old + v.toNat) % 2 ^ 64 else if f = 1 then old ||| v.toNat
            else if f = 2 then max old v.toNat else v.toNat
          ∃ u, exec (ev 0) s = back (ends u) ∧ u.mem = t.mem.put key (leBytes 8 new) ∧
            u.g.lanes = (t.landOne (.esc e.lane n (BitVec.ofNat 64 old))).g.lanes) ∧
        (∀ n size, e.kind = .glde n size →
          (t.g.paths = [] → t.unseen = [] → ∃ u, exec (ev 0) s = back (ends u) ∧ u.mem = t.mem ∧
            u.g.lanes = (t.landOne (.esc e.lane n (BitVec.ofNat 64 (t.mem.le key size)))).g.lanes) ∧
          ∀ bs w, t.g.pathBytes (t.g.seq e.q).pts key size = some (bs, w) → ∃ u, exec (ev 0) s = back (ends u) ∧
            u.lines = t.lines ∧ u.g.lanes = (t.landOne (.esc e.lane n (BitVec.ofNat 64 (leValue bs)))).g.lanes) ∧
        (∀ m off src, e.kind = .gst (gldLen m) off src → src.length = gldLen m → off % 8 = 0 →
          t.g.inAlloc off (gldLen m) = true → ∃ u bs, exec (ev 0) s = back (ends u) ∧ u.mem = t.mem.put key bs ∧
            bs.length = gldLen m ∧ ∀ k < gldLen m / 8, let unit (l : List Byte) := (l.drop (8 * k)).take 8
              unit bs = unit src ∨ unit bs = unit (t.localBytes e.lane off (gldLen m))) ∧
        (∀ m off, e.kind = .gld (gldLen m) off → off % 8 = 0 → t.g.inAlloc off (gldLen m) = true → t.g.paths = [] →
          t.unseen = [] → t.mem.wf = true →
          let dst0 := t.g.localKey e.lane off
          let bs := t.mem.bytes key (gldLen m)
          ∃ u, exec (ev 0) s = back (ends u) ∧ u.mem = t.mem.put dst0 bs ∨
            exec (ev 0) s = back u ∧
            (u.g.eng = t.g.eng.map fun x => if x.tkt = e.tkt ∧ x.lane = e.lane then { x with got := bs } else x) ∧
            (∀ a, a < dst0 ∨ dst0 + gldLen m ≤ a → u.mem.get a = t.mem.get a) ∧
            ∀ k < gldLen m / 8, u.mem.bytes (dst0 + 8 * k) 8 = t.mem.bytes (dst0 + 8 * k) 8 ∨
              u.mem.bytes (dst0 + 8 * k) 8 = t.mem.bytes (key + 8 * k) 8))

/-- R175, R177, R182, R185, R186, R188, R189, R262 to R266: the parts of X-slot operations. A channel
starts a part whose checks pass and moves nothing yet; one that fails them parks its engine with a record and is over. What
a part moves: for COPY and FILL one element for each index of the region, row by row of the table for GATHER, SCATTER and
RGATH, 8 bytes at a time for PUT and GET. A unit that is performed leaves the source's bytes at its destination. A part
whose units are all performed is over, with its credits made; a fault stops it and parks the engine. A peer's
acknowledgement ends a PUT with its credits; a refusal parks with PAGE 7. RPROBE, RINS, RDEL, RMIG and RRET take their steps
in the program order, with their results and counters. That control data and lists are read at the start, that a refused
PUT credits nothing, that RRET frees its blocks after its swap and point by point, when a PUT is over, and what COPY_CREDIT
credits, are the model's choices (log rows 44, 102, 42, 46, 82). -/
def Obligations.PartsAreCarriedOut : Prop :=
  (∀ p : Part,
    let w := p.width
    let units := p.f 0x10 4 / 8
    let ids := p.done2
    let flag (k : Nat) : Bool := bit (p.f 0x30 4) k
    let T (i k : Nat) : Ref := (placeOf (flag 0) (p.f 0 8) (i * sextNat (p.f 8 8) 64)).plus (8 * k)
    let X (i k : Nat) : Ref := (placeOf (flag 1) (p.f 0x20 8) (i * sextNat (p.f 0x28 8) 64)).plus (8 * k)
    let move (d : Ref × Bool) (v : Nat) (s : Option (Ref × Bool)) : UnitMove := ⟨d.1, d.2, w, v, s⟩
    List.Perm p.items.flatten p.moves ∧ (p.kind = .copy → p.rank = p.src.ndim) ∧ (p.kind = .fill → p.rank = p.dst.ndim) ∧
    (∀ i id k, p.kind = .gather → ids[i]? = some id → k < units → p.items[i * units + k]? =
      some [⟨X i k, false, 64, 0, if flag 3 ∧ id = 0xFFFFFFFF then none else some (T id k, false)⟩]) ∧
    (∀ i id k, p.kind = .scatter → flag 3 = false → ids[i]? = some id → k < units →
      p.items[i * units + k]? = some [⟨T id k, false, 64, 0, some (X i k, false)⟩]) ∧
    (∀ k, (p.kind = .put ∨ p.kind = .get) → p.peer = none → k < units → p.items[k]? =
      some [⟨(refOf (bit (p.f 0x15 1) 0) (p.f 0 8)).plus (8 * k), false, 64, 0,
        some ((refOf (bit (p.f 0x15 1) 1) (p.f 8 8)).plus (8 * k), false)⟩]) ∧
    (∀ i id k, p.kind = .rgath → ids[i]? = some id → k < p.f 0xC 4 / 8 → p.items[i * (p.f 0xC 4 / 8) + k]? =
      some [⟨(Ref.loc (p.f 8 4 + i * p.f 0xC 4 : Nat)).plus (8 * k), false, 64, 0,
        if id = 0xFFFFFFFF then none else some ((Ref.va ((p.f 0x18 8 + id / 2 ^ 28 * 2 ^ 45 + p.f 0x10 4
          + id % 2 ^ 28 * p.f 0x14 4) % 2 ^ 64)).plus (8 * k), false)⟩]) ∧
    (p.rank ≤ 6 → ∀ x : List Nat, x.length = p.rank → (∀ k < p.rank, x.getD k 0 < p.ext.getD k 0) →
      (p.kind = .fill → move (p.dst.at_ w (addIdx p.org x)) (p.f 0 8 % 2 ^ w) none ∈ p.moves) ∧
      (p.kind = .copy → p.mode = 0 → move (p.dst.at_ w x) 0 (some (p.src.at_ w (addIdx p.org x))) ∈ p.moves) ∧
      (p.kind = .copy → p.mode = 1 → move (p.dst.at_ w (swapIdx x)) 0 (some (p.src.at_ w (addIdx p.org x))) ∈ p.moves)) ∧
    (p.kind = .fill ∨ p.kind = .copy ∧ p.mode ≤ 1 → p.moves.length = p.cells) ∧
    (p.kind = .copy → p.mode = 2 → ∀ k v, (ids.filter fun v => !isZeroElem p.src.fmt v)[k]? = some v →
      move (p.dst.at_ w [k]) v none ∈ p.moves) ∧
    (p.kind = .copy → p.mode = 3 → ∀ n x b, p.region[n]? = some x → ids[n]? = some b →
      move (p.dst.at_ w (addIdx p.org x)) 0
        (if b = 0 then none else some (p.src.at_ w [((ids.take n).filter (· != 0)).length])) ∈ p.moves) ∧
    (∀ (t : Tensor) (x : List Nat), t.at_ w x = (placeOf (bit t.flags 0) t.base
      (((List.range 5).map fun k => (x.getD (k + 1) 0 : Int) * t.strides.getD (k + 1) 0).sum + (x.getD 0 0 * w / 8 : Nat)),
      w == 4 && x.getD 0 0 % 2 == 1))) ∧
  ∀ (s : State) (gid pid : Nat) (p : Part), s.hasGang gid →
    let t := s.focus gid
    let back (u : State) : Host.Outcome State Fault Refusal := .next (u.focus s.g.gid)
    let gone (u : State) : State :=
      ((u.updG fun g => { g with parts := g.parts.filter (·.pid != p.pid) }).lower p.q false p.tok)
    let parked (c : Cause) (i : Word) : State := t.updG fun g => g.park p.lane p.head p.slot c i
    (t.copyPart pid = some p →
      (∀ u ids, p.started = false → p.kind ≠ .get → t.startCheck p = .ok (u, ids) →
        exec (.copyPartStart gid pid) s = back (u.putPart { p with started := true, done2 := ids })) ∧
      (∀ c i, p.started = false → p.kind ≠ .preft → t.startCheck p = .error (some (c, i)) →
        exec (.copyPartStart gid pid) s = back ((parked c i).finishPart p)) ∧
      (p.started = true → p.atPeer = false →
        exec (.copyCredit gid pid [] []) s = back ((t.creditBar p (p.phase / 8)).putPart { p with phase := 0 })) ∧
      (∀ n m t1 t2 kd ks r, p.started = true → p.atPeer = false → p.got = [] → p.done = [] → t.unseen = [] →
        p.items[n]? = some [m] → m.bits ∈ [8, 16, 32, 64] → t.refUse p m.dst m.bytes 1 = .ok (t1, kd) →
        (m.src = some (r, false) → t1.refUse p r m.bytes 0 = .ok (t2, ks) → t2.undetermined p [m] kd = false →
          ks % 8 + m.bytes ≤ 8 → ∃ u, exec (.copyCredit gid pid [] [n]) s = back u ∧
          u.mem = t.mem.put kd (t.mem.bytes ks m.bytes)) ∧
        (m.src = none → t1.undetermined p [m] kd = false → ∃ u, exec (.copyCredit gid pid [] [n]) s = back u ∧
          u.mem = t.mem.put kd (leBytes m.bytes m.value))) ∧
      (p.started = true → p.kind ∈ [PartKind.copy, .gather, .scatter, .fill, .rgath, .put, .get] → p.atPeer = false →
        ((∀ k < p.items.length, k ∈ p.done) → exec (.copyPartComplete gid pid) s = back (t.finishPart p)) ∧
        ∀ m c i, p.items.head? = some [m] → p.done = [] → t.refAt p m.dst m.bytes 1 = .error (some (c, i)) →
          exec (.copyPartComplete gid pid) s = back ((parked c i).finishPart p))) ∧
    (p.bar = none → t.finishPart p = (gone t).updG Gang.dropLeases) ∧
    (∀ b l n, p.bar = some b → t.launch t.g.info.lid = some l → (t.barrier l b).initd = true → 0 < n →
      n ≤ (t.barrier l b).pend → t.creditBar p n = t.barEvent l b { t.barrier l b with pend := (t.barrier l b).pend - n }) ∧
    (∀ ok data, t.g.parts.find? (fun r => r.pid == pid && r.started && r.atPeer && !t.portLost r) = some p →
      (p.kind = .put → p.done2 ≠ [] → ok = true →
        exec (.peerAck gid pid ok data) s = back (t.finishPart { p with phase := 8 * p.f 0x10 4 })) ∧
      (p.kind = .get → p.got = [] → ok = true → data.length = p.f 0x10 4 →
        exec (.peerAck gid pid ok data) s = back (t.putPart { p with got := [(0, data)] })) ∧
      (p.kind = .put → p.done2 ≠ [] → ok = false →
        exec (.peerAck gid pid ok data) s = back ((parked .page (infoOf 7 (p.peerAddr % 2 ^ 56))).finishPart p))) ∧
    (t.g.parts.find? (fun r => r.pid == pid && r.kind.retrieval) = some p → t.g.inOrder p.q (p.pid / 16) = true →
      t.unseen = [] →
      let ev : Instr := .retrievalPartComplete gid pid
      let point (u : State) : Host.Outcome State Fault Refusal :=
        back (u.tookPoint p.q (p.pid / 16) (u.g.seq p.q).pts)
      let loc (off : Nat) : Nat := t.g.localKey p.lane off
      let word (v : Nat) : List Byte := leBytes 4 v
      let words (l : List Nat) : List Byte := (l.map (leBytes 4)).flatten
      let up (m : Memory) (pa off by_ : Nat) : Memory :=
        m.put (pa + off) (leBytes 8 ((m.le (pa + off) 8 + by_) % 2 ^ 64))
      -- RPROBE of one row in one table that is not being rehashed
      (∀ n tb c, let x := t.localLe p.lane (p.f 0 4 + 8 * n) 4
        p.kind = .rprobe → p.f 0 4 % 4 = 0 → p.f 4 4 % 4 = 0 → 64 ≤ p.f 4 4 → p.f 8 4 % 4 = 0 → p.f 12 2 = 1 →
        1 ≤ p.f 14 2 → p.f 14 2 ≤ 256 → n < 8 → p.f 16 1 = 2 ^ n → p.f 0x11 3 = 0 → p.f 0x18 8 = 0 →
        t.g.inAlloc (p.f 0 4) (8 * (n + 1)) = true → t.g.inAlloc (p.f 8 4) (4 + 4 * p.f 14 2) = true →
        t.table n 2 = .ok tb → tb.state = 0 → x < 2 ^ tb.a.bits → x ≠ 0xFFFFFFFF → t.chain tb 0 x 0 = .ok c →
        ∃ (u : State) (ids : List Nat), exec ev s = point (gone u) ∧ ids.Pairwise (· < ·) ∧ (∀ v, v ∈ ids ↔ v ∈ c.ids) ∧
          u.mem = ((up (up t.mem tb.pa 0x40 1) tb.pa 0x48 c.ids.length).put (loc (p.f 8 4))
            (words ((ids.take (p.f 14 2)).length :: ids.take (p.f 14 2)))).put (loc (p.off + 0x14))
            (word (if p.f 14 2 < ids.length then 1 else 0))) ∧
      -- RINS and RDEL of one record
      (∀ tb, let rec_ := p.f 0 4
        let id := t.localLe p.lane rec_ 4
        let x := t.localLe p.lane (rec_ + 4) 4
        let g := t.localLe p.lane (rec_ + 9) 1
        let ends (m : Memory) (status victim : Nat) : Prop := ∃ u, exec ev s = point (gone u) ∧
          u.mem = (m.put (loc (rec_ + 10)) [BitVec.ofNat 8 status]).put (loc (rec_ + 12)) (word victim)
        (p.kind = .rins ∨ p.kind = .rdel) → p.phase = 0 → rec_ % 16 = 0 → p.f 4 4 = 1 →
        (p.block.drop 8).all (· == 0) = true → t.g.inAlloc rec_ 16 = true → t.table (t.localLe p.lane (rec_ + 8) 1) 2 = .ok tb →
        (0xF0000000 ≤ id → ends t.mem 5 0xFFFFFFFF) ∧
        (id < 0xF0000000 → (1 < g ∨ g = 1 ∧ tb.state = 0 ∨ 2 ^ (tb.gen g).bits ≤ x ∨ t.localLe p.lane (rec_ + 11) 1 ≠ 0) →
          ends t.mem 6 0xFFFFFFFF) ∧
        ∀ c, id < 0xF0000000 → (g = 0 ∨ g = 1 ∧ tb.state ≠ 0) → x < 2 ^ (tb.gen g).bits →
          t.localLe p.lane (rec_ + 11) 1 = 0 → t.chain tb g x 2 = .ok c →
          (p.kind = .rins → ∀ a, c.find id = some a → ends t.mem 1 0xFFFFFFFF) ∧
          (p.kind = .rins → ∀ a, c.find id = none → c.find 0xFFFFFFFF = some a →
            ends (up (t.mem.put a (word id)) tb.pa 0x50 1) 0 0xFFFFFFFF) ∧
          (p.kind = .rins → c.find id = none → c.find 0xFFFFFFFF = none → tb.policy = 0 →
            ends (up t.mem tb.pa 0x58 1) 2 0xFFFFFFFF) ∧
          (p.kind = .rins → ∀ ring, c.find id = none → c.find 0xFFFFFFFF = none → tb.policy = 1 →
            t.rAddr ((tb.gen g).ring + x) 2 = .ok ring →
            let k := t.mem.le ring 1 % 16
            let b := c.headD (0, [])
            ends (up (up ((t.mem.put (b.1 + 4 * k) (word id)).put ring [BitVec.ofNat 8 ((k + 1) % 16)]) tb.pa 0x60 1)
              tb.pa 0x50 1) 3 (b.2.getD k 0xFFFFFFFF)) ∧
          (p.kind = .rdel → c.find id = none → ends t.mem 4 0xFFFFFFFF) ∧
          (p.kind = .rdel → ∀ a, c.find id = some a → c.length = 1 →
            ends (up (t.mem.put a (word 0xFFFFFFFF)) tb.pa 0x68 1) 0 0xFFFFFFFF)) ∧
      -- RMIG: the claim
      (∀ tb, let n := p.f 1 1
        p.kind = .rmig → p.phase = 0 → p.f 0 1 ≤ 7 → 1 ≤ n → n ≤ 64 → p.f 2 2 = 0 → p.f 4 4 % 16 = 0 →
        16 + 304 * n ≤ p.f 8 4 → (p.block.drop 12).all (· == 0) = true → t.g.inAlloc (p.f 4 4) (p.f 8 4) = true →
        t.table (p.f 0 1) 2 = .ok tb →
        (tb.state = 0 → ∃ u, exec ev s = point (gone u) ∧
          u.mem = t.mem.put (loc (p.f 4 4)) (words [0xFFFFFFFF, 0, 0, 0])) ∧
        let m : Int := min (n : Int) (2 ^ tb.a.bits - (tb.cursor : Int))
        let claimed := t.mem.put (tb.pa + 0x34) (word ((tb.cursor : Int) + m).toNat)
        (tb.state ≠ 0 → 0 < m → ∃ u : State, exec ev s =
            point (u.putPart { p with phase := 1, started := true, done := [tb.cursor, m.toNat] }) ∧ u.mem = claimed) ∧
        (tb.state ≠ 0 → m ≤ 0 → ∃ u, exec ev s = point (gone u) ∧
          u.mem = claimed.put (loc (p.f 4 4)) (words [tb.cursor, (m % 2 ^ 32).toNat, 0, 0]))) ∧
      -- RMIG: the last bucket of its claim
      (∀ tb c first, p.kind = .rmig → 1 ≤ p.phase → p.done = [first, p.phase] → t.table (p.f 0 1) 0 = .ok tb →
        t.chain tb 0 (first + p.phase - 1) 0 = .ok c → ∃ u, exec ev s = point (gone u) ∧
          u.mem = t.mem.put (loc (p.f 4 4))
            (words ([first, p.phase, (p.done2 ++ c.ids).length, 0] ++ (p.done2 ++ c.ids)))) ∧
      -- RRET
      (∀ tb, p.kind = .rret → p.done = [] → p.f 1 3 = 0 → (p.block.drop 8).all (· == 0) = true →
        t.table (p.f 0 1) 2 = .ok tb →
        let result (m : Memory) (v : Nat) : Memory := m.put (loc (p.off + 4)) (word v)
        (tb.state = 0 → ∃ u, exec ev s = point (gone u) ∧ u.mem = result t.mem 1) ∧
        (tb.state ≠ 0 → tb.cursor < 2 ^ tb.a.bits → ∃ u, exec ev s = point (gone u) ∧ u.mem = result t.mem 2) ∧
        (tb.state ≠ 0 → 2 ^ tb.a.bits ≤ tb.cursor → ∃ u : State, exec ev s = point
            (u.putPart { p with started := true, done := [tb.a.base, tb.a.ring, tb.a.bits] }) ∧
          u.mem = result (((((t.mem.put tb.pa (leBytes 8 tb.b.base)).put (tb.pa + 0x30) (leBytes 1 tb.b.bits)).put
            (tb.pa + 0x10) (leBytes 8 tb.b.ring)).put (tb.pa + 0x33) (leBytes 1 0)).put (tb.pa + 0x34) (word 0)) 0)))

/-! ## The Referees. -/

/-- R272 to R281, R139: a Referee polls a run-list entry and reads the packet at the read index of a queue of its die into
its hand, unless one is in hand, one that holds the queue is open, or the ring is empty. A WAITSIG, a SIGNAL, a COND, a COPY,
a NOP and a PREFETCH that pass their checks give their slot back and stay open until they complete; one with a field out of
range stops its queue with STOPWHY 1. A WAITSIG completes when its signals are 0, and with ABORTNEG a negative one aborts the
queue with -1 in its signal. A packet that a COND skips is released with no effect, and so is one of an aborted queue. A
COPY moves its bytes, some or all at a time. A SIGNAL performs its atomic when it completes. A packet that completes
decrements its completion signal. How an aborted queue passes over its packets, that a COPY moves rising bytes some at a time,
that a packet's slot is tried before it acts, that an event whose condition does not hold changes nothing, and when the shared TLB
takes the translations of the addresses a packet uses, are the model's choices (log rows 58, 103, 113, 29, 122). -/
def Obligations.RefereePackets : Prop :=
  ∀ (s : State) (die qd : Nat) (q : QState) (p : Pkt), let part := (s.qdesc qd).part
    let stops (e : Instr) := exec e s = .next (s.stopQueue die p.qd p.idx 1)
    let good (va : Nat) (acc : Acc) : Prop := s.addrCheck die part va 8 acc = .ok
    let slotFree : Prop := s.slotCheck die p = .ok
    let openOf (f : Pkt → Bool) : Option Pkt := (s.queueOf die qd).bind fun x => x.open_.find? f
    let csigFree (t : State) : Prop := t.signalLocked die (s.qdesc p.qd).part p.csig = false
    let kept (l : List (Nat × Acc)) : State := s.noteUse die (s.qdesc p.qd).part (l.filter fun x => x.1 != 0)
    let ends (t : State) : State := (t.signalAt die (t.qdesc p.qd).part p.csig (· + (2 ^ 64 - 1))).updQueue die p.qd
      fun x => { x with open_ := x.open_.filter fun y => y.idx != p.idx }
    (s.refereeOn die = false → exec (.queuePoll die qd) s = .next s) ∧
    (s.refereeOn die = true → ∀ e, e < 256 → s.backed ((s.die die).rlbase.toNat + 8 * e) = true →
      s.reaches ((s.die die).rlbase.toNat + 8 * e) = true →
      leValue (s.agentBytes die ((s.die die).rlbase.toNat + 8 * e) 8) = qd → qd ≠ 0 → s.backed qd = true → (s.qdesc qd).home = die → die < 4 →
      s.queueOf die qd = some q →
      let d := s.qdesc qd
      let at_ := s.updQueue die qd fun q => { q with rl := e }
      ((q.inHand ≠ none ∨ d.state = 2 ∨ (∃ y ∈ q.open_, y.waiting = true)) → exec (.queuePoll die e) s = .next at_) ∧
      (q.inHand = none → (∀ y ∈ q.open_, y.waiting = false) → d.state ≠ 2 → d.bad = false →
        (d.widx ≤ d.ridx → exec (.queuePoll die e) s = .next at_) ∧
        ∀ bs, d.ridx < d.widx → at_.agentRead die d.part (d.slotVa d.ridx) 64 = .ok bs → byteField bs 0 1 ≠ 0 →
          let noted := at_.noteUse die d.part [(d.slotVa d.ridx, 0)]
          exec (.queuePoll die e) s = .next
            (if q.skip = 0 ∧ d.state = 0 ∧ 7 < byteField bs 0 1 then noted.stopQueue die qd d.ridx 1
            else noted.updQueue die qd fun q =>
              { q with inHand := some ⟨qd, d.ridx, bs, d.state == 1 && q.skip == 0, false, 0⟩ }))) ∧
    (s.packetOf die qd 2 = some (q, p) →
      (p.headOk 0x20 0x38 = false → stops (.waitsigPacket die qd)) ∧
      (p.headOk 0x20 0x38 = true → good (p.f 8 8) 0 → good (p.f 0x10 8) 0 → good (p.f 0x18 8) 0 → good p.csig 2 → slotFree →
        exec (.waitsigPacket die qd) s = .next
          ((kept [(p.f 8 8, 0), (p.f 0x10 8, 0), (p.f 0x18 8, 0), (p.csig, 2)]).takePacket die p true))) ∧
    (openOf (fun y => y.f 0 1 == 2) = some p → ∀ vs, s.waitValues die p = some vs →
      let held := s.noteUse die part ([(p.f 8 8, 0), (p.f 0x10 8, 0), (p.f 0x18 8, 0)].filter fun x => x.1 != 0)
      ((∀ v ∈ vs, v = 0) → csigFree held → exec (.waitsigComplete die qd) s = .next (ends held)) ∧
      ((∃ v ∈ vs, 2 ^ 63 ≤ v) → p.abortNeg = true → p.csig % 8 = 0 → held.signalLocked die part p.csig = false →
        exec (.waitsigComplete die qd) s =
          .next (((held.signalAt die part p.csig fun _ => 2 ^ 64 - 1).agentWrite (qd + 0x24) [1]).closePacket die p)) ∧
      ((∃ v ∈ vs, v ≠ 0) → ((∀ v ∈ vs, v < 2 ^ 63) ∨ p.abortNeg = false) →
        exec (.waitsigComplete die qd) s = .next held)) ∧
    (s.packetOf die qd 3 = some (q, p) → p.headOk 0x1A 0x38 = true → p.f 0x18 1 ≤ 5 → p.f 0x19 1 ≠ 0 → p.f 8 8 ≠ 0 →
      good (p.f 8 8) 0 → good p.csig 2 → slotFree → let held := kept [(p.f 8 8, 0), (p.csig, 2)]
      ∀ bs, held.agentRead die part (p.f 8 8) 8 = .ok bs → let u := held.takePacket die p p.barrier
      exec (.condPacket die qd) s = .next
        (if sigCond (p.f 0x18 1) (BitVec.ofNat 64 (leValue bs)) (BitVec.ofNat 64 (p.f 0x10 8)) then
          u.updQueue die qd fun x => { x with skip := p.f 0x19 1 } else u)) ∧
    (s.packetOf die qd 4 = some (q, p) → p.headOk 0x19 0x38 = true → p.f 0x18 1 ≤ 1 → p.f 8 8 ≠ 0 →
      good (p.f 8 8) 2 → good p.csig 2 → slotFree →
      exec (.signalPacket die qd) s = .next ((kept [(p.f 8 8, 2), (p.csig, 2)]).takePacket die p p.barrier)) ∧
    (∀ idx pa, openOf (fun y => y.idx == idx) = some p → p.f 0 1 = 4 → p.qd = qd → p.f 8 8 ≠ 0 → csigFree s →
      s.agentAddr die part (p.f 8 8) 2 = .ok pa →
      let old := leValue (s.agentBytes die pa 8)
      let t := (s.noteUse die part [(p.f 8 8, 2)]).agentWrite pa (leBytes 8 ((if p.f 0x18 1 = 0 then p.f 0x10 8 else old + p.f 0x10 8) % 2 ^ 64))
      t.signalLocked die (t.qdesc qd).part p.csig = false → exec (.packetComplete die qd idx) s = .next (ends t)) ∧
    (s.packetOf die qd 5 = some (q, p) →
      (p.headOk 0x20 0x38 = false → stops (.copyPacket die qd)) ∧
      (p.headOk 0x20 0x38 = true → 8 ≤ p.f 0x18 8 → p.f 0x18 8 ≤ 2 ^ 32 → p.f 0x18 8 % 8 = 0 → p.f 8 8 % 8 = 0 →
        p.f 0x10 8 % 8 = 0 → good p.csig 2 → s.spanCheck die part (p.f 0x10 8) (p.f 0x18 8) 0 = .ok →
        s.spanCheck die part (p.f 8 8) (p.f 0x18 8) 1 = .ok → slotFree →
        exec (.copyPacket die qd) s = .next ((kept (pagesOf (p.f 0x10 8) (p.f 0x18 8) 0 ++
          pagesOf (p.f 8 8) (p.f 0x18 8) 1 ++ [(p.csig, 2)])).takePacket die p p.barrier))) ∧
    (∀ idx pd ps, openOf (fun y => y.idx == idx) = some p → p.f 0 1 = 5 → p.qd = qd → p.csig = 0 →
      s.mem.wf = true → s.unseen = [] →
      let left := p.f 0x18 8 - p.moved
      let dst0 := p.f 8 8 + p.moved
      let frm := p.f 0x10 8 + p.moved
      0 < left → dst0 % 2 ^ 17 + left ≤ 2 ^ 17 → frm % 2 ^ 17 + left ≤ 2 ^ 17 → s.agentAddr die part dst0 1 = .ok pd →
      s.agentAddr die part frm 0 = .ok ps → ∃ u m, exec (.packetComplete die qd idx) s = .next u ∧ 0 < m ∧ m ≤ left ∧
        (∀ k < m, u.mem.get (pd + k) = s.mem.get (ps + k)) ∧ ∀ a, a < pd ∨ pd + m ≤ a → u.mem.get a = s.mem.get a) ∧
    (s.refereeOn die = true → s.queueOf die qd = some q → q.inHand = some p → p.aborted = false → slotFree →
      (q.skip ≠ 0 → exec (.nopPacket die qd) s = .next ((s.releaseSlot die qd p.idx).updQueue die qd fun x =>
        { x with inHand := none, skip := x.skip - 1 })) ∧
      (q.skip = 0 → p.f 0 1 = 6 → p.headOk 8 0x38 = true → good p.csig 2 →
        exec (.nopPacket die qd) s = .next ((kept [(p.csig, 2)]).takePacket die p p.barrier))) ∧
    (s.packetOf die qd 7 = some (q, p) → p.headOk 0x28 0x38 = true → good p.csig 2 →
      (∀ h ∈ p.handles, s.handleCheck die part h = .ok) → slotFree →
      let t := kept [(p.csig, 2)]
      exec (.prefetchPacket die qd) s =
        .next ((t.noteUse die part (t.handleUses die part p.handles)).takePacket die p p.barrier)) ∧
    (s.refereeOn die = true → s.queueOf die qd = some q → q.inHand = some p → p.aborted = true → slotFree →
      let freed (t : State) : State := (t.releaseSlot die qd p.idx).updQueue die qd fun x => { x with inHand := none }
      (2 ≤ p.f 0 1 → p.f 0 1 ≤ 7 → p.csig % 8 = 0 → s.signalLocked die part p.csig = false →
        exec (.abortedPacket die qd) s = .next (freed (s.signalAt die part p.csig fun _ => 2 ^ 64 - 1))) ∧
      (∀ b, p.f 0 1 = 1 → s.agentRead die part (p.f 8 8) 256 = .ok b → p.f 0x10 8 = 0 → byteField b 0x80 8 % 8 = 0 →
        let held := s.noteUse die part [(p.f 8 8, 0)]
        held.signalLocked die part (byteField b 0x80 8) = false →
        exec (.abortedPacket die qd) s = .next (freed (held.signalAt die part (byteField b 0x80 8) fun _ => 2 ^ 64 - 1)))) ∧
    (∀ idx, openOf (fun y => y.idx == idx) = some p →
      (p.f 0 1 ∈ [3, 6] ∨ p.f 0 1 = 5 ∧ p.f 0x18 8 ≤ p.moved) → csigFree s →
      exec (.packetComplete die qd idx) s = .next (ends s)) ∧
    (∀ va f, ∀ pa, va ≠ 0 → s.agentAddr die part va 2 = .ok pa →
      s.signalAt die part va f = (s.noteUse die part [(va, 2)]).agentWrite pa (leBytes 8 (f (leValue (s.agentBytes die pa 8)) % 2 ^ 64)))

/-- R244, R281 to R288, R299: launches. A LAUNCH packet whose record keeps R282 leaves a launch that waits for its step 5; one
that fails it, its formats, its scratchpad size or its first handle ends REJECTED with REASON 1, 2, 3 or 4 and -1 in its
signal, and gives its slot back. The first waiting launch that can take what it needs is admitted: it takes a free window,
whose barriers are cleared, its bitmap is zeroed, and its handles are claimed, a resident one by sharing its slot, another
by a free slot. A launch whose tensors have been copied is ready. A die's reserve that has fallen below 8 takes the lowest
returned items first, then the next ones, 8 at a time, none twice. That a misaligned completion signal is left unwritten,
that a packet's slot is tried before it acts, how copies are made and pinned, what one that does not translate leaves, and when
the shared TLB takes the translations of what a Referee reads, are the model's choices (log rows 59, 113, 104, 116, 122). -/
def Obligations.LaunchesAreAdmitted : Prop :=
  ∀ (s : State) (die qd lid : Nat) (q : QState) (p : Pkt) (l : Launch), let d := s.qdesc qd
    (s.packetOf die qd 1 = some (q, p) → (∀ x ∈ s.launches, ¬ (x.qd = qd ∧ x.pkt = p.idx ∧ x.stage = .waiting)) →
      p.headOk 0x18 0x40 = true → p.f 8 8 % 256 = 0 → p.f 8 8 < 2 ^ 55 → s.addrCheck die d.part (p.f 0x10 8) 64 1 = .ok →
      s.slotCheck die p = .ok →
      let u := s.noteUse die (s.qdesc p.qd).part (if p.f 0x10 8 = 0 then [] else [(p.f 0x10 8, 1)])
      let rejected (v : State) (n csig reason : Nat) : Prop := ∀ t : State, t.signalLocked die d.part csig = false →
        (p.f 0x10 8 = 0 ∧ t = v ∨ p.f 0x10 8 ≠ 0 ∧ v.agentStore die d.part (p.f 0x10 8)
          (recordBytes 5 reason (v.now die) 0 n 0 0) = .ok t) →
        exec (.launchPacket die qd) s = .next
          ((if csig % 8 = 0 then t.signalAt die d.part csig fun _ => 2 ^ 64 - 1 else t).dropPacket die p)
      (∀ f, u.agentRead die d.part (p.f 8 8) 256 = .error (some f) → rejected u 0 0 1) ∧
      ∀ b, u.agentRead die d.part (p.f 8 8) 256 = .ok b →
        let f := byteField b
        let n := f 0x10 4 * f 0x14 4 * f 0x18 2 * f 0x1A 1
        let form : Prop := f 0 8 < 2 ^ 22 ∧ f 8 8 % 64 = 0 ∧ f 0x10 4 ≠ 0 ∧ f 0x14 4 ≠ 0 ∧ f 0x18 2 ≠ 0 ∧ 1 ≤ f 0x1A 1 ∧
          f 0x1A 1 ≤ 8 ∧ (f 0x1B 1 = 8 ∨ f 0x1B 1 = 16) ∧ f 0x74 1 ≤ 3 ∧ d.cls ≤ f 0x74 1 ∧ f 0x75 1 ≤ 1 ∧
          (f 0x75 1 = 1 → f 0x68 8 < 2 ^ 22) ∧ zeroField b 0x76 2 = true ∧ zeroField b 0xD0 48 = true ∧
          f 0x80 8 % 8 = 0 ∧ f 0x88 8 % 8 = 0 ∧ f 0xC0 8 % 8 = 0
        let formats : Prop := ∀ k < 8, fmtOk (BitVec.ofNat 64 (f (0x20 + 8 * k) 8)) = true
        let size : Prop := f 0x1C 4 ≤ if f 0x74 1 = 0 then 262144 else 786432
        let handle (k : Nat) : Nat := f (0x98 + 8 * k) 8
        let entry (h : Nat) : Prop := h = 0 ∨ h ≤ (u.die die).atlen.toNat ∧ ∃ e, u.adaptEntry die d.part h = .ok e ∧
          byteField e 8 4 % 256 = 0 ∧ byteField e 8 4 ≤ (u.die die).adsize.toNat ∧ zeroField e 0x19 7 = true
        let va (h : Nat) : Nat × Acc := ((u.die die).atbase.toNat + 32 * (h - 1), 0)
        let read := u.noteUse die d.part [(p.f 8 8, 0)]
        let looked := u.noteUse die d.part ((p.f 8 8, 0) :: (((List.range 4).map handle).filter (· != 0)).map va)
        (form → formats → size → (∀ k < 4, entry (handle k)) → exec (.launchPacket die qd) s = .next { looked with
          tkt := s.tkt + 1,
          launches := s.launches ++ [recLaunch b (recInfo b s.tkt die d.part (p.f 8 8)) p q.rl] }) ∧
        (¬ form → rejected read n (f 0x80 8) 1) ∧ (form → ¬ formats → rejected read n (f 0x80 8) 2) ∧
        (form → formats → ¬ size → rejected read n (f 0x80 8) 3) ∧
        (form → formats → size → ¬ entry (handle 0) → u.adaptEntry die d.part (handle 0) ≠ .error none →
          rejected (if handle 0 ≤ (u.die die).atlen.toNat then u.noteUse die d.part [(p.f 8 8, 0), va (handle 0)] else read)
            n (f 0x80 8) 4)) ∧
    (s.refereeOn die = true →
      (∀ pre post t, s.launches = pre ++ l :: post → l.stage = .waiting → l.info.home = die →
        (∀ x ∈ pre, x.stage = .waiting → x.info.home = die → s.admitOne die x = none) → s.admitOne die l = some t →
        exec (.launchAdmit die) s = .next t) ∧
      ((∀ x ∈ s.launches, x.stage = .waiting → x.info.home = die → s.admitOne die x = none) →
        exec (.launchAdmit die) s = .next s)) ∧
    (∀ w, s.waitingPacket l = some p → (s.die die).windows.findIdx? (·.isNone) = some w → s.slotCheck die p = .ok →
      s.adaptLocked die l.info.part l.handles = false →
      let part := l.info.part
      let n := l.info.bitmapBytes
      let admits (t : State) (stage : LStage) : State :=
        let z := t.zeroSpan die part (n / 2 ^ 17 + 2) l.info.bmAddr.toNat n
        let v := z.updDie die fun d => { d with
          windows := updAt w (fun _ => some l.info.lid) d.windows
          barriers := d.barriers.zipIdx.map fun x => if x.2 / 32 = w then Barrier.clear else x.1 }
        (v.updLaunch l.info.lid fun l => { l with
          window := w, stage := stage, admitted := v.now die, order := s.tkt
          rlIndex := (s.runEntry die l.qd).getD l.rlIndex }).takePacket die p p.barrier
      let t : State := { s with tkt := s.tkt + 1 }
      let noted (h : Nat) (v : State) : State := v.noteUse die part
        (if h ≤ (s.die die).atlen.toNat then [((s.die die).atbase.toNat + 32 * (h - 1), 0)] else [])
      s.spanCheck die part l.info.bmAddr.toNat n 1 = .ok →
      (l.handles = [] → s.admitOne die l = some (admits t .ready)) ∧
      ∀ h e, l.handles = [h] → h ≠ 0 → s.adaptEntry die part h = .ok e →
        (byteField e 0x10 8 ≠ 0 → ∀ k, s.slotHolding (byteField e 0x18 1) h = some k → s.admitOne die l = some (admits
          (noted h ((t.bumpCount die part h (· + 1)).updRes (byteField e 0x18 1) k fun r =>
            { r with count := r.count + 1, claimed := s.tkt })) .ready)) ∧
        (byteField e 0x10 8 = 0 → (∀ x < 4, s.slotHolding x h = none) → ∀ k, s.freeSlots die 1 = [k] →
          let old := ((s.die die).ref.slot k).handle
          s.admitOne die l = some (admits ((if old = 0 then noted h t else (noted h t).setAdapt die part old 0x10 8 0).updRes
            die k fun _ => ⟨h, 1, s.tkt, none⟩) .loading)) ∧
        (byteField e 0x10 8 = 0 → s.freeSlots die 1 = [] → s.admitOne die l = none)) ∧
    (s.launch lid = some l → l.stage = .loading → s.adaptLocked l.info.home l.info.part l.handles = false →
      (∀ h ∈ l.handles, s.loadLocked l.info.home l.info.part h = false) →
      let ready (t : State) : Host.Outcome State Fault Refusal := .next (t.updLaunch lid fun x => { x with stage := .ready })
      exec (.adaptationLoadComplete lid) s =
        ready (l.handles.foldl (fun t h => t.loadHandle l.info.home l.info.part (some lid) h) s) ∧
      (l.handles = [] → exec (.adaptationLoadComplete lid) s = ready s) ∧
      ∀ h k e, l.handles = [h] → s.adaptEntry l.info.home l.info.part h = .ok e → byteField e 0x10 8 = 0 →
        s.slotHolding l.info.home h = some k →
        let at_ := ((s.die l.info.home).adbase.toNat + k * (s.die l.info.home).adsize.toNat) % 2 ^ 64
        let len := byteField e 8 4
        let set (off n v : Nat) (t : State) : State := t.setAdapt l.info.home l.info.part h off n v
        exec (.adaptationLoadComplete lid) s = ready (set 0x0C 4 1 (set 0x18 1 l.info.home (set 0x10 8 at_
          (((s.copySpan l.info.home l.info.part (2 * (len / 2 ^ 17 + 2)) at_ (byteField e 0 8) len).pinCopy l.info.home
            l.info.part at_ len true).updRes l.info.home k fun r => { r with pinned := some lid }))))) ∧
    (s.launch lid = some l →
      ((l.reserveOf die).length < 8 → (∃ g ∈ s.gangs, g.info.lid = lid ∧ g.place.running = true ∧ g.place.die = die) →
        exec (.dispenserRefill die lid) s = .next (s.updLaunch lid fun x => x.refill die 8)) ∧
      (8 ≤ (l.reserveOf die).length → exec (.dispenserRefill die lid) s = .next s)) ∧
    (l.returned = [] → l.drawn + 8 ≤ l.cx * l.cy →
      (l.refill die 8).reserveOf die = l.reserveOf die ++ (List.range 8).map (l.drawn + ·) ∧
      (l.refill die 8).drawn = l.drawn + 8) ∧
    (∀ k, k ∈ l.returned → (∀ x ∈ l.returned, k ≤ x) → (l.refill die 1).reserveOf die = l.reserveOf die ++ [k] ∧
      (l.refill die 1).returned = l.returned.erase k ∧ (l.refill die 1).drawn = l.drawn) ∧
    (∀ out : Launch → List Nat, (∀ x, out x = (x.reserve.map (·.2)).flatten ++ x.returned) →
      (out l).Nodup → (∀ k ∈ out l, k < l.drawn) →
        (out (l.refill die 8)).Nodup ∧ ∀ k ∈ out (l.refill die 8), k < (l.refill die 8).drawn)

/-- R99, R132, R20, R285, R289, R290, R292, R293, R318: work goes to the first launch in R289's order that fits, by class, slack, admission
time, home die, run-list index and order of admission; its next instance starts with cleared scratchpads at the launch's
entry. A ready launch that fits nowhere, with none before it that the die can do something for, asks every context of the
slot of a lower class's instance to drain: of the lowest class, then of the greatest slack, then the last one started. An instance that is over leaves the machine, and its launch counts it; with the last one the launch completes: its record has
STATUS and REASON by R318's table unless ECOMMIT has written it, its window and claims are released, its signal goes down by 1
and its packet is over. An idle die asks for a queue after 2 us. The first Referee on its ring with two or more queues to give
hands over the one whose head packet ranks lowest, once nothing of it is in hand: HOME, the run-list entry and the queue move
to the die that asked; with none, the 2 us begin again. That a die has one pre-emption under way at a time, that no
instance starts once the trigger's time has come, and that an event whose condition does not hold changes nothing, are the
model's choices (log rows 37, 28, 29), and so is the run-list entry a queue comes to (row 133). -/
def Obligations.WorkIsPlaced : Prop :=
  (∀ a b : Rank, a.before b = true ↔ a.cls < b.cls ∨ a.cls = b.cls ∧
    ((∃ i, a.slack = some i ∧ ∀ j, b.slack = some j → i < j) ∨ a.slack = b.slack ∧
      (a.admitted < b.admitted ∨ a.admitted = b.admitted ∧ (a.home < b.home ∨ a.home = b.home ∧
        (a.rl < b.rl ∨ a.rl = b.rl ∧ a.order < b.order))))) ∧
  (∀ (l : Launch) (now : Nat),
    (l.info.dline = false → l.slack now = none) ∧
    (l.info.dline = true → l.progress = 0 → l.slack now = some ((l.info.deadline : Int) - now - l.est * l.unitNs)) ∧
    (l.info.dline = true → l.progress ≠ 0 → l.est ≤ l.progress → l.slack now = some ((l.info.deadline : Int) - now)) ∧
    (∀ t0, l.info.dline = true → l.progress ≠ 0 → l.progress < l.est → l.t0 = some t0 → l.slack now =
      some ((l.info.deadline : Int) - now - (((l.est : Int) - l.progress) * (now - t0)).tdiv l.progress))) ∧
  ∀ (s : State) (die gid : Nat),
    (∀ l sp, s.firstFit die = some (l, sp) → l ∈ s.launches ∧ s.spaceFor die l.info = some sp ∧
      ∀ x ∈ s.launches, s.readyLaunch x = true → (s.spaceFor die x.info).isSome = true →
        (x.rank (s.now die)).before (l.rank (s.now die)) = false) ∧
    (∀ l, l ∈ s.candidates die ↔ l ∈ s.launches ∧
      (s.readyLaunch l = true ∨ ∃ g ∈ s.gangs, g.info.lid = l.info.lid ∧ g.away = true)) ∧
    (s.candidates die).Pairwise (fun a b => (b.rank (s.now die)).before (a.rank (s.now die)) = false) ∧
    (∀ l, s.placeOne die l = none ↔ s.spaceFor die l.info = none ∧ (s.readyLaunch l = false ∨
      s.preempt die l.info = none)) ∧
    (s.refereeOn die = true → (∀ l ∈ s.candidates die, s.placeOne die l = none) → exec (.instancePlace die) s = .next s) ∧
    (∀ pre l post, s.refereeOn die = true → s.candidates die = pre ++ l :: post → (∀ x ∈ pre, s.placeOne die x = none) →
      (∀ sp, s.spaceFor die l.info = some sp → s.readyLaunch l = false → exec (.instancePlace die) s = .next s) ∧
      (∀ v, s.spaceFor die l.info = none → s.readyLaunch l = true → s.victimFor die l.info = some v →
        let on := (s.onSlot die v.place.slot).filter (·.place.running)
        s.preempting die = false → (l.info.cls = 0 ∨ on.length ≤ s.spillRoom die) →
        exec (.instancePlace die) s = .next (s.mapGangs fun g =>
          if on.any (·.gid == g.gid) then g.askPreempt (s.now die) (l.info.cls == 0) else g)) ∧
      ∀ sp, s.spaceFor die l.info = some sp → s.readyLaunch l = true →
      exec (.instancePlace die) s = .next (s.startInstance die l sp) ∧
      let i := l.info
      let g := newGang i s.tkt l.taken die sp.1 sp.2 0
      (∃ x ∈ (s.startInstance die l sp).gangs, x =
        { g with slowed := (s.die die).health.span, q0 := { g.q0 with pts := x.q0.pts } }) ∧
      (s.startInstance die l sp).mem = (s.clearRegion die sp.1 sp.2 i).mem ∧
      (∀ x ∈ s.launches, x.info.lid = i.lid → ∃ y ∈ (s.startInstance die l sp).launches, y.info = x.info ∧
        y.taken = x.taken + 1) ∧
      g.q0.pc = i.prog ∧ g.q0.exec = (if i.width = 8 then 0x00FF else 0xFFFF) ∧
      g.gx + i.nx * (g.gy + i.ny * (g.gz + i.nz * g.stage)) = l.taken ∧
      ∀ e < i.width, ∀ k < (if i.cls = 0 then 2 ^ 18 else 3 * 2 ^ 18),
        (s.clearRegion die sp.1 sp.2 i).mem.get (windowKey die sp.1 ((if i.width = 8 then 8 * sp.2 else 0) + e)
          ((if i.cls = 0 then 3 * 2 ^ 18 else 0) + k)) = 0) ∧
    (∀ (i : LInfo), (s.preempting die = true ∨ s.victimFor die i = none → s.preempt die i = none) ∧
      (∀ v, s.victimFor die i = some v → i.cls ≠ 0 →
        s.spillRoom die < ((s.onSlot die v.place.slot).filter (·.place.running)).length → s.preempt die i = none) ∧
      let half (n k : Nat) : Bool := (s.die die).halfFull n k
      let can (g : Gang) : Prop := g.place.running = true ∧ g.place.die = die ∧ i.cls < g.info.cls ∧
        (s.die die).slotOn g.place.slot = true ∧
        (if i.width = 16 then half g.place.slot 0 && half g.place.slot 1
          else half g.place.slot 0 || half g.place.slot 1) = true ∧
        ∀ x ∈ s.onSlot die g.place.slot, if x.place.running = true then x.victim = true else x.blocks (i.cls == 0) = false
      (s.victimFor die i = none → ∀ g ∈ s.gangs, ¬ can g) ∧
      ∀ v, s.victimFor die i = some v → v ∈ s.gangs ∧ can v ∧ ∀ g ∈ s.gangs, can g → s.worse (s.now die) g v = false) ∧
    (∀ (a b : Gang) la lb, s.launch a.info.lid = some la → s.launch b.info.lid = some lb →
      (s.worse (s.now die) a b = true ↔ b.info.cls < a.info.cls ∨ a.info.cls = b.info.cls ∧
        (slackLt (lb.slack (s.now die)) (la.slack (s.now die)) = true ∨
          la.slack (s.now die) = lb.slack (s.now die) ∧ b.gid < a.gid))) ∧
    (∀ g, s.gangs.find? (fun x => x.gid == gid) = some g → g.over = true → ∃ u : State, exec (.instanceEnd gid) s =
      .next (((List.range 4).foldl (fun t d => t.returnReserve g.info.lid d) u).checkLaunch g.info.lid) ∧ u.mem = s.mem ∧
      (∀ x ∈ s.launches, x.info.lid = g.info.lid → ∃ y ∈ u.launches, y.info = x.info ∧ y.tally.ended = x.tally.ended + 1)) ∧
    (∀ l, s.launch gid = some l →
      let i := l.info
      let t := l.tally
      let passed : Prop := l.trig ≠ [] ∨ l.trigAll = true
      let o := t.outcome l.triggered
      let done : Prop := (l.stage = .ready ∨ l.stage = .loading) ∧ i.nx * i.ny * i.nz * i.stages ≤ t.ended + t.never
      (t.aborted = true → o = (3, 0)) ∧ (t.aborted = false →
        (∀ r w, t.killed = some (r, w) → o = (4, r)) ∧ (t.killed = none → (t.missed = true → o = (2, 4)) ∧ (t.missed = false →
          (passed → t.inEndgame = true → o = (2, 5)) ∧ (passed → t.inEndgame = false → t.never ≠ 0 → o = (2, 6)) ∧
          (¬ passed ∨ t.inEndgame = false ∧ t.never = 0 → o = (0, 0))))) ∧
      (¬ done → s.checkLaunch gid = s) ∧
      (done → l.stage = .ready ∨ l.handles = [] → i.home < s.dies.length → s.adaptLocked i.home i.part l.handles = false →
        s.signalLocked i.home i.part l.csig = false → (∀ h ∈ l.handles, s.loadLocked i.home i.part h = false) →
        let record := recordBytes o.1 o.2 (s.now i.home) t.ended t.never l.undeliv t.faultWord
        ∀ r : State, (if t.committed = true ∨ l.crec = 0 then r = s else s.agentStore i.home i.part l.crec record = .ok r ∨
          r = s ∧ ∃ f, s.agentStore i.home i.part l.crec record = .error (some f)) →
        let v := l.handles.foldl (fun x h => x.releaseHandle i.home i.part gid h) (r.updDie i.home fun d =>
          { d with windows := d.windows.map fun w => if w = some gid then none else w })
        let u := s.checkLaunch gid
        (l.csig = 0 → u.mem = v.mem) ∧
        (∀ w pa, l.csig ≠ 0 → v.agentUse i.home i.part l.csig 2 = .ok (w, pa) →
          u.mem = v.mem.put pa (leBytes 8 ((leValue (w.agentBytes i.home pa 8) + (2 ^ 64 - 1)) % 2 ^ 64))) ∧
        u.launches = s.launches.filter (·.info.lid != gid) ∧ some gid ∉ (u.die i.home).windows ∧
        ∀ d, ∀ q ∈ (u.die d).ref.queues, q.qd = l.qd → ∀ p ∈ q.open_, ¬ (p.f 0 1 = 1 ∧ p.idx = l.pkt))) ∧
    (∀ part h b k, s.adaptEntry die part h = .ok b → s.slotHolding (byteField b 0x18 1) h = some k →
      let t := (s.bumpCount die part h (· - 1)).updRes (byteField b 0x18 1) k fun r =>
        { r with count := r.count - 1, pinned := r.pinned.filter (· != gid) }
      s.releaseHandle die part gid h = if ((s.die (byteField b 0x18 1)).ref.slot k).pinned = some gid
        then t.pinCopy die part (byteField b 0x10 8) (byteField b 8 4) false else t) ∧
    (∀ t, s.refereeOn die = true → s.idleDie die = true → (s.die die).ref.idleSince = some t → t + 2000 ≤ s.now die →
      exec (.stealRequest die) s = .next (s.updRef die fun r => { r with request := some (s.now die) })) ∧
    (stealRing 0 = [1, 3, 2] ∧ stealRing 1 = [3, 2, 0] ∧ stealRing 3 = [2, 0, 1] ∧ stealRing 2 = [0, 1, 3]) ∧
    ((s.handOver die = none ↔ ((s.die die).ref.queues.filter (s.stealable die)).length < 2) ∧
      let can (q : QState) : Prop := q ∈ (s.die die).ref.queues ∧ s.stealable die q = true
      (∀ q, s.handOver die = some q →
        can q ∧ ∀ x, can x → (s.headRank die q).before (s.headRank die x) = false) ∧
      ∀ q, let d := s.qdesc q.qd
        (s.stealable die q = true ↔ s.reaches q.qd = true ∧ d.bad = false ∧ d.home = die ∧ d.state = 0 ∧ d.qflags = 1 ∧
          2 ≤ d.scope ∧ d.ridx + (if q.inHand.isSome then 1 else 0) < d.widx ∧ ∃ k, s.runEntry die q.qd = some k) ∧
        ∀ p, s.agentRead die d.part (d.slotVa (q.unread d)) 64 = .ok p →
          (byteField p 0 1 ≠ 1 → s.headRank die q = ⟨d.cls, none, s.now die, die, q.rl, 0⟩) ∧
          ∀ b, byteField p 0 1 = 1 → s.agentRead die d.part (byteField p 8 8) 256 = .ok b →
            (s.headRank die q).cls = byteField b 0x74 1 ∧
            (byteField b 0x75 1 % 2 = 0 → (s.headRank die q).slack = none) ∧
            (byteField b 0x75 1 % 2 = 1 → (s.headRank die q).slack =
              some ((byteField b 0x60 8 : Int) - s.now die - byteField b 0x78 8 * (max 1 (byteField b 0x94 4) : Nat)))) ∧
    (∀ t n pre d post q k, die < 4 → s.dies.length = 4 → (s.die die).ref.request = some t → s.freeRun die = some n →
      stealRing die = pre ++ d :: post → (∀ x ∈ pre, s.refereeOn x = true → s.handOver x = none) →
      s.refereeOn d = true → s.handOver d = some q → s.runEntry d q.qd = some k →
      (q.inHand ≠ none → exec (.stealHandover die) s = .next s) ∧
      (q.inHand = none → ∃ u, exec (.stealHandover die) s = .next u ∧
        u.mem = ((s.mem.put (q.qd + 0x21) [BitVec.ofNat 8 die]).put ((s.die d).rlbase.toNat + 8 * k) (leBytes 8 0)).put
          ((s.die die).rlbase.toNat + 8 * n) (leBytes 8 q.qd) ∧
        (u.die d).ref.queues = (s.die d).ref.queues.filter (·.qd != q.qd) ∧
        (u.die die).ref = { (s.die die).ref with
          queues := (s.die die).ref.queues ++ [{ q with rl := n }], request := none, idleSince := none } ∧
        u.launches = s.launches ∧ u.gangs = s.gangs)) ∧
    (∀ t n, (s.die die).ref.request = some t → s.freeRun die = some n →
      (∀ x ∈ stealRing die, s.refereeOn x = true → s.handOver x = none) → exec (.stealHandover die) s =
        .next (s.updRef die fun r => { r with request := none, idleSince := some (s.now die) }))

/-- R163, R236, R292, R306, R307, R309, R310, R339 to R343: saving, freezing and resuming a context, and the end of its launch's time. A
drained context, none of whose matrix results is in flight, leaves its slot for shadow storage, its caches dropped, and from there for a free entry of the spill area;
one that has not drained in time is frozen where it is; one in shadow storage returns to its half when no LIVE context runs
on its slot and no launch that ranks before its own fits the die. The trigger of a launch passes once on a die: the instances not
taken never start, those that run there are asked for their endgame, at once or by a mark in SYS mode and under a pre-emption, and
those in their endgame are left alone. The deadline stops what has not ended. A context that has drained enters the endgame at its
entry, with the lanes it has, no frame, an empty stack and the greater pts of its sequencers; with an engine parked it traps, and
one that has halted does not enter. A context that is to be suspended is saved as one that is pre-empted, within the
same bound. How a SUSPEND ends, and that an event whose condition does not hold changes nothing, are the model's choices
(log rows 34, 29). -/
def Obligations.ContextsMove : Prop :=
  ∀ (s : State) (gid die : Nat) (l : Launch), let t := s.focus gid
    let back (u : State) : Host.Outcome State Fault Refusal := .next (u.focus s.g.gid)
    (∀ d sl h since, s.hasGang gid → t.g.place = .run d sl h → t.g.drained = true → t.g.heldBack = false →
      let shadow (n : Option Nat) : State := t.updG fun x => { x with
        place := .shadow d sl h, closed := n, q0 := { x.q0 with l0 := [], utlb := [] }
        q1 := { x.q1 with l0 := [], utlb := [] }, paths := [], wake := 0 }
      (t.g.drain = .preempt since true → exec (.contextSave gid) s = back (shadow none)) ∧
      (t.g.drain = .preempt since false → exec (.contextSave gid) s = back (shadow (some t.tkt))) ∧
      (∀ a, t.g.drain = .suspend since a → exec (.contextSave gid) s = back (shadow (some t.tkt)))) ∧
    (s.hasGang gid → t.g.place.running = true → t.g.frozen = false → (∃ f ∈ t.g.fl, f.matrix = true) →
      t.g.drained = false ∧ exec (.contextSave gid) s = back t) ∧
    (∀ d sl h since, s.hasGang gid → t.g.place = .shadow d sl h → t.g.drain = .preempt since false → t.g.movable = true →
      t.untargeted t.g = true →
      (t.spillFree d = none → exec (.contextSave gid) s = back t) ∧
      ∀ e u, t.spillFree d = some e → t.saveContext t.g (.spill d e) = some u → exec (.contextSave gid) s =
        back ((u.settleRegion u.myDie u.g.place.slot u.g.place.half u.g.info).updG fun g =>
          { g with place := .spill d e, drain := .none, closed := none })) ∧
    (s.hasGang gid → t.g.place.running = true → t.g.mode = .user → t.g.stopping = false → t.g.q0.block ≠ .halted →
      (∃ since a, t.g.drain = .suspend since a ∧ since + 20000 < t.now t.myDie) ∨
        (∃ since live, t.g.drain = .preempt since live ∧ since + (if live then 15000 else 20000) < t.now t.myDie) →
      exec (.preemptFreeze gid) s = back (t.updG fun x => { x with frozen := true })) ∧
    (∀ g sl h, s.gangs.find? (fun x => x.gid == gid && !x.stopping) = some g → g.place = .shadow die sl h →
      g.drain = .none → (s.die die).slotOn sl = true → (∀ x ∈ s.onSlot die sl, x.place.running = true → x.info.cls ≠ 0) →
      let first (y x : Launch) : Prop := x ∈ s.candidates die ∧ (x.rank (s.now die)).before (y.rank (s.now die)) = true ∧
        (s.spaceFor die x.info).isSome = true
      ((∀ y, s.launch g.info.lid = some y → ∀ x, ¬ first y x) → exec (.contextRestore gid die) s =
        .next (s.mapGangs fun x => if x.gid = gid then x.resume (.run die sl h) (s.die die).health.span else x)) ∧
      (∀ y x, s.launch g.info.lid = some y → first y x → exec (.contextRestore gid die) s = .next s)) ∧
    (s.launch gid = some l → l.stage ≠ .waiting → l.info.dline = true → l.info.trigger ≤ s.now die → die < 4 →
      (die ∈ l.trig → exec (.deadlineTrigger die gid) s = .next s) ∧
      (die ∉ l.trig → exec (.deadlineTrigger die gid) s = .next ((({ s with launches := s.launches.map fun x =>
          let all := x.info.nx * x.info.ny * x.info.nz * x.info.stages
          if x.info.lid = gid then { x with
            trig := (x.trig ++ [die]).eraseDups, taken := all,
            tally := { x.tally with never := x.tally.never + (all - x.taken) } } else x } : State).mapGangs fun c =>
        if c.info.lid = gid ∧ (c.place.die = die ∨ c.place.running = false) then c.askEndgame 1 else c).checkLaunch gid))) ∧
    (∀ c : Gang, c.egReason = 0 → c.egMark = none → c.stopping = false → c.halted = false →
      (c.drain = .none → (c.place.running = true → c.inSys = false → c.frozen = false → c.askEndgame 1 = { c with drain := .endgame 1 }) ∧
        (c.place.running = false ∨ c.inSys = true ∨ c.frozen = true → c.askEndgame 1 = { c with egMark := some 1 })) ∧
      ((∃ since a, c.drain = .preempt since a) ∨ (∃ since a, c.drain = .suspend since a) →
        c.askEndgame 1 = { c with egMark := some 1 })) ∧
    (∀ c : Gang, c.egReason ≠ 0 ∨ (∃ r, c.drain = .endgame r) → c.askEndgame 1 = c) ∧
    (s.launch gid = some l → l.info.dline = false → exec (.deadlineStop die gid) s = .next s) ∧
    (s.launch gid = some l → l.stage ≠ .waiting → l.info.dline = true → l.info.deadline ≤ s.now die → die < 4 →
      l.trig.contains die = true → ∀ g ∈ s.gangs, g.info.lid = gid → g.onDie die = true → g.stopping = false →
      g.haltIssued = false → g.drain ≠ .stop → g.mode = .user → ∃ u, exec (.deadlineStop die gid) s = .next u ∧
        g.stop ∈ u.gangs ∧ (∀ x ∈ s.gangs, x.info.lid ≠ gid → x ∈ u.gangs) ∧ u.mem = s.mem) ∧
    (∀ r, s.hasGang gid → t.g.drain = .endgame r → t.g.entryReady = true → t.g.pmask = 0 →
      ∃ u, exec (.endgameEntry gid) s = back u ∧ u.g.egReason = r ∧ u.g.q0.pc = t.g.info.egEntry ∧ u.g.q0.frames = [] ∧
        u.g.q0.ds = [] ∧ u.g.q0.exec = t.g.epres &&& ~~~ t.g.xmask ∧ u.g.split = false ∧ u.g.drain = .none ∧
        u.g.q0.s = t.g.q0.s ∧ u.g.lanes = t.g.lanes ∧ u.mem = t.mem ∧
        (t.g.fences = [] → t.g.q0.block.abandoned = false → t.g.q1.block.abandoned = false →
          u.g.q0.pts = if t.g.split then max t.g.q0.pts t.g.q1.pts else t.g.q0.pts)) ∧
    (∀ r, s.hasGang gid → t.g.drain = .endgame r → t.g.entryReady = true → t.g.pmask ≠ 0 →
      t.g.q0.block.abandoned = false → t.g.q1.block.abandoned = false →
      ∃ u, exec (.endgameEntry gid) s = back u ∧ u.g.split = false ∧ u.g.q0.pts = (if t.g.split then max t.g.q0.pts t.g.q1.pts else t.g.q0.pts) ∧
        u.g.drain = .endgame r ∧ u.g.egReason = t.g.egReason ∧ u.g.inSys = true ∧ u.g.trapPc = BitVec.ofNat 64 t.g.info.egEntry) ∧
    (s.hasGang gid → t.g.q0.block = .halted → t.g.entryReady = false)

/-! ## The time unit, the control node, the fabric, health and boot. -/

/-- R301 to R304, R369: die 0's time unit as a PTP clock. A one-step Sync of its master gives the two times it carries; a
two-step one waits for its Follow_Up; Delay_Resp gives the mean path delay, and the offset that is accepted. What the unit
then has, every other die's unit has. A message of another domain or sender, or whose arrival is not within 4 ns of
the unit's time, changes nothing. A master that has been silent for ANNTO of its intervals is known no more, and none is
selected whose Announce is older. The first accepted offset sets the time in one step, and the times at which masters were
heard with it; after it an offset is slewed, by at most 500 ppm of the time that passes, but a lag of more than 10 ms is
made up in one step. A Delay_Resp counts that carries the number of the last Delay_Req. That the corrected time is reached
exactly, that a master is known by its last Announce, which stamps are taken, how datasets compare, and that a die 0 whose boot
has failed takes no message, are the model's choices (log rows 63, 64, 71, 109). -/
def Obligations.TimeUnitEvents : Prop :=
  ∀ (s : State) (m : PtpMsg) (d : PtpDataset) (n : Nat) (u : TimeUnit) (off : Int) (ns : Nat), s.dies ≠ [] →
    let t := (s.die 0).tu
    let p := u.pass ns
    let c : Int := u.slew - p.slew
    let all (e : Instr) (u : TimeUnit) := ∃ r : State, exec e s = .next r ∧ (r.die 0).tu = u ∧
      (∀ k < s.dies.length, (r.die k).tu.now = u.now ∧ (r.die k).tu.synced = u.synced ∧ (r.die k).tu.hold = u.hold) ∧
      r.mem = s.mem ∧ r.gangs = s.gangs
    (∀ a b : PtpDataset,
      (a.identity = b.identity → (datasetBefore a b = true ↔ a.stepsRemoved < b.stepsRemoved)) ∧
      (a.identity ≠ b.identity → (datasetBefore a b = true ↔ a.priority1 < b.priority1 ∨ a.priority1 = b.priority1 ∧
        (a.clockClass < b.clockClass ∨ a.clockClass = b.clockClass ∧ (a.accuracy < b.accuracy ∨ a.accuracy = b.accuracy ∧
          (a.variance < b.variance ∨ a.variance = b.variance ∧ (a.priority2 < b.priority2 ∨ a.priority2 = b.priority2 ∧
            a.identity < b.identity))))))) ∧
    (∀ x y, u.fresh = [x, y] → u.select.selected = some
      (if datasetBefore y.2.2 x.2.2 = true ∨ datasetBefore x.2.2 y.2.2 = false ∧ y.1 < x.1 then y.1 else x.1)) ∧
    ((s.die 0).failed = true → ∀ e ∈ [Instr.sync m, .followUp m, .announce m d, .delayResp m, .delayReq n,
      .announceReceiptTimeout n], exec e s = .next s) ∧
    ((s.die 0).failed = false →
    (t.hears m = false → all (.sync m) t ∧ all (.followUp m) t ∧ all (.delayResp m) t) ∧
    ((t.now : Int) > m.arrival + 4 ∨ m.arrival > (t.now : Int) + 4 → all (.sync m) t) ∧
    (t.hears m = true → (t.now : Int) ≤ m.arrival + 4 → m.arrival ≤ (t.now : Int) + 4 → m.twoStep = false → all (.sync m)
      { t with twoStep := false, syncMsg := none, t1 := some (m.stamp + m.correction), t2 := some (m.arrival : Int) }) ∧
    (t.hears m = true → (t.now : Int) ≤ m.arrival + 4 → m.arrival ≤ (t.now : Int) + 4 → m.twoStep = true →
      all (.sync m) { t with twoStep := true, syncMsg := some m }) ∧
    (∀ y, t.hears m = true → t.syncMsg = some y → y.seqId = m.seqId → all (.followUp m)
      { t with
        syncMsg := none, t1 := some (m.stamp + m.correction + y.correction), t2 := some (y.arrival : Int) }) ∧
    (∀ a b c, t.hears m = true → m.seqId = t.reqSeq → t.t1 = some a → t.t2 = some b → t.t3 = some c →
      let delay : Int := ((b - a) + (m.stamp - m.correction - (c : Int))) / 2
      all (.delayResp m) { t.accept (b - a - delay) with t1 := none, t2 := none, t3 := none }) ∧
    (s.answers 0 = true → t.selected ≠ none → t.now ≤ n + 4 → n ≤ t.now + 4 → ∃ r, exec (.delayReq n) s = .next r ∧
      let k := (t.reqSeq + 1) % 2 ^ 16
      r.out = s.out ++ [.delayReq n k] ∧ (r.die 0).tu = { t with t3 := some n, reqSeq := k } ∧ r.mem = s.mem) ∧
    (m.domain ≠ t.domain → all (.announce m d) t) ∧
    (m.domain = t.domain → ∃ u : TimeUnit, all (.announce m d) u ∧ u.utcOff = d.utcOffset ∧ u.hold = false ∧
      u.masters = (m.source, t.now, d) :: t.masters.filter fun x => x.1 != m.source) ∧
    (∀ heard, t.masters = [(n, heard, d)] → heard + t.annto * d.interval ≤ t.now → ∃ u : TimeUnit,
      all (.announceReceiptTimeout n) u ∧ u.masters = [] ∧ u.selected = none ∧ u.hold = true ∧ u.now = t.now)) ∧
    (exec (.ignoredPtpMessage n) s = .next s) ∧
    (∀ die v, exec (.tcfgWrite die v) s = .next (if s.answers die then s.sysWrite die 0x021 v else s)) ∧
    (∀ k, u.select.selected = some k → ∃ x ∈ u.masters, x.1 = k ∧ u.now ≤ x.2.1 + u.annto * x.2.2.interval) ∧
    (u.synced = false ∨ off < -10000000 → (u.accept off).masters = u.masters.map fun x =>
      (x.1, ((x.2.1 : Int) - off).toNat, x.2.2)) ∧
    (u.synced = false → (u.accept off).synced = true ∧ (u.accept off).now = ((u.now : Int) - off).toNat) ∧
    (u.synced = true → off < -10000000 → (u.accept off).now = ((u.now : Int) - off).toNat) ∧
    (u.synced = true → -10000000 ≤ off → (u.accept off).now = u.now ∧ (u.accept off).slew = off) ∧
    (u.slew = 0 → (u.pass ns).now = u.now + ns) ∧
    (-((ns / 2000 : Nat) : Int) ≤ c ∧ c ≤ ((ns / 2000 : Nat) : Int) ∧ u.now ≤ p.now ∧ (p.now : Int) = u.now + ns - c ∧
      (0 ≤ u.slew → 0 ≤ p.slew ∧ p.slew ≤ u.slew) ∧
      (u.slew ≤ 0 → u.slew ≤ p.slew ∧ p.slew ≤ 0))

/-- R344, R187, R362 to R370: what the control node, the peers, the supply and the firmware do. The physical window reads and
writes 1, 2, 4 or 8 bytes at a multiple of their number, of a die that answers; a write of KILL with bit 7 stops the context on
the slot, and in the half, that it names, in SYS mode at TRET, and its launch counts a kill with REASON 8, or does nothing; a register write goes where a gang's would,
and a register read gives what stands there; a port that is not in service, or has no die 0 to answer for it, takes nothing; an inbound PUT leaves its bytes and
a GET gives those that stand there, in the port's partition, and one that is misaligned or faults is refused; a port that
goes down parks the parts at it with PAGE 8; droops and corrected errors are counted, and each cycle of a
stretched clock once; a slot is retired only below the floor;
stage 0 of boot measures the fuses, each later stage what it verifies, and the last brings the die up. That the windows take aligned accesses alone and
are read as they stand, how a droop and a limit count, what the firmware's floor is, and what a failed die leaves undone, are
the model's choices (log rows 66, 68, 70, 71). -/
def Obligations.DeviceEvents : Prop :=
  ∀ (s : State) (die n k : Nat) (v : Word) (bs : List Byte), let d := s.die die
    let health (f : Health → Health) : Host.Outcome State Fault Refusal :=
      .next (s.updDie die fun d => { d with health := f d.health })
    (n ∈ [1, 2, 4, 8] → k % n = 0 → s.backed k = true →
      (s.answers (homeDie k) = true → exec (.physicalWindowWrite k n v) s = .next (s.agentWrite k (leBytes n v.toNat)) ∧
        (s.agentWrite k (leBytes n v.toNat)).mem = s.mem.put k (leBytes n v.toNat) ∧
        ∃ u : State, exec (.physicalWindowRead k n) s = .next u ∧
          (s.unseen = [] → u.out = s.out ++ [.windowRead k (s.mem.bytes k n)]) ∧
          u.mem = s.mem ∧ u.gangs = s.gangs ∧ u.dies = s.dies ∧ u.launches = s.launches) ∧
      (s.answers (homeDie k) = false →
        exec (.physicalWindowWrite k n v) s = .next s ∧ exec (.physicalWindowRead k n) s = .next s)) ∧
    (∀ ms, s.agenda = .readRegister die n :: ms → s.answers die = true → 0x010 ≤ n → regAccess n ≠ .absent →
      step s = .next { s with agenda := ms, out := s.out ++ [.registerRead die n (s.sysRead [] die n)] }) ∧
    (n ∉ [1, 2, 4, 8] ∨ k % n ≠ 0 → exec (.physicalWindowWrite k n v) s = .next s ∧
      exec (.physicalWindowRead k n) s = .next s) ∧
    (s.answers die = true → v.getLsbD 7 = false → exec (.kill die v) s = .next s) ∧
    (s.answers die = true → v.getLsbD 7 = true →
      let named (g : Gang) : Prop := ∃ d sl h, g.place = .run d sl h ∧ 12 * d + sl = v.toNat % 64 ∧
        (g.info.width = 16 ∨ h = v.toNat / 64 % 2)
      ((∀ g ∈ s.gangs, ¬ named g) → exec (.kill die v) s = .next s) ∧
      ∀ g ∈ s.gangs, named g → (∀ x ∈ s.gangs, named x → x = g) → (s.gangs.map (·.gid)).Nodup →
        ∃ u, exec (.kill die v) s = .next u ∧ u.mem = s.mem ∧ u.dies = s.dies ∧ (∀ x ∈ s.gangs, x.gid ≠ g.gid → x ∈ u.gangs) ∧
          (g.haltIssued = true ∨ g.stopping = true → g ∈ u.gangs ∧ u.launches = s.launches) ∧
          (g.haltIssued = false → g.stopping = false →
            (g.mode = .user → g.stop ∈ u.gangs) ∧ (g.mode ≠ .user → { g with drain := .stop } ∈ u.gangs) ∧
            u.launches = s.launches.map fun l => if l.info.lid = g.info.lid ∧ l.tally.killed = none
              then { l with tally := { l.tally with killed := some (8, 0) } } else l)) ∧
    (s.answers die = true → n < 16 → v.extractLsb' 52 12 = 0 → v.extractLsb' 0 3 = 0 →
      exec (.notifyWrite die n v) s = .next (s.sysWrite die (0x070 + n) v)) ∧
    (s.answers die = true → plainReg n = true → exec (.registerWrite die n v) s = .next (s.sysWrite die n v)) ∧
    (plainReg n = true → isPortReg n = true → exec (.registerWrite die n v) s = .next (s.sysWrite die n v)) ∧
    (s.answers die = false → exec (.kill die v) s = .next s ∧ exec (.notifyWrite die n v) s = .next s ∧
      (isPortReg n = false → exec (.registerWrite die n v) s = .next s) ∧ exec (.measExtend die k bs) s = .next s) ∧
    (∀ put, s.portOn n = false ∨ s.answers 0 = false → exec (.fabricInbound n k put bs) s = .next s) ∧
    (∀ put, s.portOn n = true → s.answers 0 = true → k % 8 ≠ 0 → exec (.fabricInbound n k put bs) s =
      .next { s with out := s.out ++ [.fabricReply n k false []] }) ∧
    (∀ put, s.portOn n = true → s.answers 0 = true → k % 8 = 0 → bs ≠ [] → bs.length % 8 = 0 → k % 2 ^ 17 + bs.length ≤ 2 ^ 17 →
      let reply (u : State) (ok : Bool) (l : List Byte) : Host.Outcome State Fault Refusal :=
        .next { u with out := u.out ++ [.fabricReply n k ok l] }
      let part := (s.ports.getD n ⟨false, false, 0⟩).inpart
      let at_ := s.agentAddr 0 part k (if put then 1 else 0)
      let noted := s.noteUse 0 part [(k, if put then 1 else 0)]
      (∀ pa, at_ = .ok pa → put = true → exec (.fabricInbound n k put bs) s = reply (noted.agentWrite pa bs) true [] ∧
        (noted.agentWrite pa bs).mem = s.mem.put pa bs) ∧
      (∀ pa, at_ = .ok pa → put = false → s.unseen = [] →
        exec (.fabricInbound n k put bs) s = reply noted true (s.mem.bytes pa bs.length)) ∧
      (at_ = .error none → exec (.fabricInbound n k put bs) s = .next s) ∧
      (∀ f, at_ = .error (some f) → exec (.fabricInbound n k put bs) s = reply s false [])) ∧
    (exec (.fabricLinkUp n) s = .next { s with ports := updAt n (fun p => { p with up := true }) s.ports }) ∧
    ((∀ g ∈ s.gangs, g.parts = []) → ∃ u, exec (.fabricPortDown n) s = .next u ∧
      u.ports = updAt n (fun p => { p with up := false }) s.ports ∧ u.mem = s.mem ∧ u.dies = s.dies ∧
      u.launches = s.launches ∧ u.out = s.out) ∧
    (∀ p, s.others = [] → s.g.parts = [p] → p.started = true → p.atPeer = true → p.peer = some n →
      let u : State := { s with ports := updAt n (fun p => { p with up := false }) s.ports }
      exec (.fabricPortDown n) s = .next ((u.updG fun g =>
        g.park p.lane p.head p.slot .page (infoOf 8 (p.peerAddr % 2 ^ 56))).finishPart p)) ∧
    (d.health.stretching = (d.health.drooping || d.health.limiting)) ∧
    (d.health.stretching = true → s.startStretch die = s) ∧
    (d.health.stretching = false → s.startStretch die = (({ s with free := s.free + 1 } : State).updDie die fun d =>
      { d with health := { d.health with span := 0, lead := Config.stretchLead s.free % 3 } }).mapGangs fun g =>
        if g.place.die = die then { g with slowed := 0 } else g) ∧
    (exec (.droopDetect die) s = .next ((s.startStretch die).updDie die fun d =>
      { d with health := { d.health with droop := d.health.droop + 1, drooping := true } })) ∧
    (let c := (s.die s.myDie).health
      let m := s.g.slowed + 1
      let u := s.updG fun g => { g with slowed := m }
      (c.stretching = false → s.dieCycle = s) ∧ (c.stretching = true → m ≤ c.span → s.dieCycle = u) ∧
      (c.stretching = true → c.span < m → s.dieCycle = u.updDie u.myDie fun d => { d with health := { d.health with
        span := m, stretch := (c.stretch + if c.lead < m then 1 else 0) % 2 ^ 64 } })) ∧
    (exec (.supplyRecovery die) s = health fun h => { h with drooping := false }) ∧
    (∀ on, let u := if on then (List.range s.dies.length).foldl State.startStretch s else s
      exec (.powerLimit on) s =
        .next { u with dies := u.dies.map fun d => { d with health := { d.health with limiting := on } } }) ∧
    (exec (.ageingSample die n k) s = health fun h => { h with ageO := n, ageP := k }) ∧
    (exec (.voltageReplan die n none) s = health fun h => { h with vmarg := BitVec.ofNat 64 n }) ∧
    (exec (.voltageReplan die n (some k)) s =
      if d.health.ageP < Config.ageFloor ∧ Config.topVoltage die n = true then .next (s.updDie die fun d =>
        { d with
          health := { d.health with vmarg := BitVec.ofNat 64 n }
          slots := updAt k (fun sl => { sl with retired := true }) d.slots })
      else exec (.voltageReplan die n none) s) ∧
    (∀ sig, die < s.dies.length → d.failed = false → d.bootStage = 0 → exec (.dieBoot die bs sig 0) s =
      .next (s.updDie die fun d => { d with
        meas := updAt 0 (fun m => sha256 (m ++ fixLen 32 (Config.fuseMeasure die))) d.meas, bootStage := 1 })) ∧
    (∀ sig, d.failed = true ∨ d.bootStage ≠ k ∨ 3 < k → exec (.dieBoot die bs sig k) s = .next s) ∧
    (∀ sig, die < s.dies.length → d.failed = false → d.bootStage = k → 1 ≤ k → k ≤ 3 → ∃ u, u.mem = s.mem ∧
      exec (.dieBoot die bs sig k) s = .next u ∧
      (Config.slhVerify die bs sig = true → (u.die die).bootStage = k + 1 ∧ (u.die die).booted = decide (k = 3) ∧
        (u.die die).meas = updAt k (fun m => sha256 (m ++ sha256 bs)) d.meas) ∧
      (Config.slhVerify die bs sig = false → (u.die die).failed = true ∧ (u.die die).meas = d.meas)) ∧
    (s.answers die = true → 4 ≤ k → k ≤ 7 → bs.length = 32 → exec (.measExtend die k bs) s =
      .next (s.updDie die fun d => { d with meas := updAt k (fun m => sha256 (m ++ bs)) d.meas })) ∧
    (bs.length = 32 → exec (.attestationRequest bs) s =
      .next { s with out := s.out ++ (List.range s.dies.length).map fun k => .attest k (s.attest k bs) }) ∧
    (bs.length ≠ 32 → exec (.attestationRequest bs) s = .next s)

/-! ## Encodings, bundles and steps. -/

/-- R30 to R39: every instruction word that decodes, decodes to the instruction it was encoded from, with every field as it
was, for every slot; and no word decodes to an instruction whose reserved fields do not hold what they must. -/
def Obligations.DecodeInvertsEncode : Prop :=
  ∀ (i : Instr) (k : SlotKind) (w : BitVec 32), i.encode = some (k, w) →
    (i.fieldsOk = true → decodeWord k w = .ok i) ∧ (i.fieldsOk = false → decodeWord k w ≠ .ok i)

/-- Words written out from the encodings of R30, R32 to R34 and R37 to R39, one for each format of word. -/
def Obligations.WordsDecode : Prop :=
  decodeWord .S 0b00000001_000011_000001_000010_000_000 = .ok (.add ⟨3, 1, 2, 0, 0⟩) ∧
  decodeWord .S 0b00000110_001000_000111_001001_000_000 = .ok (.div ⟨8, 7, 9, 0, 0⟩) ∧
  decodeWord .S 0b00000011_000101_000100_111111111_010 = .ok (.addi ⟨5, 4, 0x1FF, 2⟩) ∧
  decodeWord .S 0b00000001_000011_000001_000010_001_000 = .error .reservedField ∧
  decodeWord .S 0b00110000_010_1_11111111111111111110 = .ok (.br ⟨2, 1, 0xFFFFE⟩) ∧
  decodeWord .S 0b01010000_000101_000110_111111_11_100_1 = .ok (.ld ⟨5, 6, 0x3F, 3, 4, 1⟩) ∧
  decodeWord .V 0b00000000_0001_0010_0011_100_101_10_0000 = .ok (.tadd ⟨1, 2, 3, 4, 5, 2, 0⟩) ∧
  decodeWord .M 0b00000000_10_0011_0101_001_010_011_01_000 = .ok (.mma ⟨2, 3, 5, 1, 2, 3, 1, 0⟩) ∧
  decodeWord .X 0b00000000_110_11111_000111_001001_01_00 = .ok (.copy ⟨6, 31, 7, 9, 1, 0⟩)

/-- R25 to R28, R40: a bundle whose words are those its head announces reads back from its bytes, whatever follows it in its
line; it is 2 + 4n + 4L bytes long. A head of zeros ends the line, and a head whose bundle would pass the end of its line,
or that announces a literal and no slot, is refused, with the slot words that stand in the line whole. -/
def Obligations.BundleReadsBack : Prop :=
  ∀ (b : Bundle) (rest : List Byte) (h : BitVec 16),
    (b.words.map (·.1) = b.head.slots → b.lit.isSome = b.head.l → b.head.bits ≠ 0 → (b.head.slots ≠ [] ∨ b.head.l = false) →
      readLine (b.bytes ++ rest) = .bundle b ∧
      b.bytes.length = 2 + 4 * b.words.length + (if b.lit.isSome then 4 else 0) ∧ b.bytes.length ≤ 30) ∧
    (readLine (0 :: 0 :: rest) = .lineEnd) ∧
    (h ≠ 0 → rest.length + 2 < Head.len ⟨h⟩ ∨ (h.extractLsb' 0 6 = 0 ∧ h.getLsbD 6 = true) →
      ∃ c : Bundle, readLine (leBytes 2 h.toNat ++ rest) = .bad c ∧ c.head.bits = h ∧
        c.words.length = min c.head.slots.length (rest.length / 4))

/-- R41, R43, R53, R80: a step whose focus fetches a bundle that nothing keeps from issuing runs the instructions its words
decode to, in slot order with those that move fetch themselves last, ends the bundle unless they have, and lets one cycle of
the gang's clock pass, which counts in HSTRETCH while that is stretched (log row 70). With one word it is the meaning of that word's instruction. That the slots act in the order of their
numbers, those that move fetch last, is the model's reading of R43 (log row 15). -/
def Obligations.StepRunsDecoded : Prop :=
  ∀ (s : State) (head next : Nat) (b : Bundle),
    let o : State := State.dieCycle
      { s with g := { s.g with found := 0 }, cur := { s.cur with issued := false, woke := false } }
    let u := o.atBundle 0 head next b
    let v := u.started.touchSegment (head / 2 ^ 16)
    let is_ := b.words.filterMap slotInstr
    let ready : State :=
      { v with cur := { v.cur with act := v.g.activeNow 0, sp := v.seq.stages, ready := true, tkt0 := v.tkt, issued := true } }
    let after (t : State) : Host.Outcome State Fault Refusal :=
      let e := if t.cur.done then t else t.finish
      .next ({ e.stallCycle with cur := { e.cur with issued := false, woke := false } }.rotateFocus)
    s.agenda = [] → s.g.clocked = true → s.g.mode = .user → s.g.stopping = false → s.g.split = false → s.g.deferred = [] →
    s.g.drain = .none → s.g.q0.block = .none → s.g.q0.ends = none → s.mySlot.wants = [] →
    s.g.wake = 0 → (o.forSeq 0).fetch s.g.q0.pc s.g.q0.atEnd = .bundle head next b →
    b.head.k = false → u.decodeFault b = none →
    (∀ n < 8, b.head.wait.getLsbD n = true → u.tokenSet (BitVec.ofNat 3 n) = false) → u.hurdle b = .none → is_ ≠ [] →
    step s = andThen (runSlots exec (is_.filter (fun x => !actsLast x.2) ++ is_.filter (fun x => actsLast x.2)) ready) after ∧
    ∀ n i, is_ = [(n, i)] → step s = andThen (exec i (ready.atSlot n)) after

/-- Memory keeps its canonical form in every step, from every state: it lists addresses in rising order, and no byte that an
unlisted address reads as. The form is the model's own, of the memory of R130 and R133 (log entry 1). -/
def Obligations.StepKeepsMemoryCanonical : Prop := ∀ s t : State, Inv s → step s = .next t → Inv t

/-- R245, R253, R304, R326, R364 to R366, R369: the machine after reset. Four dies before their boot, each time unit at 0
and free-running with ANNTO 3, every NOTIFY entry, health counter, barrier and partition register clear, every port down,
no launch, no context, and memory with nothing listed. That the Barrier File and the TLBs are clear and that memory reads
as zero is the model's choice (log entries 1 and 2). -/
def Obligations.ResetState : Prop :=
  Inv State.reset ∧ State.reset.launches = [] ∧ State.reset.others = [] ∧ State.reset.g.gid = 0 ∧
  State.reset.agenda = [] ∧ State.reset.dies.length = 4 ∧ State.reset.ports.length = 8 ∧
  (∀ a, State.reset.mem.get a = 0) ∧
  (∀ p ∈ State.reset.ports, p.up = false ∧ p.en = false ∧ p.inpart = 0) ∧
  (∀ d ∈ State.reset.dies, d.booted = false ∧ d.failed = false ∧ d.tu.now = 0 ∧ d.tu.synced = false ∧ d.tu.hold = false ∧
    d.tu.annto = 3 ∧ d.tu.domain = 0 ∧ d.notify = List.replicate 16 0 ∧ d.barriers = List.replicate 256 Barrier.clear ∧
    d.parts = List.replicate 16 ⟨0, 0, 0⟩ ∧ d.health.softC = 0 ∧ d.health.eccC = 0 ∧ d.health.softU = 0 ∧
    d.health.droop = 0 ∧ d.meas = List.replicate 8 (List.replicate 32 0) ∧ d.tlb = [])

/-! ## Laws of the shared operations. -/

/-- R15, R35, R109, R145, R157: what is written reads back, and nothing else changes: bytes of memory in its canonical form,
little-endian values of them, scalar registers but s0 and code 63, which read as 0, and predicates but p0, which is true. -/
def Obligations.WritesReadBack : Prop :=
  ∀ (m : Memory) (a n v : Nat) (bs : List Byte) (q : Machine.Seq) (r r' : BitVec 6) (w : Word) (p p' : BitVec 3) (y : Bool),
    (m.wf = true → (m.put a bs).bytes a bs.length = bs ∧
      (∀ k, k < a ∨ a + bs.length ≤ k → (m.put a bs).get k = m.get k) ∧
      (∀ j (h : j < bs.length), (m.put a bs).get (a + j) = bs[j]) ∧
      (m.put a (leBytes n v)).le a n = v % 2 ^ (8 * n)) ∧
    ((q.setReg r w).reg r' = if r' = r ∧ r ≠ 0 ∧ r ≠ 63 then w else q.reg r') ∧
    (q.reg 0 = 0 ∧ q.reg 63 = 0) ∧
    ((q.setPred p y).pred p' = if p' = p ∧ p ≠ 0 then y else q.pred p') ∧ q.pred 0 = true

/-- R35, R42, R45, R78, R79, R126, R162, R190, R335: a result in flight lands exactly when its cycles have passed: while they have
not, its register reads as before, and at the last of them the register holds the value and every other register what it held.
So with every kind of result: a predicate, an entry of a queue, rows and a shape of a tile, rows of an accumulator or a scale
register, half a byte of a tile, an engine scalar, a condition, a column mask, LASTBATCH, CONTPC, TRAPPC and a token, which
counts the operations that hold it; flags are set and cleared, and of both in one cycle the set remains. While a gang issues
loads its pts advances by 1 in every 16th cycle, and by the clock not otherwise: R162 asks for at least 1, and by how much and
when is the model's choice (log row 93). -/
def Obligations.ResultsLandInTime : Prop :=
  ∀ (s : State) (n : Nat) (r : BitVec 6) (v : Word) (b : Bool), s.g.mode = .user → s.g.fl = [⟨n + 1, [.sreg 0 r v], b⟩] →
    s.g.q1.block ≠ .starting → r ≠ 0 → r ≠ 63 →
    (∀ k ≤ n, ∀ r', (State.tick^[k] s).g.q0.reg r' = s.g.q0.reg r') ∧
    (State.tick^[n + 1] s).g.q0.reg r = v ∧ (State.tick^[n + 1] s).g.fl = [] ∧
    (∀ r', r' ≠ r → (State.tick^[n + 1] s).g.q0.reg r' = s.g.q0.reg r') ∧
    (State.tick^[n + 1] s).g.cycle = s.g.cycle + n + 1 ∧ (State.tick^[n + 1] s).mem = s.mem ∧
    (State.tick s).g.q0.pts = s.g.q0.pts + (if (s.g.cycle + 1) % 16 = 0 ∧ s.g.loaded = true then 1 else 0) ∧
    ∀ (z : State) (q l k : Nat), z.g.mode = .user → z.g.q1.block ≠ .starting → q ≤ 1 → l < z.g.lanes.length →
      let due (w : List Landed) (f : State → Prop) : Prop := ∀ b, z.g.fl = [⟨1, w, b⟩] → f z.tick
      let x := z.g.seq q
      let e := z.g.lane l
      let store (t : State) (base : Nat) (rows : List (Nat × List Byte)) : Prop :=
        (t.g.lane l).store = rows.foldl (fun m r => m.put (base + r.1) r.2) e.store
      (∀ p y, due [.pred q p y] fun t => ∀ m, (t.g.seq q).pred m = if m = p ∧ p ≠ 0 then y else x.pred m) ∧
      (k < x.q.length → due [.queue q k v] fun t => (t.g.seq q).q[k]? = some (x.q.getD k [] ++ [v]) ∧
        ∀ m, m ≠ k → (t.g.seq q).q[m]? = x.q[m]?) ∧
      (∀ n y, due [.token q false n] fun t => (t.g.seq q).toks.getD n.toNat 0 = x.toks.getD n.toNat 0 - 1 ∧
        (y ≠ n.toNat → (t.g.seq q).toks.getD y 0 = x.toks.getD y 0)) ∧
      (∀ i rows y, due [.tile l i rows y] fun t => store t (tileBase i) rows ∧
        ((∀ z, y = some z → i.toNat < e.shapes.length → (t.g.lane l).shapes[i.toNat]? = some z) ∧
          ∀ m, (y = none ∨ m ≠ i.toNat) → (t.g.lane l).shapes[m]? = e.shapes[m]?)) ∧
      (∀ i off high y, due [.nibble l i off high y] fun t => store t (tileBase i) [(off, [BitVec.ofNat 8
        (let b := (e.store.get (tileBase i + off)).toNat
         if high then b % 16 + 16 * (y % 16) else b / 16 * 16 + y % 16)])]) ∧
      (∀ i rows, due [.scale l i rows] fun t => store t (scBase i) rows) ∧
      (∀ i rows, due [.acc l i rows] fun t => store t (accBase i) rows) ∧
      (∀ i, due [.kmask l i v] fun t => (i.toNat < e.km.length → (t.g.lane l).km[i.toNat]? = some v) ∧
        ∀ m, m ≠ i.toNat → (t.g.lane l).km[m]? = e.km[m]?) ∧
      (∀ i, due [.esc l i v] fun t => (i.toNat < e.e.length → (t.g.lane l).e[i.toNat]? = some v) ∧
        ∀ m, m ≠ i.toNat → (t.g.lane l).e[m]? = e.e[m]?) ∧
      (∀ (i : BitVec 2) y, due [.cond l i y] fun t => ∀ m < 4, (t.g.lane l).c.getLsbD m = if m = i.toNat then y else e.c.getLsbD m) ∧
      (∀ f g, due [.flags l f] (fun t => (t.g.lane l).status = e.status ||| f) ∧
        due [.clearFlags l g] (fun t => (t.g.lane l).status = e.status &&& ~~~ g) ∧
        due [.flags l f, .clearFlags l g] fun t => (t.g.lane l).status = (e.status &&& ~~~ g) ||| f) ∧
      (∀ b, due [.lastBatch b] fun t => t.g.lastBatch = b) ∧ (due [.contpc v] fun t => t.g.contpc = v) ∧
      due [.trappc v] fun t => t.g.trapPc = v

/-- R31, R36, R41, R53, R332: what becomes of an instruction that does not take effect, for every instruction of the slots:
one that waits changes nothing; one that its guard or its stage suppresses changes nothing, but a transfer still has its
delay bundles; one that raises a cause enters the trap at its bundle; one that finds an engine parked converges. -/
def Obligations.GateDecides : Prop :=
  ∀ (i : Instr) (s : State), i.encode.isSome = true →
    (s.gate i = .hold → exec i s = .next s) ∧
    (s.gate i = .skip → isTransfer i = false → exec i s = .next s) ∧
    (s.gate i = .skip → isTransfer i = true → exec i s = .next (s.pending none none .nothing)) ∧
    (∀ e, s.gate i = .trap e → exec i s = .next (s.trapHere e).doneHere) ∧
    (s.gate i = .converge → exec i s = .next (s.converge s.cur.head false).doneHere)

/-- R31, R319, R321, R324, R329, R320: entering a trap in USER mode saves its cause, address, detail and slot, freezes the results
in flight and the transfer, block and divider of its sequencer, and goes to the handler of the gang's partition; registers,
lanes and memory stay. The return gives all of it back and goes to TRAPPC. A trap in SYS mode stops the gang, and its
launch is killed with REASON 8. A privileged instruction in USER mode is an ILL with subcode 0x40 and its word, whatever its
guard is (log row 10). That the divider is held through the handler is the model's choice (log row 54). -/
def Obligations.TrapEntryAndReturn : Prop :=
  ∀ (s : State) (q pc : Nat) (e : Exc) (x : SR) (i : Instr), let t := s.trapEnter q e pc
    (s.g.mode = .user → q ≤ 1 →
      t.g.trapCause = BitVec.ofNat 64 e.cause.code ∧ t.g.trapPc = BitVec.ofNat 64 pc ∧ t.g.trapInfo = e.info ∧
      t.g.trapSlot = BitVec.ofNat 64 e.slot ∧ t.g.inSys = true ∧ t.g.fl = [] ∧
      (t.g.seq q).pc = ((s.die s.g.place.die).parts.getD s.g.info.part ⟨0, 0, 0⟩).hentry.toNat ∧
      (t.g.seq q).s = (s.g.seq q).s ∧ t.g.seq (1 - q) = s.g.seq (1 - q) ∧ t.g.lanes = s.g.lanes ∧ t.mem = s.mem ∧
      t.launches = s.launches ∧ t.dies = s.dies ∧ t.others = s.others ∧
      (s.g.drain ≠ .stop → pc < 2 ^ 64 → t.trapReturn = { s with
        g := (s.g.setTrap e pc).updSeq q fun y => { y with pc := pc, atEnd := false } })) ∧
    (∀ h, s.g.mode = .sys h → t.g = s.g.stop ∧ t.launches = s.launches.map fun l =>
      if l.info.lid = s.g.info.lid then { l with tally := l.tally.kill 8 (faultWord e.cause.code e.info) } else l) ∧
    (i ∈ [Instr.tret x, .sysr x, .sysw x, .tlbinv x, .pgshare x, .pgunmap x, .pgcow x, .unpark x, .suspend x] →
      s.cur.ready = false → s.cur.slot = 0 → s.g.mode = .user → i.fieldsOk = true → i.codesOk = true →
      s.cur.lit.isSome = true → x.d ≠ 63 → ∀ w, i.encode = some (.S, w) →
      exec i s = .next ((s.trapEnter s.cur.q ⟨.ill, infoOf 0x40 (w.toNat * 2 ^ 24), 0⟩ s.cur.head).doneHere))

/-- R31, R40, R41, R48: an instruction of the scalar class takes effect when its guard is true, its fields and codes are in
range and it names no missing literal; DIV and REM also wait for the divider. -/
def Obligations.ScalarsIssue : Prop :=
  ∀ (x : SR) (y : SI) (s : State) (i : Instr),
    i ∈ [Instr.add x, .sub x, .addi y, .mul x, .mulh x, .div x, .rem x, .andS x, .orS x, .xorS x, .andn x, .andi y, .ori y,
      .xori y, .shl x, .shr x, .sar x, .shli y, .shri y, .sari y, .minS x, .maxS x, .cmp x, .cmpi y, .sel x, .mov x,
      .movi y, .movhi y, .clz x, .popc x, .bfx x, .bfi x, .addsh x, .plog x, .movs x, .eget x, .eset x, .time x, .slack x] →
    s.cur.slot = 0 → s.g.mode = .user → i.fieldsOk = true → i.codesOk = true →
    (s.cur.lit.isSome = true ∨ 63 ∉ i.scalarSources) → 63 ∉ i.scalarDests → s.readPred (guardOf i) = true →
    s.cur.ready = true ∨ s.seq.div = 0 → s.goes i

/-- R272, R363: an instruction or event is never refused, and a run stops only where a Referee reads its run list, or the
control node uses its physical window, at an address that no memory backs: that it stops there is the model's choice (log rows
68, 69), as neither rule says what is found. -/
def Obligations.OnlyUnbackedAddressesStop : Prop :=
  (∀ (i : Instr) (s : State), (∀ r, exec i s ≠ .refused r) ∧
    (∀ f, exec i s = .fault f → (∃ die n pa, i = .queuePoll die n ∧ f = .runListUnbacked pa ∧ s.backed pa = false) ∨
      ∃ pa, f = .windowUnbacked pa ∧ s.backed pa = false ∧
        ((∃ n v, i = .physicalWindowWrite pa n v) ∨ ∃ n, i = .physicalWindowRead pa n))) ∧
  ∀ s : State, (∀ r, step s ≠ .refused r) ∧
    (s.agenda = [] → ∃ t, step s = .next t)
end

