-- ==== Sys2Proof/Laws/Memory.lean ====
section
/-! SUPPORT. The canonical form of memory is kept by every operation over memory: one byte, a run of bytes, clearing and
moving a region; and the memory of the machine after reset has it. -/

namespace Sys2Proof.Machine

/-- A memory that is canonical from an address on is so from every lower one. -/
theorem Memory.wfFrom_mono {lo hi : Nat} (h : lo ≤ hi) : ∀ {m : Memory}, Memory.wfFrom hi m = true → Memory.wfFrom lo m = true
  | [], _ => rfl
  | c :: m, hm => by
    simp only [Memory.wfFrom, Bool.and_eq_true, decide_eq_true_eq] at hm ⊢
    exact ⟨⟨le_trans h hm.1.1, hm.1.2⟩, hm.2⟩

/-- Putting one byte keeps the canonical form from any address up to it. -/
theorem Memory.set_wfFrom {lo a : Nat} {b : Byte} (h : lo ≤ a) :
    ∀ {m : Memory}, Memory.wfFrom lo m = true → Memory.wfFrom lo (m.set a b) = true
  | [], _ => by
    unfold Memory.set
    split
    · rfl
    · simp_all [Memory.wfFrom]
  | c :: m, hm => by
    simp only [Memory.wfFrom, Bool.and_eq_true, decide_eq_true_eq] at hm
    unfold Memory.set
    split
    · rename_i hlt
      simp only [Memory.wfFrom, Bool.and_eq_true, decide_eq_true_eq]
      exact ⟨hm.1, Memory.set_wfFrom (by omega) hm.2⟩
    · split
      · rename_i heq
        split
        · exact Memory.wfFrom_mono (by omega) hm.2
        · simp only [Memory.wfFrom, Bool.and_eq_true, decide_eq_true_eq]
          exact ⟨⟨h, by assumption⟩, heq ▸ hm.2⟩
      · split
        · simp only [Memory.wfFrom, Bool.and_eq_true, decide_eq_true_eq]
          exact hm
        · simp only [Memory.wfFrom, Bool.and_eq_true, decide_eq_true_eq]
          exact ⟨⟨h, by assumption⟩, ⟨⟨by omega, hm.1.2⟩, hm.2⟩⟩

/-- Putting one byte keeps the canonical form. -/
theorem Memory.set_wf {m : Memory} (a : Nat) (b : Byte) (h : m.wf = true) : (m.set a b).wf = true :=
  Memory.set_wfFrom (Nat.zero_le a) h

/-- Writing a run of bytes keeps the canonical form. -/
theorem Memory.put_wf : ∀ (bs : List Byte) {m : Memory} (a : Nat), m.wf = true → (m.put a bs).wf = true
  | [], _, _, h => h
  | b :: bs, _, a, h => Memory.put_wf bs (a + 1) (Memory.set_wf a b h)

/-- Writing a value keeps the canonical form. -/
theorem Memory.putLe_wf {m : Memory} (a n v : Nat) (h : m.wf = true) : (m.putLe a n v).wf = true :=
  Memory.put_wf _ a h

/-- Leaving out entries keeps the canonical form. -/
theorem Memory.filter_wfFrom (p : Nat × Byte → Bool) :
    ∀ {m : Memory} {lo : Nat}, Memory.wfFrom lo m = true → Memory.wfFrom lo (m.filter p) = true
  | [], _, _ => rfl
  | c :: m, lo, h => by
    simp only [Memory.wfFrom, Bool.and_eq_true, decide_eq_true_eq] at h
    rw [List.filter_cons]
    split
    · simp only [Memory.wfFrom, Bool.and_eq_true, decide_eq_true_eq]
      exact ⟨h.1, Memory.filter_wfFrom p h.2⟩
    · exact Memory.wfFrom_mono (by omega) (Memory.filter_wfFrom p h.2)

/-- Clearing a run of bytes keeps the canonical form. -/
theorem Memory.clear_wf {m : Memory} (a n : Nat) (h : m.wf = true) : (m.clear a n).wf = true :=
  Memory.filter_wfFrom _ h

/-- Setting a list of bytes one after the other keeps the canonical form. -/
theorem Memory.foldl_set_wf (a : Nat) :
    ∀ (r : Memory) {m : Memory}, m.wf = true → (r.foldl (fun m c => m.set (a + c.1) c.2) m).wf = true
  | [], _, h => h
  | c :: r, _, h => Memory.foldl_set_wf a r (Memory.set_wf _ c.2 h)

/-- Making a region hold listed bytes keeps the canonical form. -/
theorem Memory.setRegion_wf {m : Memory} (a n : Nat) (r : Memory) (h : m.wf = true) : (m.setRegion a n r).wf = true :=
  Memory.foldl_set_wf a r (Memory.clear_wf a n h)

/-- Memory after reset has the canonical form. -/
theorem State.reset_mem_wf : State.reset.mem.wf = true := rfl

end Sys2Proof.Machine
end

