-- ==== Sys2Proof/Laws/State.lean ====
section
/-! SUPPORT. What each update of the state leaves alone, one lemma for each field, and what reading after an update gives. -/

namespace Sys2Proof.Machine

/-! The gang in focus changes. -/

@[simp] theorem State.updG_others (s : State) (f : Gang → Gang) : (s.updG f).others = s.others := rfl
@[simp] theorem State.updG_cur (s : State) (f : Gang → Gang) : (s.updG f).cur = s.cur := rfl
@[simp] theorem State.updG_launches (s : State) (f : Gang → Gang) : (s.updG f).launches = s.launches := rfl
@[simp] theorem State.updG_dies (s : State) (f : Gang → Gang) : (s.updG f).dies = s.dies := rfl
@[simp] theorem State.updG_mem (s : State) (f : Gang → Gang) : (s.updG f).mem = s.mem := rfl
@[simp] theorem State.updG_lines (s : State) (f : Gang → Gang) : (s.updG f).lines = s.lines := rfl
@[simp] theorem State.updG_ports (s : State) (f : Gang → Gang) : (s.updG f).ports = s.ports := rfl
@[simp] theorem State.updG_agenda (s : State) (f : Gang → Gang) : (s.updG f).agenda = s.agenda := rfl
@[simp] theorem State.updG_out (s : State) (f : Gang → Gang) : (s.updG f).out = s.out := rfl
@[simp] theorem State.updG_tkt (s : State) (f : Gang → Gang) : (s.updG f).tkt = s.tkt := rfl
@[simp] theorem State.updG_free (s : State) (f : Gang → Gang) : (s.updG f).free = s.free := rfl

/-! The issuing sequencer changes. -/

@[simp] theorem State.updSeq_others (s : State) (f : Machine.Seq → Machine.Seq) : (s.updSeq f).others = s.others := rfl
@[simp] theorem State.updSeq_cur (s : State) (f : Machine.Seq → Machine.Seq) : (s.updSeq f).cur = s.cur := rfl
@[simp] theorem State.updSeq_launches (s : State) (f : Machine.Seq → Machine.Seq) : (s.updSeq f).launches = s.launches := rfl
@[simp] theorem State.updSeq_dies (s : State) (f : Machine.Seq → Machine.Seq) : (s.updSeq f).dies = s.dies := rfl
@[simp] theorem State.updSeq_mem (s : State) (f : Machine.Seq → Machine.Seq) : (s.updSeq f).mem = s.mem := rfl
@[simp] theorem State.updSeq_lines (s : State) (f : Machine.Seq → Machine.Seq) : (s.updSeq f).lines = s.lines := rfl
@[simp] theorem State.updSeq_ports (s : State) (f : Machine.Seq → Machine.Seq) : (s.updSeq f).ports = s.ports := rfl
@[simp] theorem State.updSeq_agenda (s : State) (f : Machine.Seq → Machine.Seq) : (s.updSeq f).agenda = s.agenda := rfl
@[simp] theorem State.updSeq_out (s : State) (f : Machine.Seq → Machine.Seq) : (s.updSeq f).out = s.out := rfl
@[simp] theorem State.updSeq_tkt (s : State) (f : Machine.Seq → Machine.Seq) : (s.updSeq f).tkt = s.tkt := rfl
@[simp] theorem State.updSeq_free (s : State) (f : Machine.Seq → Machine.Seq) : (s.updSeq f).free = s.free := rfl

/-! An engine changes. -/

@[simp] theorem State.updLane_others (s : State) (l : Nat) (f : Lane → Lane) : (s.updLane l f).others = s.others := rfl
@[simp] theorem State.updLane_cur (s : State) (l : Nat) (f : Lane → Lane) : (s.updLane l f).cur = s.cur := rfl
@[simp] theorem State.updLane_launches (s : State) (l : Nat) (f : Lane → Lane) : (s.updLane l f).launches = s.launches := rfl
@[simp] theorem State.updLane_dies (s : State) (l : Nat) (f : Lane → Lane) : (s.updLane l f).dies = s.dies := rfl
@[simp] theorem State.updLane_mem (s : State) (l : Nat) (f : Lane → Lane) : (s.updLane l f).mem = s.mem := rfl
@[simp] theorem State.updLane_lines (s : State) (l : Nat) (f : Lane → Lane) : (s.updLane l f).lines = s.lines := rfl
@[simp] theorem State.updLane_ports (s : State) (l : Nat) (f : Lane → Lane) : (s.updLane l f).ports = s.ports := rfl
@[simp] theorem State.updLane_agenda (s : State) (l : Nat) (f : Lane → Lane) : (s.updLane l f).agenda = s.agenda := rfl
@[simp] theorem State.updLane_out (s : State) (l : Nat) (f : Lane → Lane) : (s.updLane l f).out = s.out := rfl
@[simp] theorem State.updLane_tkt (s : State) (l : Nat) (f : Lane → Lane) : (s.updLane l f).tkt = s.tkt := rfl
@[simp] theorem State.updLane_free (s : State) (l : Nat) (f : Lane → Lane) : (s.updLane l f).free = s.free := rfl

/-! A die changes. -/

@[simp] theorem State.updDie_g (s : State) (d : Nat) (f : Die → Die) : (s.updDie d f).g = s.g := rfl
@[simp] theorem State.updDie_others (s : State) (d : Nat) (f : Die → Die) : (s.updDie d f).others = s.others := rfl
@[simp] theorem State.updDie_cur (s : State) (d : Nat) (f : Die → Die) : (s.updDie d f).cur = s.cur := rfl
@[simp] theorem State.updDie_launches (s : State) (d : Nat) (f : Die → Die) : (s.updDie d f).launches = s.launches := rfl
@[simp] theorem State.updDie_mem (s : State) (d : Nat) (f : Die → Die) : (s.updDie d f).mem = s.mem := rfl
@[simp] theorem State.updDie_lines (s : State) (d : Nat) (f : Die → Die) : (s.updDie d f).lines = s.lines := rfl
@[simp] theorem State.updDie_ports (s : State) (d : Nat) (f : Die → Die) : (s.updDie d f).ports = s.ports := rfl
@[simp] theorem State.updDie_agenda (s : State) (d : Nat) (f : Die → Die) : (s.updDie d f).agenda = s.agenda := rfl
@[simp] theorem State.updDie_out (s : State) (d : Nat) (f : Die → Die) : (s.updDie d f).out = s.out := rfl
@[simp] theorem State.updDie_tkt (s : State) (d : Nat) (f : Die → Die) : (s.updDie d f).tkt = s.tkt := rfl
@[simp] theorem State.updDie_free (s : State) (d : Nat) (f : Die → Die) : (s.updDie d f).free = s.free := rfl

/-! A launch changes. -/

@[simp] theorem State.updLaunch_g (s : State) (lid : Nat) (f : Launch → Launch) : (s.updLaunch lid f).g = s.g := rfl
@[simp] theorem State.updLaunch_others (s : State) (lid : Nat) (f : Launch → Launch) : (s.updLaunch lid f).others = s.others := rfl
@[simp] theorem State.updLaunch_cur (s : State) (lid : Nat) (f : Launch → Launch) : (s.updLaunch lid f).cur = s.cur := rfl
@[simp] theorem State.updLaunch_dies (s : State) (lid : Nat) (f : Launch → Launch) : (s.updLaunch lid f).dies = s.dies := rfl
@[simp] theorem State.updLaunch_mem (s : State) (lid : Nat) (f : Launch → Launch) : (s.updLaunch lid f).mem = s.mem := rfl
@[simp] theorem State.updLaunch_lines (s : State) (lid : Nat) (f : Launch → Launch) : (s.updLaunch lid f).lines = s.lines := rfl
@[simp] theorem State.updLaunch_ports (s : State) (lid : Nat) (f : Launch → Launch) : (s.updLaunch lid f).ports = s.ports := rfl
@[simp] theorem State.updLaunch_agenda (s : State) (lid : Nat) (f : Launch → Launch) : (s.updLaunch lid f).agenda = s.agenda := rfl
@[simp] theorem State.updLaunch_out (s : State) (lid : Nat) (f : Launch → Launch) : (s.updLaunch lid f).out = s.out := rfl
@[simp] theorem State.updLaunch_tkt (s : State) (lid : Nat) (f : Launch → Launch) : (s.updLaunch lid f).tkt = s.tkt := rfl
@[simp] theorem State.updLaunch_free (s : State) (lid : Nat) (f : Launch → Launch) : (s.updLaunch lid f).free = s.free := rfl

/-! Every context changes. -/

@[simp] theorem State.mapGangs_cur (s : State) (f : Gang → Gang) : (s.mapGangs f).cur = s.cur := rfl
@[simp] theorem State.mapGangs_launches (s : State) (f : Gang → Gang) : (s.mapGangs f).launches = s.launches := rfl
@[simp] theorem State.mapGangs_dies (s : State) (f : Gang → Gang) : (s.mapGangs f).dies = s.dies := rfl
@[simp] theorem State.mapGangs_mem (s : State) (f : Gang → Gang) : (s.mapGangs f).mem = s.mem := rfl
@[simp] theorem State.mapGangs_lines (s : State) (f : Gang → Gang) : (s.mapGangs f).lines = s.lines := rfl
@[simp] theorem State.mapGangs_ports (s : State) (f : Gang → Gang) : (s.mapGangs f).ports = s.ports := rfl
@[simp] theorem State.mapGangs_agenda (s : State) (f : Gang → Gang) : (s.mapGangs f).agenda = s.agenda := rfl
@[simp] theorem State.mapGangs_out (s : State) (f : Gang → Gang) : (s.mapGangs f).out = s.out := rfl
@[simp] theorem State.mapGangs_tkt (s : State) (f : Gang → Gang) : (s.mapGangs f).tkt = s.tkt := rfl
@[simp] theorem State.mapGangs_free (s : State) (f : Gang → Gang) : (s.mapGangs f).free = s.free := rfl

/-! A message leaves. -/

@[simp] theorem State.emit_g (s : State) (m : Msg) : (s.emit m).g = s.g := rfl
@[simp] theorem State.emit_others (s : State) (m : Msg) : (s.emit m).others = s.others := rfl
@[simp] theorem State.emit_cur (s : State) (m : Msg) : (s.emit m).cur = s.cur := rfl
@[simp] theorem State.emit_launches (s : State) (m : Msg) : (s.emit m).launches = s.launches := rfl
@[simp] theorem State.emit_dies (s : State) (m : Msg) : (s.emit m).dies = s.dies := rfl
@[simp] theorem State.emit_mem (s : State) (m : Msg) : (s.emit m).mem = s.mem := rfl
@[simp] theorem State.emit_lines (s : State) (m : Msg) : (s.emit m).lines = s.lines := rfl
@[simp] theorem State.emit_ports (s : State) (m : Msg) : (s.emit m).ports = s.ports := rfl
@[simp] theorem State.emit_agenda (s : State) (m : Msg) : (s.emit m).agenda = s.agenda := rfl
@[simp] theorem State.emit_tkt (s : State) (m : Msg) : (s.emit m).tkt = s.tkt := rfl
@[simp] theorem State.emit_free (s : State) (m : Msg) : (s.emit m).free = s.free := rfl

/-! A token is set. -/

@[simp] theorem State.raise_others (s : State) (n : BitVec 3) : (s.raise n).others = s.others := rfl
@[simp] theorem State.raise_cur (s : State) (n : BitVec 3) : (s.raise n).cur = s.cur := rfl
@[simp] theorem State.raise_launches (s : State) (n : BitVec 3) : (s.raise n).launches = s.launches := rfl
@[simp] theorem State.raise_dies (s : State) (n : BitVec 3) : (s.raise n).dies = s.dies := rfl
@[simp] theorem State.raise_mem (s : State) (n : BitVec 3) : (s.raise n).mem = s.mem := rfl
@[simp] theorem State.raise_lines (s : State) (n : BitVec 3) : (s.raise n).lines = s.lines := rfl
@[simp] theorem State.raise_ports (s : State) (n : BitVec 3) : (s.raise n).ports = s.ports := rfl
@[simp] theorem State.raise_agenda (s : State) (n : BitVec 3) : (s.raise n).agenda = s.agenda := rfl
@[simp] theorem State.raise_out (s : State) (n : BitVec 3) : (s.raise n).out = s.out := rfl
@[simp] theorem State.raise_tkt (s : State) (n : BitVec 3) : (s.raise n).tkt = s.tkt := rfl
@[simp] theorem State.raise_free (s : State) (n : BitVec 3) : (s.raise n).free = s.free := rfl

/-! A token is lowered. -/

@[simp] theorem State.lower_others (s : State) (q : Nat) (sys : Bool) (n : BitVec 3) : (s.lower q sys n).others = s.others := rfl
@[simp] theorem State.lower_cur (s : State) (q : Nat) (sys : Bool) (n : BitVec 3) : (s.lower q sys n).cur = s.cur := rfl
@[simp] theorem State.lower_launches (s : State) (q : Nat) (sys : Bool) (n : BitVec 3) : (s.lower q sys n).launches = s.launches := rfl
@[simp] theorem State.lower_dies (s : State) (q : Nat) (sys : Bool) (n : BitVec 3) : (s.lower q sys n).dies = s.dies := rfl
@[simp] theorem State.lower_mem (s : State) (q : Nat) (sys : Bool) (n : BitVec 3) : (s.lower q sys n).mem = s.mem := rfl
@[simp] theorem State.lower_lines (s : State) (q : Nat) (sys : Bool) (n : BitVec 3) : (s.lower q sys n).lines = s.lines := rfl
@[simp] theorem State.lower_ports (s : State) (q : Nat) (sys : Bool) (n : BitVec 3) : (s.lower q sys n).ports = s.ports := rfl
@[simp] theorem State.lower_agenda (s : State) (q : Nat) (sys : Bool) (n : BitVec 3) : (s.lower q sys n).agenda = s.agenda := rfl
@[simp] theorem State.lower_out (s : State) (q : Nat) (sys : Bool) (n : BitVec 3) : (s.lower q sys n).out = s.out := rfl
@[simp] theorem State.lower_tkt (s : State) (q : Nat) (sys : Bool) (n : BitVec 3) : (s.lower q sys n).tkt = s.tkt := rfl
@[simp] theorem State.lower_free (s : State) (q : Nat) (sys : Bool) (n : BitVec 3) : (s.lower q sys n).free = s.free := rfl

/-! An engine parks. -/

@[simp] theorem State.park_others (s : State) (l : Nat) (c : Cause) (i : Word) : (s.park l c i).others = s.others := rfl
@[simp] theorem State.park_cur (s : State) (l : Nat) (c : Cause) (i : Word) : (s.park l c i).cur = s.cur := rfl
@[simp] theorem State.park_launches (s : State) (l : Nat) (c : Cause) (i : Word) : (s.park l c i).launches = s.launches := rfl
@[simp] theorem State.park_dies (s : State) (l : Nat) (c : Cause) (i : Word) : (s.park l c i).dies = s.dies := rfl
@[simp] theorem State.park_mem (s : State) (l : Nat) (c : Cause) (i : Word) : (s.park l c i).mem = s.mem := rfl
@[simp] theorem State.park_lines (s : State) (l : Nat) (c : Cause) (i : Word) : (s.park l c i).lines = s.lines := rfl
@[simp] theorem State.park_ports (s : State) (l : Nat) (c : Cause) (i : Word) : (s.park l c i).ports = s.ports := rfl
@[simp] theorem State.park_agenda (s : State) (l : Nat) (c : Cause) (i : Word) : (s.park l c i).agenda = s.agenda := rfl
@[simp] theorem State.park_out (s : State) (l : Nat) (c : Cause) (i : Word) : (s.park l c i).out = s.out := rfl
@[simp] theorem State.park_tkt (s : State) (l : Nat) (c : Cause) (i : Word) : (s.park l c i).tkt = s.tkt := rfl
@[simp] theorem State.park_free (s : State) (l : Nat) (c : Cause) (i : Word) : (s.park l c i).free = s.free := rfl

/-! A bundle has been finished. -/

@[simp] theorem State.doneHere_g (s : State) : (s.doneHere).g = s.g := rfl
@[simp] theorem State.doneHere_others (s : State) : (s.doneHere).others = s.others := rfl
@[simp] theorem State.doneHere_launches (s : State) : (s.doneHere).launches = s.launches := rfl
@[simp] theorem State.doneHere_dies (s : State) : (s.doneHere).dies = s.dies := rfl
@[simp] theorem State.doneHere_mem (s : State) : (s.doneHere).mem = s.mem := rfl
@[simp] theorem State.doneHere_lines (s : State) : (s.doneHere).lines = s.lines := rfl
@[simp] theorem State.doneHere_ports (s : State) : (s.doneHere).ports = s.ports := rfl
@[simp] theorem State.doneHere_agenda (s : State) : (s.doneHere).agenda = s.agenda := rfl
@[simp] theorem State.doneHere_out (s : State) : (s.doneHere).out = s.out := rfl
@[simp] theorem State.doneHere_tkt (s : State) : (s.doneHere).tkt = s.tkt := rfl
@[simp] theorem State.doneHere_free (s : State) : (s.doneHere).free = s.free := rfl

/-! Another slot is looked at. -/

@[simp] theorem State.atSlot_g (s : State) (n : Nat) : (s.atSlot n).g = s.g := rfl
@[simp] theorem State.atSlot_others (s : State) (n : Nat) : (s.atSlot n).others = s.others := rfl
@[simp] theorem State.atSlot_launches (s : State) (n : Nat) : (s.atSlot n).launches = s.launches := rfl
@[simp] theorem State.atSlot_dies (s : State) (n : Nat) : (s.atSlot n).dies = s.dies := rfl
@[simp] theorem State.atSlot_mem (s : State) (n : Nat) : (s.atSlot n).mem = s.mem := rfl
@[simp] theorem State.atSlot_lines (s : State) (n : Nat) : (s.atSlot n).lines = s.lines := rfl
@[simp] theorem State.atSlot_ports (s : State) (n : Nat) : (s.atSlot n).ports = s.ports := rfl
@[simp] theorem State.atSlot_agenda (s : State) (n : Nat) : (s.atSlot n).agenda = s.agenda := rfl
@[simp] theorem State.atSlot_out (s : State) (n : Nat) : (s.atSlot n).out = s.out := rfl
@[simp] theorem State.atSlot_tkt (s : State) (n : Nat) : (s.atSlot n).tkt = s.tkt := rfl
@[simp] theorem State.atSlot_free (s : State) (n : Nat) : (s.atSlot n).free = s.free := rfl

/-! A program time is set. -/

@[simp] theorem State.setPts_others (s : State) (q p : Nat) : (s.setPts q p).others = s.others := rfl
@[simp] theorem State.setPts_cur (s : State) (q p : Nat) : (s.setPts q p).cur = s.cur := rfl
@[simp] theorem State.setPts_launches (s : State) (q p : Nat) : (s.setPts q p).launches = s.launches := rfl
@[simp] theorem State.setPts_dies (s : State) (q p : Nat) : (s.setPts q p).dies = s.dies := rfl
@[simp] theorem State.setPts_mem (s : State) (q p : Nat) : (s.setPts q p).mem = s.mem := rfl
@[simp] theorem State.setPts_lines (s : State) (q p : Nat) : (s.setPts q p).lines = s.lines := rfl
@[simp] theorem State.setPts_ports (s : State) (q p : Nat) : (s.setPts q p).ports = s.ports := rfl
@[simp] theorem State.setPts_agenda (s : State) (q p : Nat) : (s.setPts q p).agenda = s.agenda := rfl
@[simp] theorem State.setPts_out (s : State) (q p : Nat) : (s.setPts q p).out = s.out := rfl
@[simp] theorem State.setPts_tkt (s : State) (q p : Nat) : (s.setPts q p).tkt = s.tkt := rfl
@[simp] theorem State.setPts_free (s : State) (q p : Nat) : (s.setPts q p).free = s.free := rfl

/-! A block is set. -/

@[simp] theorem State.setBlock_others (s : State) (q : Nat) (b : Block) : (s.setBlock q b).others = s.others := rfl
@[simp] theorem State.setBlock_cur (s : State) (q : Nat) (b : Block) : (s.setBlock q b).cur = s.cur := rfl
@[simp] theorem State.setBlock_launches (s : State) (q : Nat) (b : Block) : (s.setBlock q b).launches = s.launches := rfl
@[simp] theorem State.setBlock_dies (s : State) (q : Nat) (b : Block) : (s.setBlock q b).dies = s.dies := rfl
@[simp] theorem State.setBlock_mem (s : State) (q : Nat) (b : Block) : (s.setBlock q b).mem = s.mem := rfl
@[simp] theorem State.setBlock_lines (s : State) (q : Nat) (b : Block) : (s.setBlock q b).lines = s.lines := rfl
@[simp] theorem State.setBlock_ports (s : State) (q : Nat) (b : Block) : (s.setBlock q b).ports = s.ports := rfl
@[simp] theorem State.setBlock_agenda (s : State) (q : Nat) (b : Block) : (s.setBlock q b).agenda = s.agenda := rfl
@[simp] theorem State.setBlock_out (s : State) (q : Nat) (b : Block) : (s.setBlock q b).out = s.out := rfl
@[simp] theorem State.setBlock_tkt (s : State) (q : Nat) (b : Block) : (s.setBlock q b).tkt = s.tkt := rfl
@[simp] theorem State.setBlock_free (s : State) (q : Nat) (b : Block) : (s.setBlock q b).free = s.free := rfl

/-! A barrier changes. -/

@[simp] theorem State.setBarrier_g (s : State) (l : Launch) (b : Nat) (e : Barrier) : (s.setBarrier l b e).g = s.g := rfl
@[simp] theorem State.setBarrier_others (s : State) (l : Launch) (b : Nat) (e : Barrier) : (s.setBarrier l b e).others = s.others := rfl
@[simp] theorem State.setBarrier_cur (s : State) (l : Launch) (b : Nat) (e : Barrier) : (s.setBarrier l b e).cur = s.cur := rfl
@[simp] theorem State.setBarrier_launches (s : State) (l : Launch) (b : Nat) (e : Barrier) : (s.setBarrier l b e).launches = s.launches := rfl
@[simp] theorem State.setBarrier_mem (s : State) (l : Launch) (b : Nat) (e : Barrier) : (s.setBarrier l b e).mem = s.mem := rfl
@[simp] theorem State.setBarrier_lines (s : State) (l : Launch) (b : Nat) (e : Barrier) : (s.setBarrier l b e).lines = s.lines := rfl
@[simp] theorem State.setBarrier_ports (s : State) (l : Launch) (b : Nat) (e : Barrier) : (s.setBarrier l b e).ports = s.ports := rfl
@[simp] theorem State.setBarrier_agenda (s : State) (l : Launch) (b : Nat) (e : Barrier) : (s.setBarrier l b e).agenda = s.agenda := rfl
@[simp] theorem State.setBarrier_out (s : State) (l : Launch) (b : Nat) (e : Barrier) : (s.setBarrier l b e).out = s.out := rfl
@[simp] theorem State.setBarrier_tkt (s : State) (l : Launch) (b : Nat) (e : Barrier) : (s.setBarrier l b e).tkt = s.tkt := rfl
@[simp] theorem State.setBarrier_free (s : State) (l : Launch) (b : Nat) (e : Barrier) : (s.setBarrier l b e).free = s.free := rfl

/-! A translation is cached. -/

@[simp] theorem State.fillShared_g (s : State) (d : Nat) (e : TlbEnt) : (s.fillShared d e).g = s.g := rfl
@[simp] theorem State.fillShared_others (s : State) (d : Nat) (e : TlbEnt) : (s.fillShared d e).others = s.others := rfl
@[simp] theorem State.fillShared_cur (s : State) (d : Nat) (e : TlbEnt) : (s.fillShared d e).cur = s.cur := rfl
@[simp] theorem State.fillShared_launches (s : State) (d : Nat) (e : TlbEnt) : (s.fillShared d e).launches = s.launches := rfl
@[simp] theorem State.fillShared_mem (s : State) (d : Nat) (e : TlbEnt) : (s.fillShared d e).mem = s.mem := rfl
@[simp] theorem State.fillShared_lines (s : State) (d : Nat) (e : TlbEnt) : (s.fillShared d e).lines = s.lines := rfl
@[simp] theorem State.fillShared_ports (s : State) (d : Nat) (e : TlbEnt) : (s.fillShared d e).ports = s.ports := rfl
@[simp] theorem State.fillShared_agenda (s : State) (d : Nat) (e : TlbEnt) : (s.fillShared d e).agenda = s.agenda := rfl
@[simp] theorem State.fillShared_out (s : State) (d : Nat) (e : TlbEnt) : (s.fillShared d e).out = s.out := rfl
@[simp] theorem State.fillShared_tkt (s : State) (d : Nat) (e : TlbEnt) : (s.fillShared d e).tkt = s.tkt := rfl
@[simp] theorem State.fillShared_free (s : State) (d : Nat) (e : TlbEnt) : (s.fillShared d e).free = s.free := rfl

/-! A segment frame changes. -/

@[simp] theorem State.updFrame_g (s : State) (d n m : Nat) (f : SegFrame → SegFrame) : (s.updFrame d n m f).g = s.g := rfl
@[simp] theorem State.updFrame_others (s : State) (d n m : Nat) (f : SegFrame → SegFrame) : (s.updFrame d n m f).others = s.others := rfl
@[simp] theorem State.updFrame_cur (s : State) (d n m : Nat) (f : SegFrame → SegFrame) : (s.updFrame d n m f).cur = s.cur := rfl
@[simp] theorem State.updFrame_launches (s : State) (d n m : Nat) (f : SegFrame → SegFrame) : (s.updFrame d n m f).launches = s.launches := rfl
@[simp] theorem State.updFrame_mem (s : State) (d n m : Nat) (f : SegFrame → SegFrame) : (s.updFrame d n m f).mem = s.mem := rfl
@[simp] theorem State.updFrame_lines (s : State) (d n m : Nat) (f : SegFrame → SegFrame) : (s.updFrame d n m f).lines = s.lines := rfl
@[simp] theorem State.updFrame_ports (s : State) (d n m : Nat) (f : SegFrame → SegFrame) : (s.updFrame d n m f).ports = s.ports := rfl
@[simp] theorem State.updFrame_agenda (s : State) (d n m : Nat) (f : SegFrame → SegFrame) : (s.updFrame d n m f).agenda = s.agenda := rfl
@[simp] theorem State.updFrame_out (s : State) (d n m : Nat) (f : SegFrame → SegFrame) : (s.updFrame d n m f).out = s.out := rfl
@[simp] theorem State.updFrame_tkt (s : State) (d n m : Nat) (f : SegFrame → SegFrame) : (s.updFrame d n m f).tkt = s.tkt := rfl
@[simp] theorem State.updFrame_free (s : State) (d n m : Nat) (f : SegFrame → SegFrame) : (s.updFrame d n m f).free = s.free := rfl

/-! A Referee changes. -/

@[simp] theorem State.updRef_g (s : State) (d : Nat) (f : Referee → Referee) : (s.updRef d f).g = s.g := rfl
@[simp] theorem State.updRef_others (s : State) (d : Nat) (f : Referee → Referee) : (s.updRef d f).others = s.others := rfl
@[simp] theorem State.updRef_cur (s : State) (d : Nat) (f : Referee → Referee) : (s.updRef d f).cur = s.cur := rfl
@[simp] theorem State.updRef_launches (s : State) (d : Nat) (f : Referee → Referee) : (s.updRef d f).launches = s.launches := rfl
@[simp] theorem State.updRef_mem (s : State) (d : Nat) (f : Referee → Referee) : (s.updRef d f).mem = s.mem := rfl
@[simp] theorem State.updRef_lines (s : State) (d : Nat) (f : Referee → Referee) : (s.updRef d f).lines = s.lines := rfl
@[simp] theorem State.updRef_ports (s : State) (d : Nat) (f : Referee → Referee) : (s.updRef d f).ports = s.ports := rfl
@[simp] theorem State.updRef_agenda (s : State) (d : Nat) (f : Referee → Referee) : (s.updRef d f).agenda = s.agenda := rfl
@[simp] theorem State.updRef_out (s : State) (d : Nat) (f : Referee → Referee) : (s.updRef d f).out = s.out := rfl
@[simp] theorem State.updRef_tkt (s : State) (d : Nat) (f : Referee → Referee) : (s.updRef d f).tkt = s.tkt := rfl
@[simp] theorem State.updRef_free (s : State) (d : Nat) (f : Referee → Referee) : (s.updRef d f).free = s.free := rfl

/-! A queue changes. -/

@[simp] theorem State.updQueue_g (s : State) (d qd : Nat) (f : QState → QState) : (s.updQueue d qd f).g = s.g := rfl
@[simp] theorem State.updQueue_others (s : State) (d qd : Nat) (f : QState → QState) : (s.updQueue d qd f).others = s.others := rfl
@[simp] theorem State.updQueue_cur (s : State) (d qd : Nat) (f : QState → QState) : (s.updQueue d qd f).cur = s.cur := rfl
@[simp] theorem State.updQueue_launches (s : State) (d qd : Nat) (f : QState → QState) : (s.updQueue d qd f).launches = s.launches := rfl
@[simp] theorem State.updQueue_mem (s : State) (d qd : Nat) (f : QState → QState) : (s.updQueue d qd f).mem = s.mem := rfl
@[simp] theorem State.updQueue_lines (s : State) (d qd : Nat) (f : QState → QState) : (s.updQueue d qd f).lines = s.lines := rfl
@[simp] theorem State.updQueue_ports (s : State) (d qd : Nat) (f : QState → QState) : (s.updQueue d qd f).ports = s.ports := rfl
@[simp] theorem State.updQueue_agenda (s : State) (d qd : Nat) (f : QState → QState) : (s.updQueue d qd f).agenda = s.agenda := rfl
@[simp] theorem State.updQueue_out (s : State) (d qd : Nat) (f : QState → QState) : (s.updQueue d qd f).out = s.out := rfl
@[simp] theorem State.updQueue_tkt (s : State) (d qd : Nat) (f : QState → QState) : (s.updQueue d qd f).tkt = s.tkt := rfl
@[simp] theorem State.updQueue_free (s : State) (d qd : Nat) (f : QState → QState) : (s.updQueue d qd f).free = s.free := rfl

/-! Health changes. -/

@[simp] theorem State.updHealth_g (s : State) (d : Nat) (f : Health → Health) : (s.updHealth d f).g = s.g := rfl
@[simp] theorem State.updHealth_others (s : State) (d : Nat) (f : Health → Health) : (s.updHealth d f).others = s.others := rfl
@[simp] theorem State.updHealth_cur (s : State) (d : Nat) (f : Health → Health) : (s.updHealth d f).cur = s.cur := rfl
@[simp] theorem State.updHealth_launches (s : State) (d : Nat) (f : Health → Health) : (s.updHealth d f).launches = s.launches := rfl
@[simp] theorem State.updHealth_mem (s : State) (d : Nat) (f : Health → Health) : (s.updHealth d f).mem = s.mem := rfl
@[simp] theorem State.updHealth_lines (s : State) (d : Nat) (f : Health → Health) : (s.updHealth d f).lines = s.lines := rfl
@[simp] theorem State.updHealth_ports (s : State) (d : Nat) (f : Health → Health) : (s.updHealth d f).ports = s.ports := rfl
@[simp] theorem State.updHealth_agenda (s : State) (d : Nat) (f : Health → Health) : (s.updHealth d f).agenda = s.agenda := rfl
@[simp] theorem State.updHealth_out (s : State) (d : Nat) (f : Health → Health) : (s.updHealth d f).out = s.out := rfl
@[simp] theorem State.updHealth_tkt (s : State) (d : Nat) (f : Health → Health) : (s.updHealth d f).tkt = s.tkt := rfl
@[simp] theorem State.updHealth_free (s : State) (d : Nat) (f : Health → Health) : (s.updHealth d f).free = s.free := rfl

/-! A port changes. -/

@[simp] theorem State.updPort_g (s : State) (n : Nat) (f : Port → Port) : (s.updPort n f).g = s.g := rfl
@[simp] theorem State.updPort_others (s : State) (n : Nat) (f : Port → Port) : (s.updPort n f).others = s.others := rfl
@[simp] theorem State.updPort_cur (s : State) (n : Nat) (f : Port → Port) : (s.updPort n f).cur = s.cur := rfl
@[simp] theorem State.updPort_launches (s : State) (n : Nat) (f : Port → Port) : (s.updPort n f).launches = s.launches := rfl
@[simp] theorem State.updPort_dies (s : State) (n : Nat) (f : Port → Port) : (s.updPort n f).dies = s.dies := rfl
@[simp] theorem State.updPort_mem (s : State) (n : Nat) (f : Port → Port) : (s.updPort n f).mem = s.mem := rfl
@[simp] theorem State.updPort_lines (s : State) (n : Nat) (f : Port → Port) : (s.updPort n f).lines = s.lines := rfl
@[simp] theorem State.updPort_agenda (s : State) (n : Nat) (f : Port → Port) : (s.updPort n f).agenda = s.agenda := rfl
@[simp] theorem State.updPort_out (s : State) (n : Nat) (f : Port → Port) : (s.updPort n f).out = s.out := rfl
@[simp] theorem State.updPort_tkt (s : State) (n : Nat) (f : Port → Port) : (s.updPort n f).tkt = s.tkt := rfl
@[simp] theorem State.updPort_free (s : State) (n : Nat) (f : Port → Port) : (s.updPort n f).free = s.free := rfl

/-! A part changes. -/

@[simp] theorem State.putPart_others (s : State) (p : Part) : (s.putPart p).others = s.others := rfl
@[simp] theorem State.putPart_cur (s : State) (p : Part) : (s.putPart p).cur = s.cur := rfl
@[simp] theorem State.putPart_launches (s : State) (p : Part) : (s.putPart p).launches = s.launches := rfl
@[simp] theorem State.putPart_dies (s : State) (p : Part) : (s.putPart p).dies = s.dies := rfl
@[simp] theorem State.putPart_mem (s : State) (p : Part) : (s.putPart p).mem = s.mem := rfl
@[simp] theorem State.putPart_lines (s : State) (p : Part) : (s.putPart p).lines = s.lines := rfl
@[simp] theorem State.putPart_ports (s : State) (p : Part) : (s.putPart p).ports = s.ports := rfl
@[simp] theorem State.putPart_agenda (s : State) (p : Part) : (s.putPart p).agenda = s.agenda := rfl
@[simp] theorem State.putPart_out (s : State) (p : Part) : (s.putPart p).out = s.out := rfl
@[simp] theorem State.putPart_tkt (s : State) (p : Part) : (s.putPart p).tkt = s.tkt := rfl
@[simp] theorem State.putPart_free (s : State) (p : Part) : (s.putPart p).free = s.free := rfl

/-! A part is over. -/

@[simp] theorem State.endPart_others (s : State) (p : Part) : (s.endPart p).others = s.others := rfl
@[simp] theorem State.endPart_cur (s : State) (p : Part) : (s.endPart p).cur = s.cur := rfl
@[simp] theorem State.endPart_launches (s : State) (p : Part) : (s.endPart p).launches = s.launches := rfl
@[simp] theorem State.endPart_dies (s : State) (p : Part) : (s.endPart p).dies = s.dies := rfl
@[simp] theorem State.endPart_mem (s : State) (p : Part) : (s.endPart p).mem = s.mem := rfl
@[simp] theorem State.endPart_lines (s : State) (p : Part) : (s.endPart p).lines = s.lines := rfl
@[simp] theorem State.endPart_ports (s : State) (p : Part) : (s.endPart p).ports = s.ports := rfl
@[simp] theorem State.endPart_agenda (s : State) (p : Part) : (s.endPart p).agenda = s.agenda := rfl
@[simp] theorem State.endPart_out (s : State) (p : Part) : (s.endPart p).out = s.out := rfl
@[simp] theorem State.endPart_tkt (s : State) (p : Part) : (s.endPart p).tkt = s.tkt := rfl
@[simp] theorem State.endPart_free (s : State) (p : Part) : (s.endPart p).free = s.free := rfl

/-! An operation is over. -/

@[simp] theorem State.endOp_others (s : State) (o : TokOp) : (s.endOp o).others = s.others := rfl
@[simp] theorem State.endOp_cur (s : State) (o : TokOp) : (s.endOp o).cur = s.cur := rfl
@[simp] theorem State.endOp_launches (s : State) (o : TokOp) : (s.endOp o).launches = s.launches := rfl
@[simp] theorem State.endOp_dies (s : State) (o : TokOp) : (s.endOp o).dies = s.dies := rfl
@[simp] theorem State.endOp_mem (s : State) (o : TokOp) : (s.endOp o).mem = s.mem := rfl
@[simp] theorem State.endOp_lines (s : State) (o : TokOp) : (s.endOp o).lines = s.lines := rfl
@[simp] theorem State.endOp_ports (s : State) (o : TokOp) : (s.endOp o).ports = s.ports := rfl
@[simp] theorem State.endOp_agenda (s : State) (o : TokOp) : (s.endOp o).agenda = s.agenda := rfl
@[simp] theorem State.endOp_out (s : State) (o : TokOp) : (s.endOp o).out = s.out := rfl
@[simp] theorem State.endOp_tkt (s : State) (o : TokOp) : (s.endOp o).tkt = s.tkt := rfl
@[simp] theorem State.endOp_free (s : State) (o : TokOp) : (s.endOp o).free = s.free := rfl

/-! An access is over. -/

@[simp] theorem State.endAcc_others (s : State) (a : SeqAcc) : (s.endAcc a).others = s.others := rfl
@[simp] theorem State.endAcc_cur (s : State) (a : SeqAcc) : (s.endAcc a).cur = s.cur := rfl
@[simp] theorem State.endAcc_launches (s : State) (a : SeqAcc) : (s.endAcc a).launches = s.launches := rfl
@[simp] theorem State.endAcc_dies (s : State) (a : SeqAcc) : (s.endAcc a).dies = s.dies := rfl
@[simp] theorem State.endAcc_mem (s : State) (a : SeqAcc) : (s.endAcc a).mem = s.mem := rfl
@[simp] theorem State.endAcc_lines (s : State) (a : SeqAcc) : (s.endAcc a).lines = s.lines := rfl
@[simp] theorem State.endAcc_ports (s : State) (a : SeqAcc) : (s.endAcc a).ports = s.ports := rfl
@[simp] theorem State.endAcc_agenda (s : State) (a : SeqAcc) : (s.endAcc a).agenda = s.agenda := rfl
@[simp] theorem State.endAcc_out (s : State) (a : SeqAcc) : (s.endAcc a).out = s.out := rfl
@[simp] theorem State.endAcc_tkt (s : State) (a : SeqAcc) : (s.endAcc a).tkt = s.tkt := rfl
@[simp] theorem State.endAcc_free (s : State) (a : SeqAcc) : (s.endAcc a).free = s.free := rfl

/-! An engine access is over. -/

@[simp] theorem State.endEng_others (s : State) (e : EngAcc) : (s.endEng e).others = s.others := rfl
@[simp] theorem State.endEng_cur (s : State) (e : EngAcc) : (s.endEng e).cur = s.cur := rfl
@[simp] theorem State.endEng_launches (s : State) (e : EngAcc) : (s.endEng e).launches = s.launches := rfl
@[simp] theorem State.endEng_dies (s : State) (e : EngAcc) : (s.endEng e).dies = s.dies := rfl
@[simp] theorem State.endEng_mem (s : State) (e : EngAcc) : (s.endEng e).mem = s.mem := rfl
@[simp] theorem State.endEng_lines (s : State) (e : EngAcc) : (s.endEng e).lines = s.lines := rfl
@[simp] theorem State.endEng_ports (s : State) (e : EngAcc) : (s.endEng e).ports = s.ports := rfl
@[simp] theorem State.endEng_agenda (s : State) (e : EngAcc) : (s.endEng e).agenda = s.agenda := rfl
@[simp] theorem State.endEng_out (s : State) (e : EngAcc) : (s.endEng e).out = s.out := rfl
@[simp] theorem State.endEng_tkt (s : State) (e : EngAcc) : (s.endEng e).tkt = s.tkt := rfl
@[simp] theorem State.endEng_free (s : State) (e : EngAcc) : (s.endEng e).free = s.free := rfl

/-! Results are in flight. -/

@[simp] theorem State.withFlight_others (s : State) (ls : List Landing) : (s.withFlight ls).others = s.others := rfl
@[simp] theorem State.withFlight_cur (s : State) (ls : List Landing) : (s.withFlight ls).cur = s.cur := rfl
@[simp] theorem State.withFlight_launches (s : State) (ls : List Landing) : (s.withFlight ls).launches = s.launches := rfl
@[simp] theorem State.withFlight_dies (s : State) (ls : List Landing) : (s.withFlight ls).dies = s.dies := rfl
@[simp] theorem State.withFlight_mem (s : State) (ls : List Landing) : (s.withFlight ls).mem = s.mem := rfl
@[simp] theorem State.withFlight_lines (s : State) (ls : List Landing) : (s.withFlight ls).lines = s.lines := rfl
@[simp] theorem State.withFlight_ports (s : State) (ls : List Landing) : (s.withFlight ls).ports = s.ports := rfl
@[simp] theorem State.withFlight_agenda (s : State) (ls : List Landing) : (s.withFlight ls).agenda = s.agenda := rfl
@[simp] theorem State.withFlight_out (s : State) (ls : List Landing) : (s.withFlight ls).out = s.out := rfl
@[simp] theorem State.withFlight_tkt (s : State) (ls : List Landing) : (s.withFlight ls).tkt = s.tkt := rfl
@[simp] theorem State.withFlight_free (s : State) (ls : List Landing) : (s.withFlight ls).free = s.free := rfl

/-! A scalar is in flight. -/

@[simp] theorem State.lands_others (s : State) (lat : Nat) (r : BitVec 6) (v : Word) : (s.lands lat r v).others = s.others := rfl
@[simp] theorem State.lands_cur (s : State) (lat : Nat) (r : BitVec 6) (v : Word) : (s.lands lat r v).cur = s.cur := rfl
@[simp] theorem State.lands_launches (s : State) (lat : Nat) (r : BitVec 6) (v : Word) : (s.lands lat r v).launches = s.launches := rfl
@[simp] theorem State.lands_dies (s : State) (lat : Nat) (r : BitVec 6) (v : Word) : (s.lands lat r v).dies = s.dies := rfl
@[simp] theorem State.lands_mem (s : State) (lat : Nat) (r : BitVec 6) (v : Word) : (s.lands lat r v).mem = s.mem := rfl
@[simp] theorem State.lands_lines (s : State) (lat : Nat) (r : BitVec 6) (v : Word) : (s.lands lat r v).lines = s.lines := rfl
@[simp] theorem State.lands_ports (s : State) (lat : Nat) (r : BitVec 6) (v : Word) : (s.lands lat r v).ports = s.ports := rfl
@[simp] theorem State.lands_agenda (s : State) (lat : Nat) (r : BitVec 6) (v : Word) : (s.lands lat r v).agenda = s.agenda := rfl
@[simp] theorem State.lands_out (s : State) (lat : Nat) (r : BitVec 6) (v : Word) : (s.lands lat r v).out = s.out := rfl
@[simp] theorem State.lands_tkt (s : State) (lat : Nat) (r : BitVec 6) (v : Word) : (s.lands lat r v).tkt = s.tkt := rfl
@[simp] theorem State.lands_free (s : State) (lat : Nat) (r : BitVec 6) (v : Word) : (s.lands lat r v).free = s.free := rfl

/-! Engine scalars are in flight. -/

@[simp] theorem State.landsLanes_others (s : State) (lat : Nat) (n : BitVec 4) (f : Nat → Word) : (s.landsLanes lat n f).others = s.others := rfl
@[simp] theorem State.landsLanes_cur (s : State) (lat : Nat) (n : BitVec 4) (f : Nat → Word) : (s.landsLanes lat n f).cur = s.cur := rfl
@[simp] theorem State.landsLanes_launches (s : State) (lat : Nat) (n : BitVec 4) (f : Nat → Word) : (s.landsLanes lat n f).launches = s.launches := rfl
@[simp] theorem State.landsLanes_dies (s : State) (lat : Nat) (n : BitVec 4) (f : Nat → Word) : (s.landsLanes lat n f).dies = s.dies := rfl
@[simp] theorem State.landsLanes_mem (s : State) (lat : Nat) (n : BitVec 4) (f : Nat → Word) : (s.landsLanes lat n f).mem = s.mem := rfl
@[simp] theorem State.landsLanes_lines (s : State) (lat : Nat) (n : BitVec 4) (f : Nat → Word) : (s.landsLanes lat n f).lines = s.lines := rfl
@[simp] theorem State.landsLanes_ports (s : State) (lat : Nat) (n : BitVec 4) (f : Nat → Word) : (s.landsLanes lat n f).ports = s.ports := rfl
@[simp] theorem State.landsLanes_agenda (s : State) (lat : Nat) (n : BitVec 4) (f : Nat → Word) : (s.landsLanes lat n f).agenda = s.agenda := rfl
@[simp] theorem State.landsLanes_out (s : State) (lat : Nat) (n : BitVec 4) (f : Nat → Word) : (s.landsLanes lat n f).out = s.out := rfl
@[simp] theorem State.landsLanes_tkt (s : State) (lat : Nat) (n : BitVec 4) (f : Nat → Word) : (s.landsLanes lat n f).tkt = s.tkt := rfl
@[simp] theorem State.landsLanes_free (s : State) (lat : Nat) (n : BitVec 4) (f : Nat → Word) : (s.landsLanes lat n f).free = s.free := rfl

/-! A transfer is pending. -/

@[simp] theorem State.pending_others (s : State) (d : Option Nat) (m : Option Lanes) (a : After) : (s.pending d m a).others = s.others := rfl
@[simp] theorem State.pending_cur (s : State) (d : Option Nat) (m : Option Lanes) (a : After) : (s.pending d m a).cur = s.cur := rfl
@[simp] theorem State.pending_launches (s : State) (d : Option Nat) (m : Option Lanes) (a : After) : (s.pending d m a).launches = s.launches := rfl
@[simp] theorem State.pending_dies (s : State) (d : Option Nat) (m : Option Lanes) (a : After) : (s.pending d m a).dies = s.dies := rfl
@[simp] theorem State.pending_mem (s : State) (d : Option Nat) (m : Option Lanes) (a : After) : (s.pending d m a).mem = s.mem := rfl
@[simp] theorem State.pending_lines (s : State) (d : Option Nat) (m : Option Lanes) (a : After) : (s.pending d m a).lines = s.lines := rfl
@[simp] theorem State.pending_ports (s : State) (d : Option Nat) (m : Option Lanes) (a : After) : (s.pending d m a).ports = s.ports := rfl
@[simp] theorem State.pending_agenda (s : State) (d : Option Nat) (m : Option Lanes) (a : After) : (s.pending d m a).agenda = s.agenda := rfl
@[simp] theorem State.pending_out (s : State) (d : Option Nat) (m : Option Lanes) (a : After) : (s.pending d m a).out = s.out := rfl
@[simp] theorem State.pending_tkt (s : State) (d : Option Nat) (m : Option Lanes) (a : After) : (s.pending d m a).tkt = s.tkt := rfl
@[simp] theorem State.pending_free (s : State) (d : Option Nat) (m : Option Lanes) (a : After) : (s.pending d m a).free = s.free := rfl

/-! The sequencer is blocked. -/

@[simp] theorem State.blocked_others (s : State) (b : Block) : (s.blocked b).others = s.others := rfl
@[simp] theorem State.blocked_cur (s : State) (b : Block) : (s.blocked b).cur = s.cur := rfl
@[simp] theorem State.blocked_launches (s : State) (b : Block) : (s.blocked b).launches = s.launches := rfl
@[simp] theorem State.blocked_dies (s : State) (b : Block) : (s.blocked b).dies = s.dies := rfl
@[simp] theorem State.blocked_mem (s : State) (b : Block) : (s.blocked b).mem = s.mem := rfl
@[simp] theorem State.blocked_lines (s : State) (b : Block) : (s.blocked b).lines = s.lines := rfl
@[simp] theorem State.blocked_ports (s : State) (b : Block) : (s.blocked b).ports = s.ports := rfl
@[simp] theorem State.blocked_agenda (s : State) (b : Block) : (s.blocked b).agenda = s.agenda := rfl
@[simp] theorem State.blocked_out (s : State) (b : Block) : (s.blocked b).out = s.out := rfl
@[simp] theorem State.blocked_tkt (s : State) (b : Block) : (s.blocked b).tkt = s.tkt := rfl
@[simp] theorem State.blocked_free (s : State) (b : Block) : (s.blocked b).free = s.free := rfl

/-! An operation is outstanding. -/

@[simp] theorem State.withOp_others (s : State) (t : BitVec 3) (d : BitVec 6) (k : OpKind) : (s.withOp t d k).others = s.others := rfl
@[simp] theorem State.withOp_cur (s : State) (t : BitVec 3) (d : BitVec 6) (k : OpKind) : (s.withOp t d k).cur = s.cur := rfl
@[simp] theorem State.withOp_launches (s : State) (t : BitVec 3) (d : BitVec 6) (k : OpKind) : (s.withOp t d k).launches = s.launches := rfl
@[simp] theorem State.withOp_dies (s : State) (t : BitVec 3) (d : BitVec 6) (k : OpKind) : (s.withOp t d k).dies = s.dies := rfl
@[simp] theorem State.withOp_mem (s : State) (t : BitVec 3) (d : BitVec 6) (k : OpKind) : (s.withOp t d k).mem = s.mem := rfl
@[simp] theorem State.withOp_lines (s : State) (t : BitVec 3) (d : BitVec 6) (k : OpKind) : (s.withOp t d k).lines = s.lines := rfl
@[simp] theorem State.withOp_ports (s : State) (t : BitVec 3) (d : BitVec 6) (k : OpKind) : (s.withOp t d k).ports = s.ports := rfl
@[simp] theorem State.withOp_agenda (s : State) (t : BitVec 3) (d : BitVec 6) (k : OpKind) : (s.withOp t d k).agenda = s.agenda := rfl
@[simp] theorem State.withOp_out (s : State) (t : BitVec 3) (d : BitVec 6) (k : OpKind) : (s.withOp t d k).out = s.out := rfl
@[simp] theorem State.withOp_free (s : State) (t : BitVec 3) (d : BitVec 6) (k : OpKind) : (s.withOp t d k).free = s.free := rfl

/-! The divergence stack grows. -/

@[simp] theorem State.pushDs_others (s : State) (e : DsEntry) : (s.pushDs e).others = s.others := rfl
@[simp] theorem State.pushDs_cur (s : State) (e : DsEntry) : (s.pushDs e).cur = s.cur := rfl
@[simp] theorem State.pushDs_launches (s : State) (e : DsEntry) : (s.pushDs e).launches = s.launches := rfl
@[simp] theorem State.pushDs_dies (s : State) (e : DsEntry) : (s.pushDs e).dies = s.dies := rfl
@[simp] theorem State.pushDs_mem (s : State) (e : DsEntry) : (s.pushDs e).mem = s.mem := rfl
@[simp] theorem State.pushDs_lines (s : State) (e : DsEntry) : (s.pushDs e).lines = s.lines := rfl
@[simp] theorem State.pushDs_ports (s : State) (e : DsEntry) : (s.pushDs e).ports = s.ports := rfl
@[simp] theorem State.pushDs_agenda (s : State) (e : DsEntry) : (s.pushDs e).agenda = s.agenda := rfl
@[simp] theorem State.pushDs_out (s : State) (e : DsEntry) : (s.pushDs e).out = s.out := rfl
@[simp] theorem State.pushDs_tkt (s : State) (e : DsEntry) : (s.pushDs e).tkt = s.tkt := rfl
@[simp] theorem State.pushDs_free (s : State) (e : DsEntry) : (s.pushDs e).free = s.free := rfl

/-! What an update changes. -/

@[simp] theorem State.updG_g (s : State) (f : Gang → Gang) : (s.updG f).g = f s.g := rfl
@[simp] theorem State.updDie_dies (s : State) (d : Nat) (f : Die → Die) : (s.updDie d f).dies = updAt d f s.dies := rfl
@[simp] theorem State.emit_out (s : State) (m : Msg) : (s.emit m).out = s.out ++ [m] := rfl
@[simp] theorem State.atSlot_slot (s : State) (n : Nat) : (s.atSlot n).cur.slot = n := rfl
@[simp] theorem State.doneHere_done (s : State) : s.doneHere.cur.done = true := rfl

/-! A sequencer of a gang changes. -/

@[simp] theorem Gang.updSeq_gid (g : Gang) (q : Nat) (f : Machine.Seq → Machine.Seq) : (g.updSeq q f).gid = g.gid := by
  unfold Gang.updSeq; split <;> rfl
@[simp] theorem Gang.updSeq_info (g : Gang) (q : Nat) (f : Machine.Seq → Machine.Seq) : (g.updSeq q f).info = g.info := by
  unfold Gang.updSeq; split <;> rfl
@[simp] theorem Gang.updSeq_place (g : Gang) (q : Nat) (f : Machine.Seq → Machine.Seq) : (g.updSeq q f).place = g.place := by
  unfold Gang.updSeq; split <;> rfl
@[simp] theorem Gang.updSeq_gx (g : Gang) (q : Nat) (f : Machine.Seq → Machine.Seq) : (g.updSeq q f).gx = g.gx := by
  unfold Gang.updSeq; split <;> rfl
@[simp] theorem Gang.updSeq_gy (g : Gang) (q : Nat) (f : Machine.Seq → Machine.Seq) : (g.updSeq q f).gy = g.gy := by
  unfold Gang.updSeq; split <;> rfl
@[simp] theorem Gang.updSeq_gz (g : Gang) (q : Nat) (f : Machine.Seq → Machine.Seq) : (g.updSeq q f).gz = g.gz := by
  unfold Gang.updSeq; split <;> rfl
@[simp] theorem Gang.updSeq_stage (g : Gang) (q : Nat) (f : Machine.Seq → Machine.Seq) : (g.updSeq q f).stage = g.stage := by
  unfold Gang.updSeq; split <;> rfl
@[simp] theorem Gang.updSeq_epres (g : Gang) (q : Nat) (f : Machine.Seq → Machine.Seq) : (g.updSeq q f).epres = g.epres := by
  unfold Gang.updSeq; split <;> rfl
@[simp] theorem Gang.updSeq_xmask (g : Gang) (q : Nat) (f : Machine.Seq → Machine.Seq) : (g.updSeq q f).xmask = g.xmask := by
  unfold Gang.updSeq; split <;> rfl
@[simp] theorem Gang.updSeq_pmask (g : Gang) (q : Nat) (f : Machine.Seq → Machine.Seq) : (g.updSeq q f).pmask = g.pmask := by
  unfold Gang.updSeq; split <;> rfl
@[simp] theorem Gang.updSeq_cycle (g : Gang) (q : Nat) (f : Machine.Seq → Machine.Seq) : (g.updSeq q f).cycle = g.cycle := by
  unfold Gang.updSeq; split <;> rfl
@[simp] theorem Gang.updSeq_lastBatch (g : Gang) (q : Nat) (f : Machine.Seq → Machine.Seq) : (g.updSeq q f).lastBatch = g.lastBatch := by
  unfold Gang.updSeq; split <;> rfl
@[simp] theorem Gang.updSeq_sealed (g : Gang) (q : Nat) (f : Machine.Seq → Machine.Seq) : (g.updSeq q f).sealed = g.sealed := by
  unfold Gang.updSeq; split <;> rfl
@[simp] theorem Gang.updSeq_contpc (g : Gang) (q : Nat) (f : Machine.Seq → Machine.Seq) : (g.updSeq q f).contpc = g.contpc := by
  unfold Gang.updSeq; split <;> rfl
@[simp] theorem Gang.updSeq_trapCause (g : Gang) (q : Nat) (f : Machine.Seq → Machine.Seq) : (g.updSeq q f).trapCause = g.trapCause := by
  unfold Gang.updSeq; split <;> rfl
@[simp] theorem Gang.updSeq_trapPc (g : Gang) (q : Nat) (f : Machine.Seq → Machine.Seq) : (g.updSeq q f).trapPc = g.trapPc := by
  unfold Gang.updSeq; split <;> rfl
@[simp] theorem Gang.updSeq_trapInfo (g : Gang) (q : Nat) (f : Machine.Seq → Machine.Seq) : (g.updSeq q f).trapInfo = g.trapInfo := by
  unfold Gang.updSeq; split <;> rfl
@[simp] theorem Gang.updSeq_trapSlot (g : Gang) (q : Nat) (f : Machine.Seq → Machine.Seq) : (g.updSeq q f).trapSlot = g.trapSlot := by
  unfold Gang.updSeq; split <;> rfl
@[simp] theorem Gang.updSeq_egReason (g : Gang) (q : Nat) (f : Machine.Seq → Machine.Seq) : (g.updSeq q f).egReason = g.egReason := by
  unfold Gang.updSeq; split <;> rfl
@[simp] theorem Gang.updSeq_egMark (g : Gang) (q : Nat) (f : Machine.Seq → Machine.Seq) : (g.updSeq q f).egMark = g.egMark := by
  unfold Gang.updSeq; split <;> rfl
@[simp] theorem Gang.updSeq_split (g : Gang) (q : Nat) (f : Machine.Seq → Machine.Seq) : (g.updSeq q f).split = g.split := by
  unfold Gang.updSeq; split <;> rfl
@[simp] theorem Gang.updSeq_splitTkt (g : Gang) (q : Nat) (f : Machine.Seq → Machine.Seq) : (g.updSeq q f).splitTkt = g.splitTkt := by
  unfold Gang.updSeq; split <;> rfl
@[simp] theorem Gang.updSeq_lanes (g : Gang) (q : Nat) (f : Machine.Seq → Machine.Seq) : (g.updSeq q f).lanes = g.lanes := by
  unfold Gang.updSeq; split <;> rfl
@[simp] theorem Gang.updSeq_ring (g : Gang) (q : Nat) (f : Machine.Seq → Machine.Seq) : (g.updSeq q f).ring = g.ring := by
  unfold Gang.updSeq; split <;> rfl
@[simp] theorem Gang.updSeq_ovf (g : Gang) (q : Nat) (f : Machine.Seq → Machine.Seq) : (g.updSeq q f).ovf = g.ovf := by
  unfold Gang.updSeq; split <;> rfl
@[simp] theorem Gang.updSeq_held (g : Gang) (q : Nat) (f : Machine.Seq → Machine.Seq) : (g.updSeq q f).held = g.held := by
  unfold Gang.updSeq; split <;> rfl
@[simp] theorem Gang.updSeq_mode (g : Gang) (q : Nat) (f : Machine.Seq → Machine.Seq) : (g.updSeq q f).mode = g.mode := by
  unfold Gang.updSeq; split <;> rfl
@[simp] theorem Gang.updSeq_fl (g : Gang) (q : Nat) (f : Machine.Seq → Machine.Seq) : (g.updSeq q f).fl = g.fl := by
  unfold Gang.updSeq; split <;> rfl
@[simp] theorem Gang.updSeq_xbar (g : Gang) (q : Nat) (f : Machine.Seq → Machine.Seq) : (g.updSeq q f).xbar = g.xbar := by
  unfold Gang.updSeq; split <;> rfl
@[simp] theorem Gang.updSeq_ops (g : Gang) (q : Nat) (f : Machine.Seq → Machine.Seq) : (g.updSeq q f).ops = g.ops := by
  unfold Gang.updSeq; split <;> rfl
@[simp] theorem Gang.updSeq_eng (g : Gang) (q : Nat) (f : Machine.Seq → Machine.Seq) : (g.updSeq q f).eng = g.eng := by
  unfold Gang.updSeq; split <;> rfl
@[simp] theorem Gang.updSeq_parts (g : Gang) (q : Nat) (f : Machine.Seq → Machine.Seq) : (g.updSeq q f).parts = g.parts := by
  unfold Gang.updSeq; split <;> rfl
@[simp] theorem Gang.updSeq_deferred (g : Gang) (q : Nat) (f : Machine.Seq → Machine.Seq) : (g.updSeq q f).deferred = g.deferred := by
  unfold Gang.updSeq; split <;> rfl
@[simp] theorem Gang.updSeq_wrote (g : Gang) (q : Nat) (f : Machine.Seq → Machine.Seq) : (g.updSeq q f).wrote = g.wrote := by
  unfold Gang.updSeq; split <;> rfl
@[simp] theorem Gang.updSeq_drain (g : Gang) (q : Nat) (f : Machine.Seq → Machine.Seq) : (g.updSeq q f).drain = g.drain := by
  unfold Gang.updSeq; split <;> rfl
@[simp] theorem Gang.updSeq_frozen (g : Gang) (q : Nat) (f : Machine.Seq → Machine.Seq) : (g.updSeq q f).frozen = g.frozen := by
  unfold Gang.updSeq; split <;> rfl
@[simp] theorem Gang.updSeq_stopping (g : Gang) (q : Nat) (f : Machine.Seq → Machine.Seq) : (g.updSeq q f).stopping = g.stopping := by
  unfold Gang.updSeq; split <;> rfl
@[simp] theorem Gang.updSeq_loaded (g : Gang) (q : Nat) (f : Machine.Seq → Machine.Seq) : (g.updSeq q f).loaded = g.loaded := by
  unfold Gang.updSeq; split <;> rfl
@[simp] theorem Gang.updSeq_closed (g : Gang) (q : Nat) (f : Machine.Seq → Machine.Seq) : (g.updSeq q f).closed = g.closed := by
  unfold Gang.updSeq; split <;> rfl
@[simp] theorem Gang.updSeq_wake (g : Gang) (q : Nat) (f : Machine.Seq → Machine.Seq) : (g.updSeq q f).wake = g.wake := by
  unfold Gang.updSeq; split <;> rfl
@[simp] theorem Gang.updSeq_slowed (g : Gang) (q : Nat) (f : Machine.Seq → Machine.Seq) : (g.updSeq q f).slowed = g.slowed := by
  unfold Gang.updSeq; split <;> rfl

@[simp] theorem Gang.updSeq_seq (g : Gang) (q : Nat) (f : Machine.Seq → Machine.Seq) : (g.updSeq q f).seq q = f (g.seq q) := by
  unfold Gang.updSeq Gang.seq; split <;> rfl
@[simp] theorem Gang.updSeq_zero (g : Gang) (f : Machine.Seq → Machine.Seq) : g.updSeq 0 f = { g with q0 := f g.q0 } := rfl
@[simp] theorem Gang.updSeq_one (g : Gang) (f : Machine.Seq → Machine.Seq) : g.updSeq 1 f = { g with q1 := f g.q1 } := rfl
@[simp] theorem Gang.seq_zero (g : Gang) : g.seq 0 = g.q0 := rfl
@[simp] theorem Gang.seq_one (g : Gang) : g.seq 1 = g.q1 := rfl
@[simp] theorem State.updSeq_seq (s : State) (f : Machine.Seq → Machine.Seq) : (s.updSeq f).seq = f s.seq := Gang.updSeq_seq _ _ f
@[simp] theorem State.updSeq_g (s : State) (f : Machine.Seq → Machine.Seq) : (s.updSeq f).g = s.g.updSeq s.cur.q f := rfl

/-- Two changes of a sequencer that agree on it are one. -/
theorem Gang.updSeq_congr {g : Gang} {q : Nat} {f h : Machine.Seq → Machine.Seq} (e : f (g.seq q) = h (g.seq q)) :
    g.updSeq q f = g.updSeq q h := by
  unfold Gang.updSeq Gang.seq at *; split <;> simp_all

/-- Two changes of the issuing sequencer that agree on it are one. -/
theorem State.updSeq_congr {s : State} {f h : Machine.Seq → Machine.Seq} (e : f s.seq = h s.seq) : s.updSeq f = s.updSeq h := by
  exact congrArg (fun g => ({ s with g := g } : State)) (Gang.updSeq_congr e)

/-! Registers. -/

@[simp] theorem Seq.reg_zero (q : Machine.Seq) : q.reg 0 = 0 := rfl
@[simp] theorem Seq.setReg_toks (q : Machine.Seq) (r : BitVec 6) (v : Word) : (q.setReg r v).toks = q.toks := by
  unfold Seq.setReg; split <;> rfl
@[simp] theorem Seq.setReg_acc (q : Machine.Seq) (r : BitVec 6) (v : Word) : (q.setReg r v).acc = q.acc := by
  unfold Seq.setReg; split <;> rfl
@[simp] theorem Seq.setReg_block (q : Machine.Seq) (r : BitVec 6) (v : Word) : (q.setReg r v).block = q.block := by
  unfold Seq.setReg; split <;> rfl

/-! Bringing a context into focus moves contexts only. -/

@[simp] theorem State.focus_cur (s : State) (n : Nat) : (s.focus n).cur = s.cur := by
  unfold State.focus; split <;> [rfl; (split <;> rfl)]
@[simp] theorem State.focus_launches (s : State) (n : Nat) : (s.focus n).launches = s.launches := by
  unfold State.focus; split <;> [rfl; (split <;> rfl)]
@[simp] theorem State.focus_dies (s : State) (n : Nat) : (s.focus n).dies = s.dies := by
  unfold State.focus; split <;> [rfl; (split <;> rfl)]
@[simp] theorem State.focus_mem (s : State) (n : Nat) : (s.focus n).mem = s.mem := by
  unfold State.focus; split <;> [rfl; (split <;> rfl)]
@[simp] theorem State.focus_lines (s : State) (n : Nat) : (s.focus n).lines = s.lines := by
  unfold State.focus; split <;> [rfl; (split <;> rfl)]
@[simp] theorem State.focus_ports (s : State) (n : Nat) : (s.focus n).ports = s.ports := by
  unfold State.focus; split <;> [rfl; (split <;> rfl)]
@[simp] theorem State.focus_agenda (s : State) (n : Nat) : (s.focus n).agenda = s.agenda := by
  unfold State.focus; split <;> [rfl; (split <;> rfl)]
@[simp] theorem State.focus_out (s : State) (n : Nat) : (s.focus n).out = s.out := by
  unfold State.focus; split <;> [rfl; (split <;> rfl)]
@[simp] theorem State.focus_tkt (s : State) (n : Nat) : (s.focus n).tkt = s.tkt := by
  unfold State.focus; split <;> [rfl; (split <;> rfl)]
@[simp] theorem State.focus_free (s : State) (n : Nat) : (s.focus n).free = s.free := by
  unfold State.focus; split <;> [rfl; (split <;> rfl)]

@[simp] theorem State.focus_self (s : State) : s.focus s.g.gid = s := by simp [State.focus]

/-- An event of a gang that the machine has is what it does with the gang in focus. -/
theorem State.withGang_at {s : State} {n : Nat} (f : State → State) (h : s.hasGang n) :
    s.withGang n f = (f (s.focus n)).focus s.g.gid := by
  unfold State.withGang; exact if_pos h

end Sys2Proof.Machine
end

