-- ==== Sys2Proof/Laws/Order.lean ====
section
/-! SUPPORT. What the shared operations over lines, logical times, publication and traps do to memory: a read leaves it, a
write puts its bytes and nothing else, and what takes neither leaves it. -/

namespace Sys2Proof.Machine

/-- A fold of steps that each leave a part of the state leaves that part. -/
theorem State.foldl_same {α β : Type} (p : State → β) (f : State → α → State) (h : ∀ s x, p (f s x) = p s) :
    ∀ (xs : List α) (s : State), p (xs.foldl f s) = p s
  | [], _ => rfl
  | x :: xs, s => (State.foldl_same p f h xs (f s x)).trans (h s x)

/-- The same for a fold that carries a number. -/
theorem State.foldl_same_pair {α β : Type} (p : State → β) (f : State × Nat → α → State × Nat)
    (h : ∀ a x, p (f a x).1 = p a.1) : ∀ (xs : List α) (a : State × Nat), p (xs.foldl f a).1 = p a.1
  | [], _ => rfl
  | x :: xs, a => (State.foldl_same_pair p f h xs (f a x)).trans (h a x)

/-! Lines and times. -/

@[simp] theorem State.setLine_mem (s : State) (l : LineInfo) : (s.setLine l).mem = s.mem := rfl
@[simp] theorem State.setLine_g (s : State) (l : LineInfo) : (s.setLine l).g = s.g := rfl
@[simp] theorem State.setLine_dies (s : State) (l : LineInfo) : (s.setLine l).dies = s.dies := rfl
@[simp] theorem State.setLine_launches (s : State) (l : LineInfo) : (s.setLine l).launches = s.launches := rfl

/-- Reading lines at a time changes no memory, no context, no die and no launch. -/
@[simp] theorem State.readAt_mem (s : State) (p k n : Nat) : (s.readAt p k n).1.mem = s.mem :=
  State.foldl_same_pair (·.mem) (fun a l => a.1.readLineAt a.2 l) (fun _ _ => rfl) _ _
@[simp] theorem State.readAt_g (s : State) (p k n : Nat) : (s.readAt p k n).1.g = s.g :=
  State.foldl_same_pair (·.g) (fun a l => a.1.readLineAt a.2 l) (fun _ _ => rfl) _ _
@[simp] theorem State.readAt_dies (s : State) (p k n : Nat) : (s.readAt p k n).1.dies = s.dies :=
  State.foldl_same_pair (·.dies) (fun a l => a.1.readLineAt a.2 l) (fun _ _ => rfl) _ _
@[simp] theorem State.readAt_launches (s : State) (p k n : Nat) : (s.readAt p k n).1.launches = s.launches :=
  State.foldl_same_pair (·.launches) (fun a l => a.1.readLineAt a.2 l) (fun _ _ => rfl) _ _

/-- A message to the control node changes no memory, no context, no die and no launch. -/
@[simp] theorem State.notifyOne_mem (s : State) (d e a : Nat) : (s.notifyOne d e a).mem = s.mem := by
  unfold State.notifyOne State.takeFree; dsimp only; split <;> split <;> rfl
@[simp] theorem State.notifyOne_g (s : State) (d e a : Nat) : (s.notifyOne d e a).g = s.g := by
  unfold State.notifyOne State.takeFree; dsimp only; split <;> split <;> rfl
@[simp] theorem State.notifyOne_dies (s : State) (d e a : Nat) : (s.notifyOne d e a).dies = s.dies := by
  unfold State.notifyOne State.takeFree; dsimp only; split <;> split <;> rfl
@[simp] theorem State.notifyOne_launches (s : State) (d e a : Nat) : (s.notifyOne d e a).launches = s.launches := by
  unfold State.notifyOne State.takeFree; dsimp only; split <;> split <;> rfl

/-! Runs of messages, of lines and of engines. -/

theorem State.notifyAll_mem (xs : List (Nat × Nat × Nat)) (t : State) :
    (xs.foldl (fun t x => t.notifyOne x.1 x.2.1 x.2.2) t).mem = t.mem := by
  induction xs generalizing t with
  | nil => rfl
  | cons x xs ih => rw [List.foldl_cons, ih, State.notifyOne_mem]
theorem State.writeLines_mem (xs : List Nat) (a : State × Nat) :
    (xs.foldl (fun a l => a.1.writeLineAt a.2 l) a).1.mem = a.1.mem := by
  induction xs generalizing a with
  | nil => rfl
  | cons x xs ih => exact (ih _).trans rfl
theorem State.notifyAll_g (xs : List (Nat × Nat × Nat)) (t : State) :
    (xs.foldl (fun t x => t.notifyOne x.1 x.2.1 x.2.2) t).g = t.g := by
  induction xs generalizing t with
  | nil => rfl
  | cons x xs ih => rw [List.foldl_cons, ih, State.notifyOne_g]
theorem State.writeLines_g (xs : List Nat) (a : State × Nat) :
    (xs.foldl (fun a l => a.1.writeLineAt a.2 l) a).1.g = a.1.g := by
  induction xs generalizing a with
  | nil => rfl
  | cons x xs ih => exact (ih _).trans rfl
theorem State.notifyAll_dies (xs : List (Nat × Nat × Nat)) (t : State) :
    (xs.foldl (fun t x => t.notifyOne x.1 x.2.1 x.2.2) t).dies = t.dies := by
  induction xs generalizing t with
  | nil => rfl
  | cons x xs ih => rw [List.foldl_cons, ih, State.notifyOne_dies]
theorem State.writeLines_dies (xs : List Nat) (a : State × Nat) :
    (xs.foldl (fun a l => a.1.writeLineAt a.2 l) a).1.dies = a.1.dies := by
  induction xs generalizing a with
  | nil => rfl
  | cons x xs ih => exact (ih _).trans rfl
theorem State.notifyAll_launches (xs : List (Nat × Nat × Nat)) (t : State) :
    (xs.foldl (fun t x => t.notifyOne x.1 x.2.1 x.2.2) t).launches = t.launches := by
  induction xs generalizing t with
  | nil => rfl
  | cons x xs ih => rw [List.foldl_cons, ih, State.notifyOne_launches]
theorem State.writeLines_launches (xs : List Nat) (a : State × Nat) :
    (xs.foldl (fun a l => a.1.writeLineAt a.2 l) a).1.launches = a.1.launches := by
  induction xs generalizing a with
  | nil => rfl
  | cons x xs ih => exact (ih _).trans rfl
theorem State.updLanes_mem (f : Lane → Lane) (xs : List Nat) (s : State) :
    (xs.foldl (fun s l => s.updLane l f) s).mem = s.mem := by
  induction xs generalizing s with
  | nil => rfl
  | cons x xs ih => exact (ih _).trans rfl

/-- A store at a key puts its bytes there, and changes no context, no die and no launch. -/
@[simp] theorem State.writeAt_mem (s : State) (p k : Nat) (bs : List Byte) : (s.writeAt p k bs).1.mem = s.mem.put k bs := by
  simp only [State.writeAt, State.notifyRange, State.notifyAll_mem, State.writeLines_mem]
@[simp] theorem State.writeAt_g (s : State) (p k : Nat) (bs : List Byte) : (s.writeAt p k bs).1.g = s.g := by
  simp only [State.writeAt, State.notifyRange, State.notifyAll_g, State.writeLines_g]
@[simp] theorem State.writeAt_dies (s : State) (p k : Nat) (bs : List Byte) : (s.writeAt p k bs).1.dies = s.dies := by
  simp only [State.writeAt, State.notifyRange, State.notifyAll_dies, State.writeLines_dies]
@[simp] theorem State.writeAt_launches (s : State) (p k : Nat) (bs : List Byte) : (s.writeAt p k bs).1.launches = s.launches := by
  simp only [State.writeAt, State.notifyRange, State.notifyAll_launches, State.writeLines_launches]

/-- A store of the gang in focus puts its bytes there, as any store does. -/
@[simp] theorem State.gangWrite_mem (s : State) (p k : Nat) (bs : List Byte) : (s.gangWrite p k bs).1.mem = s.mem.put k bs :=
  State.writeAt_mem _ _ _ _
@[simp] theorem State.gangWrite_g (s : State) (p k : Nat) (bs : List Byte) : (s.gangWrite p k bs).1.g = s.g :=
  State.writeAt_g _ _ _ _
@[simp] theorem State.gangWrite_dies (s : State) (p k : Nat) (bs : List Byte) : (s.gangWrite p k bs).1.dies = s.dies :=
  State.writeAt_dies _ _ _ _
@[simp] theorem State.gangWrite_launches (s : State) (p k : Nat) (bs : List Byte) :
    (s.gangWrite p k bs).1.launches = s.launches := State.writeAt_launches _ _ _ _

/-! Where every write is published everybody obtains what stands in memory. -/

theorem State.published_of (s : State) (k n : Nat) (h : s.unseen = []) : s.published k n = true := by
  simp [State.published, h]
theorem State.viewBytes_published (s : State) (g d k n : Nat) (h : s.published k n = true) :
    s.viewBytes g d k n = s.mem.bytes k n := by
  simp [State.viewBytes, h]
theorem State.gangBytes_published (s : State) (k n : Nat) (h : s.unseen = []) : s.gangBytes k n = s.mem.bytes k n :=
  s.viewBytes_published _ _ _ _ (s.published_of k n h)
theorem State.gangLe_published (s : State) (k n : Nat) (h : s.unseen = []) : s.gangLe k n = s.mem.le k n := by
  simp [State.gangLe, s.gangBytes_published k n h, Memory.le]
theorem State.agentBytes_published (s : State) (d k n : Nat) (h : s.unseen = []) : s.agentBytes d k n = s.mem.bytes k n :=
  s.viewBytes_published _ _ _ _ (s.published_of k n h)
theorem State.seen_published (s : State) (k n : Nat) (h : s.unseen = []) : s.seen k n = (s, s.mem.bytes k n) :=
  if_pos (s.published_of k n h)
theorem State.agentRegion_published (s : State) (d a n : Nat) (h : s.unseen = []) :
    s.agentRegion d a n = s.mem.region a n := by
  simp [State.agentRegion, h]
theorem State.freshPick_published (s : State) (h : s.unseen = []) : s.freshPick = s := if_pos h
@[simp] theorem State.freshPick_mem (s : State) : s.freshPick.mem = s.mem := by
  unfold State.freshPick; split <;> rfl
@[simp] theorem State.seen_mem (s : State) (k n : Nat) : (s.seen k n).1.mem = s.mem := by
  unfold State.seen; split <;> rfl

@[simp] theorem State.agentWrite_mem (s : State) (k : Nat) (bs : List Byte) : (s.agentWrite k bs).mem = s.mem.put k bs :=
  State.writeAt_mem _ _ _ _
@[simp] theorem State.agentWrite_g (s : State) (k : Nat) (bs : List Byte) : (s.agentWrite k bs).g = s.g :=
  State.writeAt_g _ _ _ _
@[simp] theorem State.agentWrite_dies (s : State) (k : Nat) (bs : List Byte) : (s.agentWrite k bs).dies = s.dies :=
  State.writeAt_dies _ _ _ _
@[simp] theorem State.agentWrite_launches (s : State) (k : Nat) (bs : List Byte) :
    (s.agentWrite k bs).launches = s.launches := State.writeAt_launches _ _ _ _

/-! Publication. -/

@[simp] theorem State.publishLines_mem (s : State) (p : Nat) (ls : List Nat) : (s.publishLines p ls).1.mem = s.mem :=
  State.writeLines_mem _ _
@[simp] theorem State.notifyRange_mem (s : State) (k n : Nat) : (s.notifyRange k n).mem = s.mem := State.notifyAll_mem _ _
@[simp] theorem State.noteBars_mem (s : State) (bs : List Nat) (t : Nat) : (s.noteBars bs t).mem = s.mem := by
  unfold State.noteBars
  split
  · rfl
  · refine State.foldl_same (·.mem) _ ?_ _ _
    intro _ _
    rfl
/-- A publication changes no memory. -/
@[simp] theorem State.publish_mem (s : State) (c p : Nat) (f : Wrote → Bool) (own : Bool) :
    (s.publish c p f own).1.mem = s.mem := by
  unfold State.publish
  split
  · rfl
  · dsimp only
    split
    · refine (State.foldl_same (·.mem) _ (fun _ _ => State.notifyRange_mem _ _ _) _ _).trans ?_
      exact (State.noteBars_mem _ _ _).trans (State.publishLines_mem _ _ _)
    · exact (State.noteBars_mem _ _ _).trans (State.publishLines_mem _ _ _)
@[simp] theorem State.publishBatches_mem (s : State) (c q : Nat) (n : BitVec 16) : (s.publishBatches c q n).mem = s.mem :=
  State.publish_mem _ _ _ _ _
@[simp] theorem State.publishAll_mem (s : State) (c q : Nat) : (s.publishAll c q).mem = s.mem :=
  State.publish_mem _ _ _ _ _
@[simp] theorem State.acquire_mem (s : State) (q t : Nat) : (s.acquire q t).mem = s.mem := rfl

/-- A write of a word by an instruction's own sequencer. -/
@[simp] theorem State.rPut_mem (s : State) (q k n v : Nat) : (s.rPut q k n v).mem = s.mem.put k (leBytes n v) :=
  State.writeAt_mem _ _ _ _

/-! Gangs. -/

/-- What is done to one gang changes memory as it does to the gang in focus. -/
theorem State.withGang_mem (s : State) (n : Nat) (f : State → State) :
    (s.withGang n f).mem = s.mem ∨ (s.withGang n f).mem = (f (s.focus n)).mem := by
  unfold State.withGang
  dsimp only
  split
  · exact .inr (State.focus_mem _ _)
  · exact .inl rfl

/-- An invariant of memory that f keeps is kept when f is done to one gang. -/
theorem State.withGang_inv {s : State} {n : Nat} {f : State → State} (h : Inv s) (hf : ∀ t, Inv t → Inv (f t)) :
    Inv (s.withGang n f) := by
  rcases State.withGang_mem s n f with e | e
  · unfold Inv; rw [e]; exact h
  · unfold Inv; rw [e]; exact hf _ (by unfold Inv; rw [State.focus_mem]; exact h)

/-- A fold of steps that keep an invariant keeps it. -/
theorem State.foldl_inv {α : Type} {p : State → Prop} {f : State → α → State} (h : ∀ s x, p s → p (f s x)) :
    ∀ (xs : List α) (s : State), p s → p (xs.foldl f s)
  | [], _, hs => hs
  | x :: xs, s, hs => State.foldl_inv h xs (f s x) (h s x hs)

@[simp] theorem State.killNow_mem (s : State) (r : Nat) (w : Word) : (s.killNow r w).mem = s.mem := rfl

@[simp] theorem State.trapEnter_mem (s : State) (q : Nat) (e : Exc) (pc : Nat) : (s.trapEnter q e pc).mem = s.mem := by
  unfold State.trapEnter; split <;> rfl

@[simp] theorem State.trapHere_mem (s : State) (e : Exc) : (s.trapHere e).mem = s.mem := State.trapEnter_mem _ _ _ _

@[simp] theorem State.trapReturn_mem (s : State) : s.trapReturn.mem = s.mem := by
  unfold State.trapReturn; split <;> [rfl; (split <;> rfl)]

@[simp] theorem State.converge_mem (s : State) (pc : Nat) (b : Bool) : (s.converge pc b).mem = s.mem := by
  unfold State.converge; dsimp only; split <;> [rfl; exact State.trapEnter_mem _ _ _ _]

/-- The units an instruction takes are a gang's own. -/
@[simp] theorem State.occupy_mem (s : State) (i : Instr) : (s.occupy i).mem = s.mem := by
  simp only [State.occupy]
  split
  · cases i <;> rfl
  · exact State.updLanes_mem _ _ _
  · exact State.updLanes_mem _ _ _
  · exact State.updLanes_mem _ _ _
  · rfl

/-- An instruction changes memory only by its effect. -/
theorem State.run_inv {s : State} {i : Instr} {eff : State → State} (h : Inv s) (he : ∀ t, Inv t → Inv (eff t)) :
    Inv (s.run i eff) := by
  unfold State.run
  split
  · exact he _ (by unfold Inv; rw [State.occupy_mem]; exact h)
  · exact h
  · exact h
  · unfold Inv; rw [State.doneHere_mem, State.converge_mem]; exact h
  · unfold Inv; rw [State.doneHere_mem, State.trapHere_mem]; exact h

theorem State.runTransfer_inv {s : State} {i : Instr} {eff : State → State} (h : Inv s) (he : ∀ t, Inv t → Inv (eff t)) :
    Inv (s.runTransfer i eff) := by
  unfold State.runTransfer
  split
  · exact h
  · exact State.run_inv h he

/-- A state with the memory of one that keeps the canonical form keeps it. -/
theorem Inv.of_mem {s t : State} (h : Inv s) (e : t.mem = s.mem) : Inv t := by unfold Inv; rw [e]; exact h

/-- A state whose memory has had bytes put into it keeps the canonical form. -/
theorem Inv.of_put {s t : State} {k : Nat} {bs : List Byte} (h : Inv s) (e : t.mem = s.mem.put k bs) : Inv t := by
  unfold Inv; rw [e]; exact Memory.put_wf bs k h

/-- Bytes put into the memory of a state that keeps the canonical form. -/
theorem Inv.put_again {s : State} (k : Nat) (bs : List Byte) (h : Inv s) : Inv { s with mem := s.mem.put k bs } := h.of_put rfl

/-- An atomic on a unit of which no old contents are left puts its value there; it finds what stands there. -/
theorem State.atomicAt_published (s : State) (p k n : Nat) (f : Nat → Nat) (h : s.unseen = []) :
    (s.atomicAt p k n f).1.mem = s.mem.put k (leBytes n (f (s.mem.le k n))) ∧ (s.atomicAt p k n f).2.2 = s.mem.le k n := by
  have hu : (s.readAt p k n).1.unseen = [] :=
    (State.foldl_same_pair (·.unseen) (fun a l => a.1.readLineAt a.2 l) (fun _ _ => rfl) _ _).trans h
  simp [State.atomicAt, State.versions, hu, oldUnits]

/-- An atomic keeps the canonical form, whichever contents of the unit it finds and leaves. -/
theorem State.atomicAt_inv {s : State} (p k n : Nat) (f : Nat → Nat) (h : Inv s) : Inv (s.atomicAt p k n f).1 := by
  unfold State.atomicAt
  dsimp only
  split
  · exact h.of_put ((State.gangWrite_mem _ _ _ _).trans (by rw [State.readAt_mem]))
  · have hw : ∀ (u : State) (q : Nat) (bs : List Byte), u.mem = s.mem → Inv (u.gangWrite q (k / 8 * 8) bs).1 :=
      fun u q bs e => Inv.of_put h ((State.gangWrite_mem u q (k / 8 * 8) bs).trans (by rw [e]))
    have ht : ∀ u : State, u.takeFree.2.mem = u.mem := fun _ => rfl
    split
    · refine Inv.put_again _ _ (hw _ _ _ ?_)
      rw [ht, ht, State.readAt_mem]
    · refine hw _ _ _ ?_
      rw [ht, ht, State.readAt_mem]

end Sys2Proof.Machine
end

