-- ==== Sys2Proof/Laws/Ops.lean ====
section
/-! SUPPORT. What the shared operations of the meanings come to: running an instruction by the verdict on it, the units it
takes, scheduling results, transfers, blocks and tokened operations. -/

namespace Sys2Proof.Machine

/-! The verdict on an instruction. -/

/-- What `run` comes to, for each verdict. -/
theorem State.run_cases (s : State) (i : Instr) (eff : State → State) :
    (s.gate i = .go ∧ s.run i eff = eff (s.occupy i)) ∨ (s.gate i = .skip ∧ s.run i eff = s) ∨
    (s.gate i = .hold ∧ s.run i eff = s) ∨
    (s.gate i = .converge ∧ s.run i eff = (s.converge s.cur.head false).doneHere) ∨
    (∃ e, s.gate i = .trap e ∧ s.run i eff = (s.trapHere e).doneHere) := by
  unfold State.run
  cases h : s.gate i with
  | go => exact .inl ⟨rfl, rfl⟩
  | skip => exact .inr (.inl ⟨rfl, rfl⟩)
  | hold => exact .inr (.inr (.inl ⟨rfl, rfl⟩))
  | converge => exact .inr (.inr (.inr (.inl ⟨rfl, rfl⟩)))
  | trap e => exact .inr (.inr (.inr (.inr ⟨e, rfl, rfl⟩)))

theorem State.run_go {s : State} {i : Instr} (eff : State → State) (h : s.gate i = .go) :
    s.run i eff = eff (s.occupy i) := by simp [State.run, h]

theorem State.run_skip {s : State} {i : Instr} (eff : State → State) (h : s.gate i = .skip) : s.run i eff = s := by
  simp [State.run, h]

theorem State.run_hold {s : State} {i : Instr} (eff : State → State) (h : s.gate i = .hold) : s.run i eff = s := by
  simp [State.run, h]

theorem State.run_trap {s : State} {i : Instr} {e : Exc} (eff : State → State) (h : s.gate i = .trap e) :
    s.run i eff = (s.trapHere e).doneHere := by simp [State.run, h]

theorem State.run_converge {s : State} {i : Instr} (eff : State → State) (h : s.gate i = .converge) :
    s.run i eff = (s.converge s.cur.head false).doneHere := by simp [State.run, h]

theorem State.runTransfer_go {s : State} {i : Instr} (eff : State → State) (h : s.gate i = .go) :
    s.runTransfer i eff = eff (s.occupy i) := by simp [State.runTransfer, State.run, h]

theorem State.runTransfer_skip {s : State} {i : Instr} (eff : State → State) (h : s.gate i = .skip) :
    s.runTransfer i eff = s.pending none none .nothing := by simp [State.runTransfer, h, State.transfer, State.pending]

theorem State.runTransfer_hold {s : State} {i : Instr} (eff : State → State) (h : s.gate i = .hold) :
    s.runTransfer i eff = s := by simp [State.runTransfer, State.run, h]

theorem State.runTransfer_trap {s : State} {i : Instr} {e : Exc} (eff : State → State) (h : s.gate i = .trap e) :
    s.runTransfer i eff = (s.trapHere e).doneHere := by simp [State.runTransfer, State.run, h]

theorem State.runTransfer_converge {s : State} {i : Instr} (eff : State → State) (h : s.gate i = .converge) :
    s.runTransfer i eff = (s.converge s.cur.head false).doneHere := by simp [State.runTransfer, State.run, h]

/-- A bundle that has been found free to issue waits and traps no more. -/
theorem State.gate_ready {s : State} {i : Instr} (h : s.cur.ready = true) :
    s.gate i = if s.enabled i then .go else .skip := by simp [State.gate, h]

/-! Slots and units. -/

/-- An S-slot word that stands in a slot of its kind stands in slot 0. -/
theorem State.slot_zero {s : State} {i : Instr} {w : Slotword} (hw : i.encode = some (.S, w)) (h : s.slotOk i = true) :
    s.cur.slot = 0 := by
  simp only [State.slotOk, hw] at h
  revert h
  unfold slotKindOf
  split <;> simp_all

/-- The units an S-slot word takes: the divider, for DIV and REM, and none for any other (R48). -/
theorem State.occupy_zero {s : State} {i : Instr} (h : s.cur.slot = 0) :
    s.occupy i = match i with
      | .div _ => s.divBusy
      | .rem _ => s.divBusy
      | _ => s := by
  cases i <;> simp [State.occupy, h, State.divBusy]

@[simp] theorem State.divBusy_cur (s : State) : s.divBusy.cur = s.cur := rfl

@[simp] theorem State.divBusy_operand (s : State) (c : BitVec 6) : s.divBusy.operand c = s.operand c := by
  have h : s.divBusy.seq.reg c = s.seq.reg c := by
    simp only [State.seq, State.divBusy, State.updSeq, State.updG, Gang.updSeq, Gang.seq]
    by_cases hq : s.cur.q = 0 <;> simp [hq, Seq.reg]
  unfold State.operand
  rw [h]
  rfl

/-! Scheduling. -/

@[simp] theorem State.land_eq (s : State) (lat : Nat) (ws : List Landed) : s.land lat ws = s.withFlight [⟨lat, ws, false⟩] := rfl

@[simp] theorem State.landM_eq (s : State) (lat : Nat) (ws : List Landed) : s.landM lat ws = s.withFlight [⟨lat, ws, true⟩] := rfl

@[simp] theorem State.landReg_eq (s : State) (lat : Nat) (r : BitVec 6) (v : Word) : s.landReg lat r v = s.lands lat r v := rfl

@[simp] theorem State.transfer_eq (s : State) (dst : Option Nat) (mask : Option Lanes) (a : After) :
    s.transfer dst mask a = s.pending dst mask a := rfl

@[simp] theorem State.blockOn_eq (s : State) (b : Block) : s.blockOn b = s.blocked b := rfl

@[simp] theorem State.tokened_eq (s : State) (t : BitVec 3) (d : BitVec 6) (k : OpKind) : s.tokened t d k = s.withOp t d k := by
  unfold State.tokened State.withOp State.raise State.updSeq State.updG State.takeTicket
  rfl

/-! Accesses. -/

/-- An access whose checks pass has the key they give, and leaves its translation in the caches. -/
theorem State.keyOf_at {s : State} {a : Access} {key : Nat} {ent : Option TlbEnt} (h : s.locateS a = .at_ key ent) :
    s.keyOf a = (s.filled ent, key) := by
  unfold State.keyOf
  rw [h]
  cases ent <;> rfl

@[simp] theorem State.filled_tkt (s : State) (e : Option TlbEnt) : (s.filled e).tkt = s.tkt := by cases e <;> rfl

@[simp] theorem State.filled_cur (s : State) (e : Option TlbEnt) : (s.filled e).cur = s.cur := by cases e <;> rfl

@[simp] theorem State.filled_inSys (s : State) (e : Option TlbEnt) : (s.filled e).g.inSys = s.g.inSys := by
  cases e with
  | none => rfl
  | some e => simp [State.filled, State.fillTlbs, State.updSeq, State.updG, Gang.inSys, State.fillShared, State.updDie]

/-- A load, an atomic or a prefetch that issues leaves one access outstanding. -/
theorem State.issueAcc_at {s : State} {a : Access} {key : Nat} {ent : Option TlbEnt} (x : SM) (k : AccKind)
    (h : s.locateS a = .at_ key ent) :
    s.issueAcc x a k = (s.filled ent).withAcc x.tok x.d k a.va key a.size (x.sign == 1) := by
  unfold State.issueAcc State.withAcc
  rw [State.keyOf_at h]
  simp only [State.takeTicket, State.filled_tkt, State.filled_inSys]
  rfl

/-- A store that issues leaves one entry in the store buffer. -/
theorem State.issueStore_at {s : State} {a : Access} {key : Nat} {ent : Option TlbEnt} (x : SM)
    (h : s.locateS a = .at_ key ent) :
    s.issueStore x a = (s.filled ent).withStore x.tok a.va key (leBytes a.size (s.operand x.d).toNat) := by
  unfold State.issueStore State.withStore
  rw [State.keyOf_at h]
  simp only [State.takeTicket, State.filled_tkt, State.filled_inSys]
  rfl

/-! Saving a context. -/

/-- While no die has failed, each reads as one that has not. -/
theorem State.die_failed {s : State} (h : ∀ x ∈ s.dies, x.failed = false) (d : Nat) : (s.die d).failed = false := by
  unfold State.die
  rw [List.getD_eq_getElem?_getD]
  cases e : s.dies[d]? with
  | none => rfl
  | some x => exact h x (List.mem_of_getElem? e)

/-- The blocks of an image that goes to the spill area are all written: its addresses are not translated (R341), and the memory
of a die that has not failed answers. -/
theorem State.saveBlocks_spill (die d e : Nat) :
    ∀ (l : List (Nat × List Byte)) (s : State), (∀ x ∈ s.dies, x.failed = false) →
      ∃ u, s.saveBlocks die (.spill d e) l = some u
  | [], s, _ => ⟨s, rfl⟩
  | b :: bs, s, h => by
    have hr (pa : Nat) : s.reaches pa = true := by
      rw [State.reaches, State.die_failed h]; rfl
    obtain ⟨u, hu⟩ := State.saveBlocks_spill die d e bs
      (s.agentWrite ((s.die d).spillbase.toNat + e * 2 ^ 24 + b.1 * 4096) b.2) (by rw [State.agentWrite_dies]; exact h)
    exact ⟨u, by simp only [State.saveBlocks, State.blockAddr, hr, if_true, Option.bind_some, hu]⟩

/-- While no die has failed, a context can be saved to any entry of the spill area. -/
theorem State.saveContext_spill (s : State) (g : Gang) (d e : Nat) (h : ∀ x ∈ s.dies, x.failed = false) :
    ∃ u, s.saveContext g (.spill d e) = some u :=
  State.saveBlocks_spill _ d e _ _ h

end Sys2Proof.Machine
end

