-- ==== Sys2Proof/Laws/PerInstr.lean ====
section
/-! SUPPORT. A family of facts about every instruction as syntax, one lemma for each constructor: an instruction has a slot
word, or it is an event, and an event names no scalar register and is well formed as it stands. -/

namespace Sys2Proof

/-- An instruction without a slot word reads and writes no scalar register, and nothing in it can be ill-formed. -/
def Laws.EventsNameNoRegister.Statement (i : Instr) : Prop :=
  i.encode = none → i.scalarSources = [] ∧ i.scalarDests = [] ∧ i.fieldsOk = true ∧ i.codesOk = true

theorem Laws.EventsNameNoRegister.nop (a0 : SR) : Laws.EventsNameNoRegister.Statement (.nop a0) := fun h => nomatch h
theorem Laws.EventsNameNoRegister.add (a0 : SR) : Laws.EventsNameNoRegister.Statement (.add a0) := fun h => nomatch h
theorem Laws.EventsNameNoRegister.sub (a0 : SR) : Laws.EventsNameNoRegister.Statement (.sub a0) := fun h => nomatch h
theorem Laws.EventsNameNoRegister.addi (a0 : SI) : Laws.EventsNameNoRegister.Statement (.addi a0) := fun h => nomatch h
theorem Laws.EventsNameNoRegister.mul (a0 : SR) : Laws.EventsNameNoRegister.Statement (.mul a0) := fun h => nomatch h
theorem Laws.EventsNameNoRegister.mulh (a0 : SR) : Laws.EventsNameNoRegister.Statement (.mulh a0) := fun h => nomatch h
theorem Laws.EventsNameNoRegister.div (a0 : SR) : Laws.EventsNameNoRegister.Statement (.div a0) := fun h => nomatch h
theorem Laws.EventsNameNoRegister.rem (a0 : SR) : Laws.EventsNameNoRegister.Statement (.rem a0) := fun h => nomatch h
theorem Laws.EventsNameNoRegister.andS (a0 : SR) : Laws.EventsNameNoRegister.Statement (.andS a0) := fun h => nomatch h
theorem Laws.EventsNameNoRegister.orS (a0 : SR) : Laws.EventsNameNoRegister.Statement (.orS a0) := fun h => nomatch h
theorem Laws.EventsNameNoRegister.xorS (a0 : SR) : Laws.EventsNameNoRegister.Statement (.xorS a0) := fun h => nomatch h
theorem Laws.EventsNameNoRegister.andn (a0 : SR) : Laws.EventsNameNoRegister.Statement (.andn a0) := fun h => nomatch h
theorem Laws.EventsNameNoRegister.andi (a0 : SI) : Laws.EventsNameNoRegister.Statement (.andi a0) := fun h => nomatch h
theorem Laws.EventsNameNoRegister.ori (a0 : SI) : Laws.EventsNameNoRegister.Statement (.ori a0) := fun h => nomatch h
theorem Laws.EventsNameNoRegister.xori (a0 : SI) : Laws.EventsNameNoRegister.Statement (.xori a0) := fun h => nomatch h
theorem Laws.EventsNameNoRegister.shl (a0 : SR) : Laws.EventsNameNoRegister.Statement (.shl a0) := fun h => nomatch h
theorem Laws.EventsNameNoRegister.shr (a0 : SR) : Laws.EventsNameNoRegister.Statement (.shr a0) := fun h => nomatch h
theorem Laws.EventsNameNoRegister.sar (a0 : SR) : Laws.EventsNameNoRegister.Statement (.sar a0) := fun h => nomatch h
theorem Laws.EventsNameNoRegister.shli (a0 : SI) : Laws.EventsNameNoRegister.Statement (.shli a0) := fun h => nomatch h
theorem Laws.EventsNameNoRegister.shri (a0 : SI) : Laws.EventsNameNoRegister.Statement (.shri a0) := fun h => nomatch h
theorem Laws.EventsNameNoRegister.sari (a0 : SI) : Laws.EventsNameNoRegister.Statement (.sari a0) := fun h => nomatch h
theorem Laws.EventsNameNoRegister.minS (a0 : SR) : Laws.EventsNameNoRegister.Statement (.minS a0) := fun h => nomatch h
theorem Laws.EventsNameNoRegister.maxS (a0 : SR) : Laws.EventsNameNoRegister.Statement (.maxS a0) := fun h => nomatch h
theorem Laws.EventsNameNoRegister.cmp (a0 : SR) : Laws.EventsNameNoRegister.Statement (.cmp a0) := fun h => nomatch h
theorem Laws.EventsNameNoRegister.cmpi (a0 : SI) : Laws.EventsNameNoRegister.Statement (.cmpi a0) := fun h => nomatch h
theorem Laws.EventsNameNoRegister.sel (a0 : SR) : Laws.EventsNameNoRegister.Statement (.sel a0) := fun h => nomatch h
theorem Laws.EventsNameNoRegister.mov (a0 : SR) : Laws.EventsNameNoRegister.Statement (.mov a0) := fun h => nomatch h
theorem Laws.EventsNameNoRegister.movi (a0 : SI) : Laws.EventsNameNoRegister.Statement (.movi a0) := fun h => nomatch h
theorem Laws.EventsNameNoRegister.movhi (a0 : SI) : Laws.EventsNameNoRegister.Statement (.movhi a0) := fun h => nomatch h
theorem Laws.EventsNameNoRegister.clz (a0 : SR) : Laws.EventsNameNoRegister.Statement (.clz a0) := fun h => nomatch h
theorem Laws.EventsNameNoRegister.popc (a0 : SR) : Laws.EventsNameNoRegister.Statement (.popc a0) := fun h => nomatch h
theorem Laws.EventsNameNoRegister.bfx (a0 : SR) : Laws.EventsNameNoRegister.Statement (.bfx a0) := fun h => nomatch h
theorem Laws.EventsNameNoRegister.bfi (a0 : SR) : Laws.EventsNameNoRegister.Statement (.bfi a0) := fun h => nomatch h
theorem Laws.EventsNameNoRegister.addsh (a0 : SR) : Laws.EventsNameNoRegister.Statement (.addsh a0) := fun h => nomatch h
theorem Laws.EventsNameNoRegister.plog (a0 : SR) : Laws.EventsNameNoRegister.Statement (.plog a0) := fun h => nomatch h
theorem Laws.EventsNameNoRegister.qpop (a0 : SR) : Laws.EventsNameNoRegister.Statement (.qpop a0) := fun h => nomatch h
theorem Laws.EventsNameNoRegister.qpeek (a0 : SR) : Laws.EventsNameNoRegister.Statement (.qpeek a0) := fun h => nomatch h
theorem Laws.EventsNameNoRegister.qcnt (a0 : SR) : Laws.EventsNameNoRegister.Statement (.qcnt a0) := fun h => nomatch h
theorem Laws.EventsNameNoRegister.movs (a0 : SR) : Laws.EventsNameNoRegister.Statement (.movs a0) := fun h => nomatch h
theorem Laws.EventsNameNoRegister.movsw (a0 : SR) : Laws.EventsNameNoRegister.Statement (.movsw a0) := fun h => nomatch h
theorem Laws.EventsNameNoRegister.eget (a0 : SR) : Laws.EventsNameNoRegister.Statement (.eget a0) := fun h => nomatch h
theorem Laws.EventsNameNoRegister.eset (a0 : SR) : Laws.EventsNameNoRegister.Statement (.eset a0) := fun h => nomatch h
theorem Laws.EventsNameNoRegister.br (a0 : SB) : Laws.EventsNameNoRegister.Statement (.br a0) := fun h => nomatch h
theorem Laws.EventsNameNoRegister.jmp (a0 : SB) : Laws.EventsNameNoRegister.Statement (.jmp a0) := fun h => nomatch h
theorem Laws.EventsNameNoRegister.jr (a0 : SR) : Laws.EventsNameNoRegister.Statement (.jr a0) := fun h => nomatch h
theorem Laws.EventsNameNoRegister.call (a0 : SB) : Laws.EventsNameNoRegister.Statement (.call a0) := fun h => nomatch h
theorem Laws.EventsNameNoRegister.callr (a0 : SR) : Laws.EventsNameNoRegister.Statement (.callr a0) := fun h => nomatch h
theorem Laws.EventsNameNoRegister.ret (a0 : SR) : Laws.EventsNameNoRegister.Statement (.ret a0) := fun h => nomatch h
theorem Laws.EventsNameNoRegister.loop (a0 : SR) : Laws.EventsNameNoRegister.Statement (.loop a0) := fun h => nomatch h
theorem Laws.EventsNameNoRegister.loopi (a0 : SI) : Laws.EventsNameNoRegister.Statement (.loopi a0) := fun h => nomatch h
theorem Laws.EventsNameNoRegister.lbrk (a0 : SB) : Laws.EventsNameNoRegister.Statement (.lbrk a0) := fun h => nomatch h
theorem Laws.EventsNameNoRegister.ifD (a0 : SB) : Laws.EventsNameNoRegister.Statement (.ifD a0) := fun h => nomatch h
theorem Laws.EventsNameNoRegister.split (a0 : SB) : Laws.EventsNameNoRegister.Statement (.split a0) := fun h => nomatch h
theorem Laws.EventsNameNoRegister.elseD (a0 : SB) : Laws.EventsNameNoRegister.Statement (.elseD a0) := fun h => nomatch h
theorem Laws.EventsNameNoRegister.join (a0 : SR) : Laws.EventsNameNoRegister.Statement (.join a0) := fun h => nomatch h
theorem Laws.EventsNameNoRegister.exit (a0 : SR) : Laws.EventsNameNoRegister.Statement (.exit a0) := fun h => nomatch h
theorem Laws.EventsNameNoRegister.halt (a0 : SR) : Laws.EventsNameNoRegister.Statement (.halt a0) := fun h => nomatch h
theorem Laws.EventsNameNoRegister.wait (a0 : SR) : Laws.EventsNameNoRegister.Statement (.wait a0) := fun h => nomatch h
theorem Laws.EventsNameNoRegister.idle (a0 : SR) : Laws.EventsNameNoRegister.Statement (.idle a0) := fun h => nomatch h
theorem Laws.EventsNameNoRegister.fchk (a0 : SR) : Laws.EventsNameNoRegister.Statement (.fchk a0) := fun h => nomatch h
theorem Laws.EventsNameNoRegister.segld (a0 : SI) : Laws.EventsNameNoRegister.Statement (.segld a0) := fun h => nomatch h
theorem Laws.EventsNameNoRegister.ld (a0 : SM) : Laws.EventsNameNoRegister.Statement (.ld a0) := fun h => nomatch h
theorem Laws.EventsNameNoRegister.st (a0 : SM) : Laws.EventsNameNoRegister.Statement (.st a0) := fun h => nomatch h
theorem Laws.EventsNameNoRegister.ldx (a0 : SM) : Laws.EventsNameNoRegister.Statement (.ldx a0) := fun h => nomatch h
theorem Laws.EventsNameNoRegister.stx (a0 : SM) : Laws.EventsNameNoRegister.Statement (.stx a0) := fun h => nomatch h
theorem Laws.EventsNameNoRegister.amo (a0 : SM) : Laws.EventsNameNoRegister.Statement (.amo a0) := fun h => nomatch h
theorem Laws.EventsNameNoRegister.swap (a0 : SM) : Laws.EventsNameNoRegister.Statement (.swap a0) := fun h => nomatch h
theorem Laws.EventsNameNoRegister.cas (a0 : SM) : Laws.EventsNameNoRegister.Statement (.cas a0) := fun h => nomatch h
theorem Laws.EventsNameNoRegister.incb (a0 : SM) : Laws.EventsNameNoRegister.Statement (.incb a0) := fun h => nomatch h
theorem Laws.EventsNameNoRegister.fence (a0 : SR) : Laws.EventsNameNoRegister.Statement (.fence a0) := fun h => nomatch h
theorem Laws.EventsNameNoRegister.pref (a0 : SM) : Laws.EventsNameNoRegister.Statement (.pref a0) := fun h => nomatch h
theorem Laws.EventsNameNoRegister.barInit (a0 : SR) : Laws.EventsNameNoRegister.Statement (.barInit a0) := fun h => nomatch h
theorem Laws.EventsNameNoRegister.barArrive (a0 : SR) : Laws.EventsNameNoRegister.Statement (.barArrive a0) := fun h => nomatch h
theorem Laws.EventsNameNoRegister.barWait (a0 : SR) : Laws.EventsNameNoRegister.Statement (.barWait a0) := fun h => nomatch h
theorem Laws.EventsNameNoRegister.barSync (a0 : SR) : Laws.EventsNameNoRegister.Statement (.barSync a0) := fun h => nomatch h
theorem Laws.EventsNameNoRegister.barExpect (a0 : SR) : Laws.EventsNameNoRegister.Statement (.barExpect a0) := fun h => nomatch h
theorem Laws.EventsNameNoRegister.barTest (a0 : SR) : Laws.EventsNameNoRegister.Statement (.barTest a0) := fun h => nomatch h
theorem Laws.EventsNameNoRegister.sstep (a0 : SR) : Laws.EventsNameNoRegister.Statement (.sstep a0) := fun h => nomatch h
theorem Laws.EventsNameNoRegister.gballot (a0 : SR) : Laws.EventsNameNoRegister.Statement (.gballot a0) := fun h => nomatch h
theorem Laws.EventsNameNoRegister.gscan (a0 : SR) : Laws.EventsNameNoRegister.Statement (.gscan a0) := fun h => nomatch h
theorem Laws.EventsNameNoRegister.greds (a0 : SR) : Laws.EventsNameNoRegister.Statement (.greds a0) := fun h => nomatch h
theorem Laws.EventsNameNoRegister.qpush (a0 : SR) : Laws.EventsNameNoRegister.Statement (.qpush a0) := fun h => nomatch h
theorem Laws.EventsNameNoRegister.qres (a0 : SR) : Laws.EventsNameNoRegister.Statement (.qres a0) := fun h => nomatch h
theorem Laws.EventsNameNoRegister.sig (a0 : SR) : Laws.EventsNameNoRegister.Statement (.sig a0) := fun h => nomatch h
theorem Laws.EventsNameNoRegister.sigw (a0 : SR) : Laws.EventsNameNoRegister.Statement (.sigw a0) := fun h => nomatch h
theorem Laws.EventsNameNoRegister.next (a0 : SR) : Laws.EventsNameNoRegister.Statement (.next a0) := fun h => nomatch h
theorem Laws.EventsNameNoRegister.time (a0 : SR) : Laws.EventsNameNoRegister.Statement (.time a0) := fun h => nomatch h
theorem Laws.EventsNameNoRegister.slack (a0 : SR) : Laws.EventsNameNoRegister.Statement (.slack a0) := fun h => nomatch h
theorem Laws.EventsNameNoRegister.prog (a0 : SR) : Laws.EventsNameNoRegister.Statement (.prog a0) := fun h => nomatch h
theorem Laws.EventsNameNoRegister.vset (a0 : SR) : Laws.EventsNameNoRegister.Statement (.vset a0) := fun h => nomatch h
theorem Laws.EventsNameNoRegister.ecommit (a0 : SR) : Laws.EventsNameNoRegister.Statement (.ecommit a0) := fun h => nomatch h
theorem Laws.EventsNameNoRegister.endg (a0 : SR) : Laws.EventsNameNoRegister.Statement (.endg a0) := fun h => nomatch h
theorem Laws.EventsNameNoRegister.rfam (a0 : SR) : Laws.EventsNameNoRegister.Statement (.rfam a0) := fun h => nomatch h
theorem Laws.EventsNameNoRegister.rstat (a0 : SR) : Laws.EventsNameNoRegister.Statement (.rstat a0) := fun h => nomatch h
theorem Laws.EventsNameNoRegister.rcur (a0 : SR) : Laws.EventsNameNoRegister.Statement (.rcur a0) := fun h => nomatch h
theorem Laws.EventsNameNoRegister.trap (a0 : SI) : Laws.EventsNameNoRegister.Statement (.trap a0) := fun h => nomatch h
theorem Laws.EventsNameNoRegister.tret (a0 : SR) : Laws.EventsNameNoRegister.Statement (.tret a0) := fun h => nomatch h
theorem Laws.EventsNameNoRegister.sysr (a0 : SR) : Laws.EventsNameNoRegister.Statement (.sysr a0) := fun h => nomatch h
theorem Laws.EventsNameNoRegister.sysw (a0 : SR) : Laws.EventsNameNoRegister.Statement (.sysw a0) := fun h => nomatch h
theorem Laws.EventsNameNoRegister.tlbinv (a0 : SR) : Laws.EventsNameNoRegister.Statement (.tlbinv a0) := fun h => nomatch h
theorem Laws.EventsNameNoRegister.pgshare (a0 : SR) : Laws.EventsNameNoRegister.Statement (.pgshare a0) := fun h => nomatch h
theorem Laws.EventsNameNoRegister.pgunmap (a0 : SR) : Laws.EventsNameNoRegister.Statement (.pgunmap a0) := fun h => nomatch h
theorem Laws.EventsNameNoRegister.pgcow (a0 : SR) : Laws.EventsNameNoRegister.Statement (.pgcow a0) := fun h => nomatch h
theorem Laws.EventsNameNoRegister.cont (a0 : SR) : Laws.EventsNameNoRegister.Statement (.cont a0) := fun h => nomatch h
theorem Laws.EventsNameNoRegister.cresume (a0 : SR) : Laws.EventsNameNoRegister.Statement (.cresume a0) := fun h => nomatch h
theorem Laws.EventsNameNoRegister.parkrd (a0 : SR) : Laws.EventsNameNoRegister.Statement (.parkrd a0) := fun h => nomatch h
theorem Laws.EventsNameNoRegister.unpark (a0 : SR) : Laws.EventsNameNoRegister.Statement (.unpark a0) := fun h => nomatch h
theorem Laws.EventsNameNoRegister.suspend (a0 : SR) : Laws.EventsNameNoRegister.Statement (.suspend a0) := fun h => nomatch h
theorem Laws.EventsNameNoRegister.tadd (a0 : VT) : Laws.EventsNameNoRegister.Statement (.tadd a0) := fun h => nomatch h
theorem Laws.EventsNameNoRegister.tsub (a0 : VT) : Laws.EventsNameNoRegister.Statement (.tsub a0) := fun h => nomatch h
theorem Laws.EventsNameNoRegister.tmul (a0 : VT) : Laws.EventsNameNoRegister.Statement (.tmul a0) := fun h => nomatch h
theorem Laws.EventsNameNoRegister.tfma (a0 : VT) : Laws.EventsNameNoRegister.Statement (.tfma a0) := fun h => nomatch h
theorem Laws.EventsNameNoRegister.tfms (a0 : VT) : Laws.EventsNameNoRegister.Statement (.tfms a0) := fun h => nomatch h
theorem Laws.EventsNameNoRegister.tmin (a0 : VT) : Laws.EventsNameNoRegister.Statement (.tmin a0) := fun h => nomatch h
theorem Laws.EventsNameNoRegister.tmax (a0 : VT) : Laws.EventsNameNoRegister.Statement (.tmax a0) := fun h => nomatch h
theorem Laws.EventsNameNoRegister.tabs (a0 : VT) : Laws.EventsNameNoRegister.Statement (.tabs a0) := fun h => nomatch h
theorem Laws.EventsNameNoRegister.tneg (a0 : VT) : Laws.EventsNameNoRegister.Statement (.tneg a0) := fun h => nomatch h
theorem Laws.EventsNameNoRegister.tscl (a0 : VS) : Laws.EventsNameNoRegister.Statement (.tscl a0) := fun h => nomatch h
theorem Laws.EventsNameNoRegister.tadds (a0 : VS) : Laws.EventsNameNoRegister.Statement (.tadds a0) := fun h => nomatch h
theorem Laws.EventsNameNoRegister.texp2 (a0 : VT) : Laws.EventsNameNoRegister.Statement (.texp2 a0) := fun h => nomatch h
theorem Laws.EventsNameNoRegister.tlog2 (a0 : VT) : Laws.EventsNameNoRegister.Statement (.tlog2 a0) := fun h => nomatch h
theorem Laws.EventsNameNoRegister.trcp (a0 : VT) : Laws.EventsNameNoRegister.Statement (.trcp a0) := fun h => nomatch h
theorem Laws.EventsNameNoRegister.trsq (a0 : VT) : Laws.EventsNameNoRegister.Statement (.trsq a0) := fun h => nomatch h
theorem Laws.EventsNameNoRegister.tsqrt (a0 : VT) : Laws.EventsNameNoRegister.Statement (.tsqrt a0) := fun h => nomatch h
theorem Laws.EventsNameNoRegister.ttanh (a0 : VT) : Laws.EventsNameNoRegister.Statement (.ttanh a0) := fun h => nomatch h
theorem Laws.EventsNameNoRegister.tsigm (a0 : VT) : Laws.EventsNameNoRegister.Statement (.tsigm a0) := fun h => nomatch h
theorem Laws.EventsNameNoRegister.tcmp (a0 : VT) : Laws.EventsNameNoRegister.Statement (.tcmp a0) := fun h => nomatch h
theorem Laws.EventsNameNoRegister.tsel (a0 : VT) : Laws.EventsNameNoRegister.Statement (.tsel a0) := fun h => nomatch h
theorem Laws.EventsNameNoRegister.tclamp (a0 : VT) : Laws.EventsNameNoRegister.Statement (.tclamp a0) := fun h => nomatch h
theorem Laws.EventsNameNoRegister.tiadd (a0 : VT) : Laws.EventsNameNoRegister.Statement (.tiadd a0) := fun h => nomatch h
theorem Laws.EventsNameNoRegister.tisub (a0 : VT) : Laws.EventsNameNoRegister.Statement (.tisub a0) := fun h => nomatch h
theorem Laws.EventsNameNoRegister.timul (a0 : VT) : Laws.EventsNameNoRegister.Statement (.timul a0) := fun h => nomatch h
theorem Laws.EventsNameNoRegister.tand (a0 : VT) : Laws.EventsNameNoRegister.Statement (.tand a0) := fun h => nomatch h
theorem Laws.EventsNameNoRegister.tor (a0 : VT) : Laws.EventsNameNoRegister.Statement (.tor a0) := fun h => nomatch h
theorem Laws.EventsNameNoRegister.txor (a0 : VT) : Laws.EventsNameNoRegister.Statement (.txor a0) := fun h => nomatch h
theorem Laws.EventsNameNoRegister.tshl (a0 : VT) : Laws.EventsNameNoRegister.Statement (.tshl a0) := fun h => nomatch h
theorem Laws.EventsNameNoRegister.tshr (a0 : VT) : Laws.EventsNameNoRegister.Statement (.tshr a0) := fun h => nomatch h
theorem Laws.EventsNameNoRegister.tsar (a0 : VT) : Laws.EventsNameNoRegister.Statement (.tsar a0) := fun h => nomatch h
theorem Laws.EventsNameNoRegister.timin (a0 : VT) : Laws.EventsNameNoRegister.Statement (.timin a0) := fun h => nomatch h
theorem Laws.EventsNameNoRegister.timax (a0 : VT) : Laws.EventsNameNoRegister.Statement (.timax a0) := fun h => nomatch h
theorem Laws.EventsNameNoRegister.tcvt (a0 : VT) : Laws.EventsNameNoRegister.Statement (.tcvt a0) := fun h => nomatch h
theorem Laws.EventsNameNoRegister.tmov (a0 : VT) : Laws.EventsNameNoRegister.Statement (.tmov a0) := fun h => nomatch h
theorem Laws.EventsNameNoRegister.tzero (a0 : VT) : Laws.EventsNameNoRegister.Statement (.tzero a0) := fun h => nomatch h
theorem Laws.EventsNameNoRegister.tiota (a0 : VT) : Laws.EventsNameNoRegister.Statement (.tiota a0) := fun h => nomatch h
theorem Laws.EventsNameNoRegister.ttrn (a0 : VT) : Laws.EventsNameNoRegister.Statement (.ttrn a0) := fun h => nomatch h
theorem Laws.EventsNameNoRegister.shape (a0 : VS) : Laws.EventsNameNoRegister.Statement (.shape a0) := fun h => nomatch h
theorem Laws.EventsNameNoRegister.shget (a0 : VT) : Laws.EventsNameNoRegister.Statement (.shget a0) := fun h => nomatch h
theorem Laws.EventsNameNoRegister.rrot (a0 : VS) : Laws.EventsNameNoRegister.Statement (.rrot a0) := fun h => nomatch h
theorem Laws.EventsNameNoRegister.rbc (a0 : VT) : Laws.EventsNameNoRegister.Statement (.rbc a0) := fun h => nomatch h
theorem Laws.EventsNameNoRegister.rred (a0 : VT) : Laws.EventsNameNoRegister.Statement (.rred a0) := fun h => nomatch h
theorem Laws.EventsNameNoRegister.crot (a0 : VS) : Laws.EventsNameNoRegister.Statement (.crot a0) := fun h => nomatch h
theorem Laws.EventsNameNoRegister.cbc (a0 : VT) : Laws.EventsNameNoRegister.Statement (.cbc a0) := fun h => nomatch h
theorem Laws.EventsNameNoRegister.cred (a0 : VT) : Laws.EventsNameNoRegister.Statement (.cred a0) := fun h => nomatch h
theorem Laws.EventsNameNoRegister.kcmp (a0 : VT) : Laws.EventsNameNoRegister.Statement (.kcmp a0) := fun h => nomatch h
theorem Laws.EventsNameNoRegister.kop (a0 : VT) : Laws.EventsNameNoRegister.Statement (.kop a0) := fun h => nomatch h
theorem Laws.EventsNameNoRegister.kset (a0 : VS) : Laws.EventsNameNoRegister.Statement (.kset a0) := fun h => nomatch h
theorem Laws.EventsNameNoRegister.kcnt (a0 : VT) : Laws.EventsNameNoRegister.Statement (.kcnt a0) := fun h => nomatch h
theorem Laws.EventsNameNoRegister.eadd (a0 : VT) : Laws.EventsNameNoRegister.Statement (.eadd a0) := fun h => nomatch h
theorem Laws.EventsNameNoRegister.esub (a0 : VT) : Laws.EventsNameNoRegister.Statement (.esub a0) := fun h => nomatch h
theorem Laws.EventsNameNoRegister.emul (a0 : VT) : Laws.EventsNameNoRegister.Statement (.emul a0) := fun h => nomatch h
theorem Laws.EventsNameNoRegister.eand (a0 : VT) : Laws.EventsNameNoRegister.Statement (.eand a0) := fun h => nomatch h
theorem Laws.EventsNameNoRegister.eor (a0 : VT) : Laws.EventsNameNoRegister.Statement (.eor a0) := fun h => nomatch h
theorem Laws.EventsNameNoRegister.eshl (a0 : VT) : Laws.EventsNameNoRegister.Statement (.eshl a0) := fun h => nomatch h
theorem Laws.EventsNameNoRegister.eshr (a0 : VT) : Laws.EventsNameNoRegister.Statement (.eshr a0) := fun h => nomatch h
theorem Laws.EventsNameNoRegister.emin (a0 : VT) : Laws.EventsNameNoRegister.Statement (.emin a0) := fun h => nomatch h
theorem Laws.EventsNameNoRegister.emax (a0 : VT) : Laws.EventsNameNoRegister.Statement (.emax a0) := fun h => nomatch h
theorem Laws.EventsNameNoRegister.ecmp (a0 : VT) : Laws.EventsNameNoRegister.Statement (.ecmp a0) := fun h => nomatch h
theorem Laws.EventsNameNoRegister.esel (a0 : VT) : Laws.EventsNameNoRegister.Statement (.esel a0) := fun h => nomatch h
theorem Laws.EventsNameNoRegister.eid (a0 : VT) : Laws.EventsNameNoRegister.Statement (.eid a0) := fun h => nomatch h
theorem Laws.EventsNameNoRegister.emovt (a0 : VT) : Laws.EventsNameNoRegister.Statement (.emovt a0) := fun h => nomatch h
theorem Laws.EventsNameNoRegister.etmov (a0 : VT) : Laws.EventsNameNoRegister.Statement (.etmov a0) := fun h => nomatch h
theorem Laws.EventsNameNoRegister.gshuf (a0 : VT) : Laws.EventsNameNoRegister.Statement (.gshuf a0) := fun h => nomatch h
theorem Laws.EventsNameNoRegister.gbc (a0 : VS) : Laws.EventsNameNoRegister.Statement (.gbc a0) := fun h => nomatch h
theorem Laws.EventsNameNoRegister.grot (a0 : VS) : Laws.EventsNameNoRegister.Statement (.grot a0) := fun h => nomatch h
theorem Laws.EventsNameNoRegister.gred (a0 : VT) : Laws.EventsNameNoRegister.Statement (.gred a0) := fun h => nomatch h
theorem Laws.EventsNameNoRegister.gcomp (a0 : VT) : Laws.EventsNameNoRegister.Statement (.gcomp a0) := fun h => nomatch h
theorem Laws.EventsNameNoRegister.tld (a0 : VS) : Laws.EventsNameNoRegister.Statement (.tld a0) := fun h => nomatch h
theorem Laws.EventsNameNoRegister.tst (a0 : VS) : Laws.EventsNameNoRegister.Statement (.tst a0) := fun h => nomatch h
theorem Laws.EventsNameNoRegister.tldk (a0 : VS) : Laws.EventsNameNoRegister.Statement (.tldk a0) := fun h => nomatch h
theorem Laws.EventsNameNoRegister.lde (a0 : VS) : Laws.EventsNameNoRegister.Statement (.lde a0) := fun h => nomatch h
theorem Laws.EventsNameNoRegister.ste (a0 : VS) : Laws.EventsNameNoRegister.Statement (.ste a0) := fun h => nomatch h
theorem Laws.EventsNameNoRegister.mma (a0 : MF) : Laws.EventsNameNoRegister.Statement (.mma a0) := fun h => nomatch h
theorem Laws.EventsNameNoRegister.mmaz (a0 : MF) : Laws.EventsNameNoRegister.Statement (.mmaz a0) := fun h => nomatch h
theorem Laws.EventsNameNoRegister.mmat (a0 : MF) : Laws.EventsNameNoRegister.Statement (.mmat a0) := fun h => nomatch h
theorem Laws.EventsNameNoRegister.mmas (a0 : MF) : Laws.EventsNameNoRegister.Statement (.mmas a0) := fun h => nomatch h
theorem Laws.EventsNameNoRegister.prune (a0 : MF) : Laws.EventsNameNoRegister.Statement (.prune a0) := fun h => nomatch h
theorem Laws.EventsNameNoRegister.sqd (a0 : MF) : Laws.EventsNameNoRegister.Statement (.sqd a0) := fun h => nomatch h
theorem Laws.EventsNameNoRegister.topk (a0 : MF) : Laws.EventsNameNoRegister.Statement (.topk a0) := fun h => nomatch h
theorem Laws.EventsNameNoRegister.accrd (a0 : MF) : Laws.EventsNameNoRegister.Statement (.accrd a0) := fun h => nomatch h
theorem Laws.EventsNameNoRegister.accwr (a0 : MF) : Laws.EventsNameNoRegister.Statement (.accwr a0) := fun h => nomatch h
theorem Laws.EventsNameNoRegister.accz (a0 : MF) : Laws.EventsNameNoRegister.Statement (.accz a0) := fun h => nomatch h
theorem Laws.EventsNameNoRegister.accscScale (a0 : MF) : Laws.EventsNameNoRegister.Statement (.accscScale a0) := fun h => nomatch h
theorem Laws.EventsNameNoRegister.accscLoad (a0 : MF) : Laws.EventsNameNoRegister.Statement (.accscLoad a0) := fun h => nomatch h
theorem Laws.EventsNameNoRegister.accscStore (a0 : MF) : Laws.EventsNameNoRegister.Statement (.accscStore a0) := fun h => nomatch h
theorem Laws.EventsNameNoRegister.hsign (a0 : MF) : Laws.EventsNameNoRegister.Statement (.hsign a0) := fun h => nomatch h
theorem Laws.EventsNameNoRegister.hidx (a0 : MF) : Laws.EventsNameNoRegister.Statement (.hidx a0) := fun h => nomatch h
theorem Laws.EventsNameNoRegister.copy (a0 : XF) : Laws.EventsNameNoRegister.Statement (.copy a0) := fun h => nomatch h
theorem Laws.EventsNameNoRegister.gather (a0 : XF) : Laws.EventsNameNoRegister.Statement (.gather a0) := fun h => nomatch h
theorem Laws.EventsNameNoRegister.scatter (a0 : XF) : Laws.EventsNameNoRegister.Statement (.scatter a0) := fun h => nomatch h
theorem Laws.EventsNameNoRegister.put (a0 : XF) : Laws.EventsNameNoRegister.Statement (.put a0) := fun h => nomatch h
theorem Laws.EventsNameNoRegister.get (a0 : XF) : Laws.EventsNameNoRegister.Statement (.get a0) := fun h => nomatch h
theorem Laws.EventsNameNoRegister.rgath (a0 : XF) : Laws.EventsNameNoRegister.Statement (.rgath a0) := fun h => nomatch h
theorem Laws.EventsNameNoRegister.fill (a0 : XF) : Laws.EventsNameNoRegister.Statement (.fill a0) := fun h => nomatch h
theorem Laws.EventsNameNoRegister.seal (a0 : XF) : Laws.EventsNameNoRegister.Statement (.seal a0) := fun h => nomatch h
theorem Laws.EventsNameNoRegister.bwait (a0 : XF) : Laws.EventsNameNoRegister.Statement (.bwait a0) := fun h => nomatch h
theorem Laws.EventsNameNoRegister.preft (a0 : XF) : Laws.EventsNameNoRegister.Statement (.preft a0) := fun h => nomatch h
theorem Laws.EventsNameNoRegister.pin (a0 : XF) : Laws.EventsNameNoRegister.Statement (.pin a0) := fun h => nomatch h
theorem Laws.EventsNameNoRegister.unpin (a0 : XF) : Laws.EventsNameNoRegister.Statement (.unpin a0) := fun h => nomatch h
theorem Laws.EventsNameNoRegister.gld (a0 : XF) : Laws.EventsNameNoRegister.Statement (.gld a0) := fun h => nomatch h
theorem Laws.EventsNameNoRegister.gst (a0 : XF) : Laws.EventsNameNoRegister.Statement (.gst a0) := fun h => nomatch h
theorem Laws.EventsNameNoRegister.glde (a0 : XF) : Laws.EventsNameNoRegister.Statement (.glde a0) := fun h => nomatch h
theorem Laws.EventsNameNoRegister.gste (a0 : XF) : Laws.EventsNameNoRegister.Statement (.gste a0) := fun h => nomatch h
theorem Laws.EventsNameNoRegister.gamo (a0 : XF) : Laws.EventsNameNoRegister.Statement (.gamo a0) := fun h => nomatch h
theorem Laws.EventsNameNoRegister.rprobe (a0 : XF) : Laws.EventsNameNoRegister.Statement (.rprobe a0) := fun h => nomatch h
theorem Laws.EventsNameNoRegister.rins (a0 : XF) : Laws.EventsNameNoRegister.Statement (.rins a0) := fun h => nomatch h
theorem Laws.EventsNameNoRegister.rdel (a0 : XF) : Laws.EventsNameNoRegister.Statement (.rdel a0) := fun h => nomatch h
theorem Laws.EventsNameNoRegister.rmig (a0 : XF) : Laws.EventsNameNoRegister.Statement (.rmig a0) := fun h => nomatch h
theorem Laws.EventsNameNoRegister.rret (a0 : XF) : Laws.EventsNameNoRegister.Statement (.rret a0) := fun h => nomatch h
theorem Laws.EventsNameNoRegister.emptyBundle : Laws.EventsNameNoRegister.Statement (.emptyBundle) := fun _ => ⟨rfl, rfl, rfl, rfl⟩
theorem Laws.EventsNameNoRegister.waitCountExpiry (a0 a1 : Nat) : Laws.EventsNameNoRegister.Statement (.waitCountExpiry a0 a1) := fun _ => ⟨rfl, rfl, rfl, rfl⟩
theorem Laws.EventsNameNoRegister.deferredTrap (a0 : Nat) : Laws.EventsNameNoRegister.Statement (.deferredTrap a0) := fun _ => ⟨rfl, rfl, rfl, rfl⟩
theorem Laws.EventsNameNoRegister.fetchFault (a0 a1 : Nat) : Laws.EventsNameNoRegister.Statement (.fetchFault a0 a1) := fun _ => ⟨rfl, rfl, rfl, rfl⟩
theorem Laws.EventsNameNoRegister.reservedEncoding (a0 a1 : Nat) : Laws.EventsNameNoRegister.Statement (.reservedEncoding a0 a1) := fun _ => ⟨rfl, rfl, rfl, rfl⟩
theorem Laws.EventsNameNoRegister.fragmentEnd (a0 : Nat) : Laws.EventsNameNoRegister.Statement (.fragmentEnd a0) := fun _ => ⟨rfl, rfl, rfl, rfl⟩
theorem Laws.EventsNameNoRegister.segmentFetchComplete (a0 a1 a2 a3 : Nat) : Laws.EventsNameNoRegister.Statement (.segmentFetchComplete a0 a1 a2 a3) := fun _ => ⟨rfl, rfl, rfl, rfl⟩
theorem Laws.EventsNameNoRegister.seqAccessComplete (a0 a1 : Nat) (a2 : AccHow) : Laws.EventsNameNoRegister.Statement (.seqAccessComplete a0 a1 a2) := fun _ => ⟨rfl, rfl, rfl, rfl⟩
theorem Laws.EventsNameNoRegister.loadConfirm (a0 a1 : Nat) : Laws.EventsNameNoRegister.Statement (.loadConfirm a0 a1) := fun _ => ⟨rfl, rfl, rfl, rfl⟩
theorem Laws.EventsNameNoRegister.ptsAdvance (a0 a1 : Nat) : Laws.EventsNameNoRegister.Statement (.ptsAdvance a0 a1) := fun _ => ⟨rfl, rfl, rfl, rfl⟩
theorem Laws.EventsNameNoRegister.tlbWalkComplete (a0 a1 a2 a3 : Nat) : Laws.EventsNameNoRegister.Statement (.tlbWalkComplete a0 a1 a2 a3) := fun _ => ⟨rfl, rfl, rfl, rfl⟩
theorem Laws.EventsNameNoRegister.dispenserRefill (a0 a1 : Nat) : Laws.EventsNameNoRegister.Statement (.dispenserRefill a0 a1) := fun _ => ⟨rfl, rfl, rfl, rfl⟩
theorem Laws.EventsNameNoRegister.watchdogExpiry (a0 : Nat) : Laws.EventsNameNoRegister.Statement (.watchdogExpiry a0) := fun _ => ⟨rfl, rfl, rfl, rfl⟩
theorem Laws.EventsNameNoRegister.copyPartStart (a0 a1 : Nat) : Laws.EventsNameNoRegister.Statement (.copyPartStart a0 a1) := fun _ => ⟨rfl, rfl, rfl, rfl⟩
theorem Laws.EventsNameNoRegister.copyPartComplete (a0 a1 : Nat) : Laws.EventsNameNoRegister.Statement (.copyPartComplete a0 a1) := fun _ => ⟨rfl, rfl, rfl, rfl⟩
theorem Laws.EventsNameNoRegister.copyCredit (a0 a1 : Nat) (a2 a3 : List Nat) : Laws.EventsNameNoRegister.Statement (.copyCredit a0 a1 a2 a3) := fun _ => ⟨rfl, rfl, rfl, rfl⟩
theorem Laws.EventsNameNoRegister.peerAck (a0 a1 : Nat) (a2 : Bool) (a3 : List (BitVec 8)) : Laws.EventsNameNoRegister.Statement (.peerAck a0 a1 a2 a3) := fun _ => ⟨rfl, rfl, rfl, rfl⟩
theorem Laws.EventsNameNoRegister.engineAccessComplete (a0 a1 a2 a3 : Nat) : Laws.EventsNameNoRegister.Statement (.engineAccessComplete a0 a1 a2 a3) := fun _ => ⟨rfl, rfl, rfl, rfl⟩
theorem Laws.EventsNameNoRegister.retrievalPartComplete (a0 a1 : Nat) : Laws.EventsNameNoRegister.Statement (.retrievalPartComplete a0 a1) := fun _ => ⟨rfl, rfl, rfl, rfl⟩
theorem Laws.EventsNameNoRegister.resultLanding (a0 : Nat) : Laws.EventsNameNoRegister.Statement (.resultLanding a0) := fun _ => ⟨rfl, rfl, rfl, rfl⟩
theorem Laws.EventsNameNoRegister.queuePoll (a0 a1 : Nat) : Laws.EventsNameNoRegister.Statement (.queuePoll a0 a1) := fun _ => ⟨rfl, rfl, rfl, rfl⟩
theorem Laws.EventsNameNoRegister.launchPacket (a0 : Nat) (a1 : Nat) : Laws.EventsNameNoRegister.Statement (.launchPacket a0 a1) := fun _ => ⟨rfl, rfl, rfl, rfl⟩
theorem Laws.EventsNameNoRegister.launchAdmit (a0 : Nat) : Laws.EventsNameNoRegister.Statement (.launchAdmit a0) := fun _ => ⟨rfl, rfl, rfl, rfl⟩
theorem Laws.EventsNameNoRegister.adaptationLoadComplete (a0 : Nat) : Laws.EventsNameNoRegister.Statement (.adaptationLoadComplete a0) := fun _ => ⟨rfl, rfl, rfl, rfl⟩
theorem Laws.EventsNameNoRegister.waitsigPacket (a0 a1 : Nat) : Laws.EventsNameNoRegister.Statement (.waitsigPacket a0 a1) := fun _ => ⟨rfl, rfl, rfl, rfl⟩
theorem Laws.EventsNameNoRegister.waitsigComplete (a0 a1 : Nat) : Laws.EventsNameNoRegister.Statement (.waitsigComplete a0 a1) := fun _ => ⟨rfl, rfl, rfl, rfl⟩
theorem Laws.EventsNameNoRegister.abortedPacket (a0 a1 : Nat) : Laws.EventsNameNoRegister.Statement (.abortedPacket a0 a1) := fun _ => ⟨rfl, rfl, rfl, rfl⟩
theorem Laws.EventsNameNoRegister.condPacket (a0 a1 : Nat) : Laws.EventsNameNoRegister.Statement (.condPacket a0 a1) := fun _ => ⟨rfl, rfl, rfl, rfl⟩
theorem Laws.EventsNameNoRegister.signalPacket (a0 a1 : Nat) : Laws.EventsNameNoRegister.Statement (.signalPacket a0 a1) := fun _ => ⟨rfl, rfl, rfl, rfl⟩
theorem Laws.EventsNameNoRegister.copyPacket (a0 a1 : Nat) : Laws.EventsNameNoRegister.Statement (.copyPacket a0 a1) := fun _ => ⟨rfl, rfl, rfl, rfl⟩
theorem Laws.EventsNameNoRegister.nopPacket (a0 a1 : Nat) : Laws.EventsNameNoRegister.Statement (.nopPacket a0 a1) := fun _ => ⟨rfl, rfl, rfl, rfl⟩
theorem Laws.EventsNameNoRegister.prefetchPacket (a0 a1 : Nat) : Laws.EventsNameNoRegister.Statement (.prefetchPacket a0 a1) := fun _ => ⟨rfl, rfl, rfl, rfl⟩
theorem Laws.EventsNameNoRegister.packetComplete (a0 a1 a2 : Nat) : Laws.EventsNameNoRegister.Statement (.packetComplete a0 a1 a2) := fun _ => ⟨rfl, rfl, rfl, rfl⟩
theorem Laws.EventsNameNoRegister.instancePlace (a0 : Nat) : Laws.EventsNameNoRegister.Statement (.instancePlace a0) := fun _ => ⟨rfl, rfl, rfl, rfl⟩
theorem Laws.EventsNameNoRegister.contextSave (a0 : Nat) : Laws.EventsNameNoRegister.Statement (.contextSave a0) := fun _ => ⟨rfl, rfl, rfl, rfl⟩
theorem Laws.EventsNameNoRegister.preemptFreeze (a0 : Nat) : Laws.EventsNameNoRegister.Statement (.preemptFreeze a0) := fun _ => ⟨rfl, rfl, rfl, rfl⟩
theorem Laws.EventsNameNoRegister.contextRestore (a0 a1 : Nat) : Laws.EventsNameNoRegister.Statement (.contextRestore a0 a1) := fun _ => ⟨rfl, rfl, rfl, rfl⟩
theorem Laws.EventsNameNoRegister.instanceEnd (a0 : Nat) : Laws.EventsNameNoRegister.Statement (.instanceEnd a0) := fun _ => ⟨rfl, rfl, rfl, rfl⟩
theorem Laws.EventsNameNoRegister.stealRequest (a0 : Nat) : Laws.EventsNameNoRegister.Statement (.stealRequest a0) := fun _ => ⟨rfl, rfl, rfl, rfl⟩
theorem Laws.EventsNameNoRegister.stealHandover (a0 : Nat) : Laws.EventsNameNoRegister.Statement (.stealHandover a0) := fun _ => ⟨rfl, rfl, rfl, rfl⟩
theorem Laws.EventsNameNoRegister.deadlineTrigger (a0 a1 : Nat) : Laws.EventsNameNoRegister.Statement (.deadlineTrigger a0 a1) := fun _ => ⟨rfl, rfl, rfl, rfl⟩
theorem Laws.EventsNameNoRegister.endgameEntry (a0 : Nat) : Laws.EventsNameNoRegister.Statement (.endgameEntry a0) := fun _ => ⟨rfl, rfl, rfl, rfl⟩
theorem Laws.EventsNameNoRegister.deadlineStop (a0 a1 : Nat) : Laws.EventsNameNoRegister.Statement (.deadlineStop a0 a1) := fun _ => ⟨rfl, rfl, rfl, rfl⟩
theorem Laws.EventsNameNoRegister.sync (a0 : PtpMsg) : Laws.EventsNameNoRegister.Statement (.sync a0) := fun _ => ⟨rfl, rfl, rfl, rfl⟩
theorem Laws.EventsNameNoRegister.followUp (a0 : PtpMsg) : Laws.EventsNameNoRegister.Statement (.followUp a0) := fun _ => ⟨rfl, rfl, rfl, rfl⟩
theorem Laws.EventsNameNoRegister.delayReq (a0 : Nat) : Laws.EventsNameNoRegister.Statement (.delayReq a0) := fun _ => ⟨rfl, rfl, rfl, rfl⟩
theorem Laws.EventsNameNoRegister.delayResp (a0 : PtpMsg) : Laws.EventsNameNoRegister.Statement (.delayResp a0) := fun _ => ⟨rfl, rfl, rfl, rfl⟩
theorem Laws.EventsNameNoRegister.announce (a0 : PtpMsg) (a1 : PtpDataset) : Laws.EventsNameNoRegister.Statement (.announce a0 a1) := fun _ => ⟨rfl, rfl, rfl, rfl⟩
theorem Laws.EventsNameNoRegister.ignoredPtpMessage (a0 : Nat) : Laws.EventsNameNoRegister.Statement (.ignoredPtpMessage a0) := fun _ => ⟨rfl, rfl, rfl, rfl⟩
theorem Laws.EventsNameNoRegister.announceReceiptTimeout (a0 : Nat) : Laws.EventsNameNoRegister.Statement (.announceReceiptTimeout a0) := fun _ => ⟨rfl, rfl, rfl, rfl⟩
theorem Laws.EventsNameNoRegister.tcfgWrite (a0 : Nat) (a1 : BitVec 64) : Laws.EventsNameNoRegister.Statement (.tcfgWrite a0 a1) := fun _ => ⟨rfl, rfl, rfl, rfl⟩
theorem Laws.EventsNameNoRegister.kill (a0 : Nat) (a1 : BitVec 64) : Laws.EventsNameNoRegister.Statement (.kill a0 a1) := fun _ => ⟨rfl, rfl, rfl, rfl⟩
theorem Laws.EventsNameNoRegister.notifyWrite (a0 a1 : Nat) (a2 : BitVec 64) : Laws.EventsNameNoRegister.Statement (.notifyWrite a0 a1 a2) := fun _ => ⟨rfl, rfl, rfl, rfl⟩
theorem Laws.EventsNameNoRegister.registerWrite (a0 a1 : Nat) (a2 : BitVec 64) : Laws.EventsNameNoRegister.Statement (.registerWrite a0 a1 a2) := fun _ => ⟨rfl, rfl, rfl, rfl⟩
theorem Laws.EventsNameNoRegister.physicalWindowWrite (a0 a1 : Nat) (a2 : BitVec 64) : Laws.EventsNameNoRegister.Statement (.physicalWindowWrite a0 a1 a2) := fun _ => ⟨rfl, rfl, rfl, rfl⟩
theorem Laws.EventsNameNoRegister.physicalWindowRead (a0 a1 : Nat) : Laws.EventsNameNoRegister.Statement (.physicalWindowRead a0 a1) := fun _ => ⟨rfl, rfl, rfl, rfl⟩
theorem Laws.EventsNameNoRegister.fabricInbound (a0 a1 : Nat) (a2 : Bool) (a3 : List (BitVec 8)) : Laws.EventsNameNoRegister.Statement (.fabricInbound a0 a1 a2 a3) := fun _ => ⟨rfl, rfl, rfl, rfl⟩
theorem Laws.EventsNameNoRegister.fabricLinkUp (a0 : Nat) : Laws.EventsNameNoRegister.Statement (.fabricLinkUp a0) := fun _ => ⟨rfl, rfl, rfl, rfl⟩
theorem Laws.EventsNameNoRegister.fabricPortDown (a0 : Nat) : Laws.EventsNameNoRegister.Statement (.fabricPortDown a0) := fun _ => ⟨rfl, rfl, rfl, rfl⟩
theorem Laws.EventsNameNoRegister.droopDetect (a0 : Nat) : Laws.EventsNameNoRegister.Statement (.droopDetect a0) := fun _ => ⟨rfl, rfl, rfl, rfl⟩
theorem Laws.EventsNameNoRegister.powerLimit (a0 : Bool) : Laws.EventsNameNoRegister.Statement (.powerLimit a0) := fun _ => ⟨rfl, rfl, rfl, rfl⟩
theorem Laws.EventsNameNoRegister.ageingSample (a0 a1 : Nat) (a2 : Nat) : Laws.EventsNameNoRegister.Statement (.ageingSample a0 a1 a2) := fun _ => ⟨rfl, rfl, rfl, rfl⟩
theorem Laws.EventsNameNoRegister.voltageReplan (a0 a1 : Nat) (a2 : Option Nat) : Laws.EventsNameNoRegister.Statement (.voltageReplan a0 a1 a2) := fun _ => ⟨rfl, rfl, rfl, rfl⟩
theorem Laws.EventsNameNoRegister.soft (a0 a1 a2 : Nat) : Laws.EventsNameNoRegister.Statement (.soft a0 a1 a2) := fun _ => ⟨rfl, rfl, rfl, rfl⟩
theorem Laws.EventsNameNoRegister.correctedError (a0 : Nat) (a1 : Bool) : Laws.EventsNameNoRegister.Statement (.correctedError a0 a1) := fun _ => ⟨rfl, rfl, rfl, rfl⟩
theorem Laws.EventsNameNoRegister.dieBoot (a0 : Nat) (a1 a2 : List (BitVec 8)) (a3 : Nat) : Laws.EventsNameNoRegister.Statement (.dieBoot a0 a1 a2 a3) := fun _ => ⟨rfl, rfl, rfl, rfl⟩
theorem Laws.EventsNameNoRegister.measExtend (a0 a1 : Nat) (a2 : List (BitVec 8)) : Laws.EventsNameNoRegister.Statement (.measExtend a0 a1 a2) := fun _ => ⟨rfl, rfl, rfl, rfl⟩
theorem Laws.EventsNameNoRegister.attestationRequest (a0 : List (BitVec 8)) : Laws.EventsNameNoRegister.Statement (.attestationRequest a0) := fun _ => ⟨rfl, rfl, rfl, rfl⟩
theorem Laws.EventsNameNoRegister.tokenedOperationComplete (a0 a1 : Nat) : Laws.EventsNameNoRegister.Statement (.tokenedOperationComplete a0 a1) := fun _ => ⟨rfl, rfl, rfl, rfl⟩
theorem Laws.EventsNameNoRegister.supplyRecovery (a0 : Nat) : Laws.EventsNameNoRegister.Statement (.supplyRecovery a0) := fun _ => ⟨rfl, rfl, rfl, rfl⟩

end Sys2Proof
end

