-- ==== Sys2Proof/Laws/Tile.lean ====
section
/-! SUPPORT. Runs of bytes and the elements they hold (R65, R197): a run taken from a longer run, and the elements of a row
one by one. -/

namespace Sys2Proof.Machine

/-- Dropping what lies below an address drops what lies below a lower one first. -/
theorem Memory.dropWhile_below {a b : Nat} (h : a ≤ b) : ∀ m : Memory,
    (m.dropWhile fun c => decide (c.1 < a)).dropWhile (fun c => decide (c.1 < b)) = m.dropWhile fun c => decide (c.1 < b)
  | [] => rfl
  | c :: m => by
    by_cases hc : c.1 < a
    · have hb : c.1 < b := Nat.lt_of_lt_of_le hc h
      simp [hc, hb, Memory.dropWhile_below h m]
    · simp [List.dropWhile_cons, hc]

/-- Bytes from an address on do not depend on what is listed below it. -/
theorem Memory.bytes_dropWhile {a b : Nat} (h : a ≤ b) (m : Memory) :
    ∀ n, Memory.bytes (m.dropWhile fun c => decide (c.1 < a)) b n = m.bytes b n
  | 0 => rfl
  | n + 1 => by simp only [Memory.bytes, Memory.dropWhile_below h]

@[simp] theorem Memory.bytes_length (m : Memory) (a n : Nat) : (m.bytes a n).length = n := by
  induction n generalizing m a with
  | zero => rfl
  | succ n ih => simp [Memory.bytes, ih]

/-- The end of a run of bytes is the run from there on. -/
theorem Memory.bytes_drop (m : Memory) (a n j : Nat) : (m.bytes a n).drop j = m.bytes (a + j) (n - j) := by
  induction n generalizing a j with
  | zero => simp [Memory.bytes]
  | succ n ih =>
    cases j with
    | zero => rfl
    | succ j =>
      have e := Memory.bytes_dropWhile (Nat.le_succ a) m n
      rw [Memory.bytes, List.drop_succ_cons, e, ih, Nat.add_sub_add_right]
      congr 1; omega

/-- The beginning of a run of bytes is a shorter run. -/
theorem Memory.bytes_take (m : Memory) (a n k : Nat) : (m.bytes a n).take k = m.bytes a (min k n) := by
  induction n generalizing m a k with
  | zero => simp [Memory.bytes]
  | succ n ih =>
    cases k with
    | zero => simp [Memory.bytes]
    | succ k => rw [Nat.succ_min_succ, Memory.bytes, Memory.bytes, List.take_succ_cons, ih]

/-- Elements of a row of bytes, one by one, for the widths of the formats. -/
theorem elemsOf_eq {w : Nat} (hw : w = 4 ∨ w = 8 ∨ w = 16 ∨ w = 32) :
    ∀ bs : List Byte, elemsOf w bs = (List.range (bs.length * 8 / w)).map (elemOf w bs) := by
  intro bs
  rcases hw with rfl | rfl | rfl | rfl
  · induction bs with
    | nil => rfl
    | cons b bs ih =>
      have hl : (b :: bs).length * 8 / 4 = bs.length * 8 / 4 + 2 := by simp only [List.length_cons]; omega
      rw [hl, List.range_succ_eq_map, List.range_succ_eq_map]
      simp only [elemsOf, if_true, ih, List.map_cons, List.map_map]
      have h0 : elemOf 4 (b :: bs) 0 = b.toNat % 16 := by simp [elemOf]
      have h1 : elemOf 4 (b :: bs) (0 + 1) = b.toNat / 16 := by
        have := b.isLt
        simp [elemOf]; omega
      have h2 : ∀ j, elemOf 4 (b :: bs) (j + 1 + 1) = elemOf 4 bs j := by
        intro j
        have e1 : (j + 1 + 1) / 2 = j / 2 + 1 := by omega
        have e2 : (j + 1 + 1) % 2 = j % 2 := by omega
        simp [elemOf, e1, e2]
      rw [h0, h1]
      congr 2
      exact List.map_congr_left fun j _ => (h2 j).symm
  · induction bs with
    | nil => rfl
    | cons b bs ih =>
      have hl : (b :: bs).length * 8 / 8 = bs.length * 8 / 8 + 1 := by simp only [List.length_cons]; omega
      rw [hl, List.range_succ_eq_map]
      simp only [elemsOf, ih, List.map_cons, List.map_map]
      have h0 : elemOf 8 (b :: bs) 0 = b.toNat := by simp [elemOf, leValue]
      have h2 : ∀ j, elemOf 8 (b :: bs) (j + 1) = elemOf 8 bs j := by
        intro j
        have e1 : (j + 1) * 8 / 8 = j * 8 / 8 + 1 := by omega
        simp [elemOf, e1]
      rw [h0]
      simp only [show ¬ (8 : Nat) = 4 by decide, if_false, if_true]
      congr 1
      exact List.map_congr_left fun j _ => (h2 j).symm
  · cases bs with
    | nil => rfl
    | cons b bs => simp [elemsOf, elemOf]
  · cases bs with
    | nil => rfl
    | cons b bs => simp [elemsOf, elemOf]

/-- The elements of a row of a tile, one by one, when they fill its bytes. -/
theorem Lane.rowElems_eq {w : Nat} (hw : w = 4 ∨ w = 8 ∨ w = 16 ∨ w = 32) (e : Lane) (t : BitVec 4) (i n : Nat) :
    e.rowElems w t i n = (List.range (n * 8 / w)).map (e.elem w t i) := by
  unfold Lane.rowElems
  rw [elemsOf_eq hw]
  simp only [Lane.row, Memory.bytes_length]
  refine List.map_congr_left fun j hj => ?_
  rw [List.mem_range] at hj
  unfold Lane.elem Lane.row elemOf
  rcases hw with rfl | rfl | rfl | rfl
  · simp only [if_true]
    have h2 : j / 2 < n := by omega
    have e1 : j * 4 / 8 = j / 2 := by omega
    rw [e1]
    have key : (e.store.bytes (tileBase t + 128 * i + 0) n).getD (j / 2) 0
        = (e.store.bytes (tileBase t + 128 * i + j / 2) 1).getD (j % 2 / 2) 0 := by
      have e2 : j % 2 / 2 = 0 := by omega
      have e3 : min 1 (n - j / 2) = 1 := by omega
      rw [e2, ← e3, ← Memory.bytes_take, Nat.add_zero, ← Memory.bytes_drop]
      simp [List.getD_eq_getElem?_getD, List.getElem?_drop]
    rw [key]
    have e4 : j % 2 % 2 = j % 2 := by omega
    rw [e4]
  · simp only [show ¬ (8 : Nat) = 4 by decide, if_false]
    have e3 : min (8 / 8) (n - j * 8 / 8) = 8 / 8 := by omega
    rw [Memory.bytes_drop, Memory.bytes_take, Memory.bytes_drop, Memory.bytes_take, e3]
    simp
  · simp only [show ¬ (16 : Nat) = 4 by decide, if_false]
    have e3 : min (16 / 8) (n - j * 16 / 8) = 16 / 8 := by omega
    rw [Memory.bytes_drop, Memory.bytes_take, Memory.bytes_drop, Memory.bytes_take, e3]
    simp
  · simp only [show ¬ (32 : Nat) = 4 by decide, if_false]
    have e3 : min (32 / 8) (n - j * 32 / 8) = 32 / 8 := by omega
    rw [Memory.bytes_drop, Memory.bytes_take, Memory.bytes_drop, Memory.bytes_take, e3]
    simp

end Sys2Proof.Machine
end

