-- ==== Sys2Proof/Tests/Slice0.lean ====
section
/-! SUPPORT. The model's own tests: words of every instruction decoded, an ill-formed term for each check of
well-formedness, a witness for the hypotheses of each statement, and small steps with results worked out from the rules. -/

namespace Sys2Proof.Tests
open Sys2Proof Sys2Proof.Machine

/-- Each word decodes, in a slot of a kind, to the instruction beside it. -/
def decodes (k : SlotKind) (l : List (Nat × Instr)) : Bool :=
  l.all fun p => match decodeWord k (BitVec.ofNat 32 p.1) with
    | .ok i => i == p.2
    | .error _ => false

/-! Decoding. Each word has the opcode of the opcode table in its top bits and a number of its own in each field. -/

/-- Words of the S slot (R37), from nop to sar, by the encodings of the opcode table. -/
theorem test_decode_s0 : decodes .S [
    (0x00000002, .nop ⟨0, 0, 0, 0, 2⟩),
    (0x0114C4C5, .add ⟨5, 12, 19, 0, 5⟩),
    (0x0214C4C5, .sub ⟨5, 12, 19, 0, 5⟩),
    (0x0314CAAD, .addi ⟨5, 12, 341, 5⟩),
    (0x0414C4C5, .mul ⟨5, 12, 19, 0, 5⟩),
    (0x0514C4CE, .mulh ⟨5, 12, 19, 1, 6⟩),
    (0x0614C4CE, .div ⟨5, 12, 19, 1, 6⟩),
    (0x0714C4CE, .rem ⟨5, 12, 19, 1, 6⟩),
    (0x0814C4C5, .andS ⟨5, 12, 19, 0, 5⟩),
    (0x0914C4C5, .orS ⟨5, 12, 19, 0, 5⟩),
    (0x0A14C4C5, .xorS ⟨5, 12, 19, 0, 5⟩),
    (0x0B14C4C5, .andn ⟨5, 12, 19, 0, 5⟩),
    (0x0C14CAAD, .andi ⟨5, 12, 341, 5⟩),
    (0x0D14CAAD, .ori ⟨5, 12, 341, 5⟩),
    (0x0E14CAAD, .xori ⟨5, 12, 341, 5⟩),
    (0x0F14C4C5, .shl ⟨5, 12, 19, 0, 5⟩),
    (0x1014C4C5, .shr ⟨5, 12, 19, 0, 5⟩),
    (0x1114C4C5, .sar ⟨5, 12, 19, 0, 5⟩)] = true := by decide

/-- Words of the S slot (R37), from shli to qpop, by the encodings of the opcode table. -/
theorem test_decode_s1 : decodes .S [
    (0x1214C09D, .shli ⟨5, 12, 19, 5⟩),
    (0x1314C09D, .shri ⟨5, 12, 19, 5⟩),
    (0x1414C09D, .sari ⟨5, 12, 19, 5⟩),
    (0x1514C4CE, .minS ⟨5, 12, 19, 1, 6⟩),
    (0x1614C4CE, .maxS ⟨5, 12, 19, 1, 6⟩),
    (0x174D3686, .cmp ⟨19, 19, 26, 0, 6⟩),
    (0x184D3AAE, .cmpi ⟨19, 19, 341, 6⟩),
    (0x1914C4CE, .sel ⟨5, 12, 19, 1, 6⟩),
    (0x1A14C004, .mov ⟨5, 12, 0, 0, 4⟩),
    (0x1B140AAC, .movi ⟨5, 0, 341, 4⟩),
    (0x1C14CAAD, .movhi ⟨5, 12, 341, 5⟩),
    (0x1D14C004, .clz ⟨5, 12, 0, 0, 4⟩),
    (0x1E14C004, .popc ⟨5, 12, 0, 0, 4⟩),
    (0x1F14C4CE, .bfx ⟨5, 12, 19, 1, 6⟩),
    (0x2014C4C5, .bfi ⟨5, 12, 19, 0, 5⟩),
    (0x2114C4CE, .addsh ⟨5, 12, 19, 1, 6⟩),
    (0x2214C4CE, .plog ⟨5, 12, 19, 1, 6⟩),
    (0x2314C004, .qpop ⟨5, 12, 0, 0, 4⟩)] = true := by decide

/-- Words of the S slot (R37), from qpeek to elseD, by the encodings of the opcode table. -/
theorem test_decode_s2 : decodes .S [
    (0x2414C004, .qpeek ⟨5, 12, 0, 0, 4⟩),
    (0x2514C004, .qcnt ⟨5, 12, 0, 0, 4⟩),
    (0x2614C004, .movs ⟨5, 12, 0, 0, 4⟩),
    (0x2714C004, .movsw ⟨5, 12, 0, 0, 4⟩),
    (0x2814C105, .eget ⟨5, 12, 4, 0, 5⟩),
    (0x290050C4, .eset ⟨0, 5, 3, 0, 4⟩),
    (0x305ABCDE, .br ⟨2, 1, 703710⟩),
    (0x310ABCDE, .jmp ⟨0, 0, 703710⟩),
    (0x32005003, .jr ⟨0, 5, 0, 0, 3⟩),
    (0x335ABCDE, .call ⟨2, 1, 703710⟩),
    (0x3414C004, .callr ⟨5, 12, 0, 0, 4⟩),
    (0x35005003, .ret ⟨0, 5, 0, 0, 3⟩),
    (0x3604C4C5, .loop ⟨1, 12, 19, 0, 5⟩),
    (0x3704CAAD, .loopi ⟨1, 12, 341, 5⟩),
    (0x385ABCDE, .lbrk ⟨2, 1, 703710⟩),
    (0x395ABCDE, .ifD ⟨2, 1, 703710⟩),
    (0x3A5ABCDE, .split ⟨2, 1, 703710⟩),
    (0x3B000000, .elseD ⟨0, 0, 0⟩)] = true := by decide

/-- Words of the S slot (R37), from join to barInit, by the encodings of the opcode table. -/
theorem test_decode_s3 : decodes .S [
    (0x3C000000, .join ⟨0, 0, 0, 0, 0⟩),
    (0x3D000002, .exit ⟨0, 0, 0, 0, 2⟩),
    (0x3E000002, .halt ⟨0, 0, 0, 0, 2⟩),
    (0x3F005003, .wait ⟨0, 5, 0, 0, 3⟩),
    (0x40005003, .idle ⟨0, 5, 0, 0, 3⟩),
    (0x41000002, .fchk ⟨0, 0, 0, 0, 2⟩),
    (0x42005325, .segld ⟨0, 5, 100, 5⟩),
    (0x5014C4DD, .ld ⟨5, 12, 19, 1, 6, 1⟩),
    (0x5114C4DC, .st ⟨5, 12, 19, 1, 6, 0⟩),
    (0x5214C4DD, .ldx ⟨5, 12, 19, 1, 6, 1⟩),
    (0x5314C4DC, .stx ⟨5, 12, 19, 1, 6, 0⟩),
    (0x5414C16D, .amo ⟨5, 12, 5, 2, 6, 1⟩),
    (0x5514C4ED, .swap ⟨5, 12, 19, 2, 6, 1⟩),
    (0x5614C4FD, .cas ⟨5, 12, 19, 3, 6, 1⟩),
    (0x5714C4FD, .incb ⟨5, 12, 19, 3, 6, 1⟩),
    (0x5800000B, .fence ⟨0, 0, 0, 1, 3⟩),
    (0x59005308, .pref ⟨0, 5, 12, 0, 4, 0⟩),
    (0x6014C4CE, .barInit ⟨5, 12, 19, 1, 6⟩)] = true := by decide

/-- Words of the S slot (R37), from barArrive to vset, by the encodings of the opcode table. -/
theorem test_decode_s4 : decodes .S [
    (0x6114C4CE, .barArrive ⟨5, 12, 19, 1, 6⟩),
    (0x62005304, .barWait ⟨0, 5, 12, 0, 4⟩),
    (0x63005304, .barSync ⟨0, 5, 12, 0, 4⟩),
    (0x6400530D, .barExpect ⟨0, 5, 12, 1, 5⟩),
    (0x6514C00D, .barTest ⟨5, 12, 0, 1, 5⟩),
    (0x66000002, .sstep ⟨0, 0, 0, 0, 2⟩),
    (0x6714C00D, .gballot ⟨5, 12, 0, 1, 5⟩),
    (0x6814310E, .gscan ⟨5, 3, 4, 1, 6⟩),
    (0x6914300D, .greds ⟨5, 3, 0, 1, 5⟩),
    (0x7014C4CE, .qpush ⟨5, 12, 19, 1, 6⟩),
    (0x7114C4CE, .qres ⟨5, 12, 19, 1, 6⟩),
    (0x7204C4CE, .sig ⟨1, 12, 19, 1, 6⟩),
    (0x7314C4CE, .sigw ⟨5, 12, 19, 1, 6⟩),
    (0x74140003, .next ⟨5, 0, 0, 0, 3⟩),
    (0x78140003, .time ⟨5, 0, 0, 0, 3⟩),
    (0x7914000C, .slack ⟨5, 0, 0, 1, 4⟩),
    (0x7A00500C, .prog ⟨0, 5, 0, 1, 4⟩),
    (0x7B14C4CE, .vset ⟨5, 12, 19, 1, 6⟩)] = true := by decide

/-- Words of the S slot (R37), from ecommit to suspend, by the encodings of the opcode table. -/
theorem test_decode_s5 : decodes .S [
    (0x7C14000C, .ecommit ⟨5, 0, 0, 1, 4⟩),
    (0x7D00000B, .endg ⟨0, 0, 0, 1, 3⟩),
    (0x8000530D, .rfam ⟨0, 5, 12, 1, 5⟩),
    (0x8114C4CE, .rstat ⟨5, 12, 19, 1, 6⟩),
    (0x8214C00D, .rcur ⟨5, 12, 0, 1, 5⟩),
    (0xC0005AAC, .trap ⟨0, 5, 341, 4⟩),
    (0xC1000002, .tret ⟨0, 0, 0, 0, 2⟩),
    (0xC214C004, .sysr ⟨5, 12, 0, 0, 4⟩),
    (0xC3005304, .sysw ⟨0, 5, 12, 0, 4⟩),
    (0xC400530D, .tlbinv ⟨0, 5, 12, 1, 5⟩),
    (0xC500500C, .pgshare ⟨0, 5, 0, 1, 4⟩),
    (0xC600500C, .pgunmap ⟨0, 5, 0, 1, 4⟩),
    (0xC700500C, .pgcow ⟨0, 5, 0, 1, 4⟩),
    (0xC8005003, .cont ⟨0, 5, 0, 0, 3⟩),
    (0xC9005003, .cresume ⟨0, 5, 0, 0, 3⟩),
    (0xCA14C004, .parkrd ⟨5, 12, 0, 0, 4⟩),
    (0xCB005003, .unpark ⟨0, 5, 0, 0, 3⟩),
    (0xCC00530D, .suspend ⟨0, 5, 12, 1, 5⟩)] = true := by decide

/-- Words of the V slots (R38), from tadd to tsigm, by the encodings of the opcode table. -/
theorem test_decode_v0 : decodes .V [
    (0x00234390, .tadd ⟨2, 3, 4, 1, 6, 1, 0⟩),
    (0x01234390, .tsub ⟨2, 3, 4, 1, 6, 1, 0⟩),
    (0x02234390, .tmul ⟨2, 3, 4, 1, 6, 1, 0⟩),
    (0x03234390, .tfma ⟨2, 3, 4, 1, 6, 1, 0⟩),
    (0x04234390, .tfms ⟨2, 3, 4, 1, 6, 1, 0⟩),
    (0x05234390, .tmin ⟨2, 3, 4, 1, 6, 1, 0⟩),
    (0x06234390, .tmax ⟨2, 3, 4, 1, 6, 1, 0⟩),
    (0x07230350, .tabs ⟨2, 3, 0, 1, 5, 1, 0⟩),
    (0x08230350, .tneg ⟨2, 3, 0, 1, 5, 1, 0⟩),
    (0x09234CE4, .tscl ⟨2, 3, 19, 1, 6, 1, 0⟩),
    (0x0A234CE4, .tadds ⟨2, 3, 19, 1, 6, 1, 0⟩),
    (0x0B230350, .texp2 ⟨2, 3, 0, 1, 5, 1, 0⟩),
    (0x0C230350, .tlog2 ⟨2, 3, 0, 1, 5, 1, 0⟩),
    (0x0D230350, .trcp ⟨2, 3, 0, 1, 5, 1, 0⟩),
    (0x0E230350, .trsq ⟨2, 3, 0, 1, 5, 1, 0⟩),
    (0x0F230350, .tsqrt ⟨2, 3, 0, 1, 5, 1, 0⟩),
    (0x10230350, .ttanh ⟨2, 3, 0, 1, 5, 1, 0⟩),
    (0x11230350, .tsigm ⟨2, 3, 0, 1, 5, 1, 0⟩)] = true := by decide

/-- Words of the V slots (R38), from tcmp to tiota, by the encodings of the opcode table. -/
theorem test_decode_v1 : decodes .V [
    (0x12234391, .tcmp ⟨2, 3, 4, 1, 6, 1, 1⟩),
    (0x13234390, .tsel ⟨2, 3, 4, 1, 6, 1, 0⟩),
    (0x14234390, .tclamp ⟨2, 3, 4, 1, 6, 1, 0⟩),
    (0x40234390, .tiadd ⟨2, 3, 4, 1, 6, 1, 0⟩),
    (0x41234390, .tisub ⟨2, 3, 4, 1, 6, 1, 0⟩),
    (0x42234390, .timul ⟨2, 3, 4, 1, 6, 1, 0⟩),
    (0x43234390, .tand ⟨2, 3, 4, 1, 6, 1, 0⟩),
    (0x44234390, .tor ⟨2, 3, 4, 1, 6, 1, 0⟩),
    (0x45234390, .txor ⟨2, 3, 4, 1, 6, 1, 0⟩),
    (0x46234390, .tshl ⟨2, 3, 4, 1, 6, 1, 0⟩),
    (0x47234390, .tshr ⟨2, 3, 4, 1, 6, 1, 0⟩),
    (0x48234390, .tsar ⟨2, 3, 4, 1, 6, 1, 0⟩),
    (0x49234390, .timin ⟨2, 3, 4, 1, 6, 1, 0⟩),
    (0x4A234390, .timax ⟨2, 3, 4, 1, 6, 1, 0⟩),
    (0x60234390, .tcvt ⟨2, 3, 4, 1, 6, 1, 0⟩),
    (0x61230110, .tmov ⟨2, 3, 0, 0, 4, 1, 0⟩),
    (0x622000D0, .tzero ⟨2, 0, 0, 0, 3, 1, 0⟩),
    (0x63200311, .tiota ⟨2, 0, 0, 1, 4, 1, 1⟩)] = true := by decide

/-- Words of the V slots (R38), from ttrn to eor, by the encodings of the opcode table. -/
theorem test_decode_v2 : decodes .V [
    (0x64230350, .ttrn ⟨2, 3, 0, 1, 5, 1, 0⟩),
    (0x65204C04, .shape ⟨2, 0, 19, 0, 0, 1, 0⟩),
    (0x66230010, .shget ⟨2, 3, 0, 0, 0, 1, 0⟩),
    (0x70234CE5, .rrot ⟨2, 3, 19, 1, 6, 1, 1⟩),
    (0x71234390, .rbc ⟨2, 3, 4, 1, 6, 1, 0⟩),
    (0x72230351, .rred ⟨2, 3, 0, 1, 5, 1, 1⟩),
    (0x73234C55, .crot ⟨2, 3, 19, 0, 5, 1, 1⟩),
    (0x74234150, .cbc ⟨2, 3, 4, 0, 5, 1, 0⟩),
    (0x75230351, .cred ⟨2, 3, 0, 1, 5, 1, 1⟩),
    (0x80234391, .kcmp ⟨2, 3, 4, 1, 6, 1, 1⟩),
    (0x81234011, .kop ⟨2, 3, 4, 0, 0, 1, 1⟩),
    (0x82230006, .kset ⟨2, 3, 0, 0, 0, 1, 2⟩),
    (0x83230010, .kcnt ⟨2, 3, 0, 0, 0, 1, 0⟩),
    (0x90234010, .eadd ⟨2, 3, 4, 0, 0, 1, 0⟩),
    (0x91234010, .esub ⟨2, 3, 4, 0, 0, 1, 0⟩),
    (0x92234010, .emul ⟨2, 3, 4, 0, 0, 1, 0⟩),
    (0x93234010, .eand ⟨2, 3, 4, 0, 0, 1, 0⟩),
    (0x94234010, .eor ⟨2, 3, 4, 0, 0, 1, 0⟩)] = true := by decide

/-- Words of the V slots (R38), from eshl to lde, by the encodings of the opcode table. -/
theorem test_decode_v3 : decodes .V [
    (0x95234010, .eshl ⟨2, 3, 4, 0, 0, 1, 0⟩),
    (0x96234011, .eshr ⟨2, 3, 4, 0, 0, 1, 1⟩),
    (0x97234011, .emin ⟨2, 3, 4, 0, 0, 1, 1⟩),
    (0x98234011, .emax ⟨2, 3, 4, 0, 0, 1, 1⟩),
    (0x99134011, .ecmp ⟨1, 3, 4, 0, 0, 1, 1⟩),
    (0x9A234011, .esel ⟨2, 3, 4, 0, 0, 1, 1⟩),
    (0x9B200011, .eid ⟨2, 0, 0, 0, 0, 1, 1⟩),
    (0x9C234211, .emovt ⟨2, 3, 4, 1, 0, 1, 1⟩),
    (0x9D234210, .etmov ⟨2, 3, 4, 1, 0, 1, 0⟩),
    (0xA0234390, .gshuf ⟨2, 3, 4, 1, 6, 1, 0⟩),
    (0xA1234CE4, .gbc ⟨2, 3, 19, 1, 6, 1, 0⟩),
    (0xA2234CE5, .grot ⟨2, 3, 19, 1, 6, 1, 1⟩),
    (0xA3230351, .gred ⟨2, 3, 0, 1, 5, 1, 1⟩),
    (0xA4234150, .gcomp ⟨2, 3, 4, 0, 5, 1, 0⟩),
    (0xB0234C55, .tld ⟨2, 3, 19, 0, 5, 1, 1⟩),
    (0xB1234C55, .tst ⟨2, 3, 19, 0, 5, 1, 1⟩),
    (0xB2234C55, .tldk ⟨2, 3, 19, 0, 5, 1, 1⟩),
    (0xB3234C85, .lde ⟨2, 3, 19, 1, 0, 1, 1⟩)] = true := by decide

/-- Words of the V slots (R38), from ste to ste, by the encodings of the opcode table. -/
theorem test_decode_v4 : decodes .V [
    (0xB4234C05, .ste ⟨2, 3, 19, 0, 0, 1, 1⟩)] = true := by decide

/-- Words of the M slot (R39), from mma to hidx, by the encodings of the opcode table. -/
theorem test_decode_m0 : decodes .M [
    (0x004D0EE9, .mma ⟨1, 3, 4, 1, 6, 7, 1, 1⟩),
    (0x014D0EE9, .mmaz ⟨1, 3, 4, 1, 6, 7, 1, 1⟩),
    (0x024D0EE9, .mmat ⟨1, 3, 4, 1, 6, 7, 1, 1⟩),
    (0x034D0EE9, .mmas ⟨1, 3, 4, 1, 6, 7, 1, 1⟩),
    (0x0408C8A9, .prune ⟨0, 2, 3, 1, 0, 5, 1, 1⟩),
    (0x054D0EE9, .sqd ⟨1, 3, 4, 1, 6, 7, 1, 1⟩),
    (0x064D00A9, .topk ⟨1, 3, 4, 0, 0, 5, 1, 1⟩),
    (0x0740CDC9, .accrd ⟨1, 0, 3, 1, 5, 6, 1, 1⟩),
    (0x084C0DC9, .accwr ⟨1, 3, 0, 1, 5, 6, 1, 1⟩),
    (0x09400068, .accz ⟨1, 0, 0, 0, 0, 3, 1, 0⟩),
    (0x0A400889, .accscScale ⟨1, 0, 0, 1, 0, 4, 1, 1⟩),
    (0x0A080109, .accscLoad ⟨0, 2, 0, 0, 1, 0, 1, 1⟩),
    (0x0A008209, .accscStore ⟨0, 0, 2, 0, 2, 0, 1, 1⟩),
    (0x204D00A8, .hsign ⟨1, 3, 4, 0, 0, 5, 1, 0⟩),
    (0x2108C089, .hidx ⟨0, 2, 3, 0, 0, 4, 1, 1⟩)] = true := by decide

/-- Words of the X slots (R39), from copy to rprobe, by the encodings of the opcode table. -/
theorem test_decode_x0 : decodes .X [
    (0x00434C54, .copy ⟨2, 3, 19, 5, 1, 0⟩),
    (0x01434C54, .gather ⟨2, 3, 19, 5, 1, 0⟩),
    (0x02434C54, .scatter ⟨2, 3, 19, 5, 1, 0⟩),
    (0x03434C54, .put ⟨2, 3, 19, 5, 1, 0⟩),
    (0x04434C54, .get ⟨2, 3, 19, 5, 1, 0⟩),
    (0x05434C54, .rgath ⟨2, 3, 19, 5, 1, 0⟩),
    (0x06434C54, .fill ⟨2, 3, 19, 5, 1, 0⟩),
    (0x075F0004, .seal ⟨2, 31, 0, 0, 1, 0⟩),
    (0x085F3005, .bwait ⟨2, 31, 12, 0, 1, 1⟩),
    (0x095F3044, .preft ⟨2, 31, 12, 4, 1, 0⟩),
    (0x0A5F3044, .pin ⟨2, 31, 12, 4, 1, 0⟩),
    (0x0B5F3044, .unpin ⟨2, 31, 12, 4, 1, 0⟩),
    (0x205F3045, .gld ⟨2, 31, 12, 4, 1, 1⟩),
    (0x215F3045, .gst ⟨2, 31, 12, 4, 1, 1⟩),
    (0x225F3045, .glde ⟨2, 31, 12, 4, 1, 1⟩),
    (0x235F3045, .gste ⟨2, 31, 12, 4, 1, 1⟩),
    (0x245F3045, .gamo ⟨2, 31, 12, 4, 1, 1⟩),
    (0x305F3044, .rprobe ⟨2, 31, 12, 4, 1, 0⟩)] = true := by decide

/-- Words of the X slots (R39), from rins to rret, by the encodings of the opcode table. -/
theorem test_decode_x1 : decodes .X [
    (0x315F3044, .rins ⟨2, 31, 12, 4, 1, 0⟩),
    (0x325F3044, .rdel ⟨2, 31, 12, 4, 1, 0⟩),
    (0x335F3044, .rmig ⟨2, 31, 12, 4, 1, 0⟩),
    (0x345F3044, .rret ⟨2, 31, 12, 4, 1, 0⟩)] = true := by decide
/-! Well-formedness: an ill-formed term for each check, which the check refuses. -/

theorem test_wf_reservedField : (Instr.add ⟨3, 1, 2, 1, 0⟩).fieldsOk = false ∧ (Instr.add ⟨3, 1, 2, 1, 0⟩).wf = false := by
  decide

theorem test_wf_reservedValue : (Instr.mulh ⟨3, 1, 2, 3, 0⟩).fieldsOk = false ∧ (Instr.tcmp ⟨1, 2, 3, 0, 0, 0, 8⟩).wf = false ∧
    (Instr.kset ⟨1, 3, 0, 0, 0, 0, 3⟩).wf = false ∧ (Instr.copy ⟨0, 31, 1, 0x10, 0, 0⟩).wf = false := by decide

theorem test_wf_code : (Instr.qpop ⟨1, 8, 0, 0, 0⟩).codesOk = false ∧ (Instr.qpop ⟨1, 8, 0, 0, 0⟩).wf = false ∧
    (Instr.movs ⟨1, 0x1C, 0, 0, 0⟩).codesOk = false ∧ (Instr.kop ⟨0, 1, 2, 0, 0, 0, 0⟩).codesOk = false := by decide

theorem test_wf_destination : (Instr.add ⟨63, 1, 2, 0, 0⟩).scalarDests.all (· != 63) = false ∧
    (Instr.add ⟨63, 1, 2, 0, 0⟩).wf = false := by decide

theorem test_wf_branch : (Instr.br ⟨0, 1, 4⟩).sbOk = false ∧ (Instr.br ⟨0, 1, 4⟩).wf = false := by decide

theorem test_wf_holds : (Instr.add ⟨3, 63, 2, 0, 0⟩).wf = true ∧ (Instr.br ⟨2, 1, 4⟩).wf = true ∧
    (Instr.mma ⟨1, 2, 3, 1, 1, 0, 0, 1⟩).wf = true ∧ (Instr.seal ⟨1, 31, 0, 0, 0, 0⟩).wf = true := by decide

theorem test_decode_rejects : decodeWord .S 0x01000008 = .error .reservedField ∧ decodeWord .S 0x02000001 = .ok (.sub ⟨0, 0, 0, 0, 1⟩) ∧
    (match decodeWord .S 0xFF000000 with | .error _ => true | .ok _ => false) = true := by decide

/-! States for the witnesses: a machine that is up, one instance of one launch on slot 0 of die 0, in USER mode, about to
issue the word of one slot of the bundle at 0x100. s[k] is 64 k below 40 and k - 39 from there on; page 0 is in its TLB, and
holds a segment table; segment 0 is resident, with NOP bundles at 0x108, 0x10E, 0x114 and 0x280. -/

def demoInfo : LInfo :=
  { LInfo.empty with
    lid := 1, cls := 3, nx := 2, ny := 1, nz := 1, stages := 1, prog := 0x100, spBytes := 0xC0000,
    fmts := [0, 1, 2, 3, 7, 6, 0x10, 0], dline := true, deadline := 9000, budget := 1000, egEntry := 0x200, bmAddr := 0x1000,
    bmLen := 3000 }

def demoPage : TlbEnt := ⟨0, 0, true, 0, true, true, true, false, true⟩

def demoGang : Gang :=
  let g := newGang demoInfo 1 0 0 0 0 0
  { g with
    q0 := { g.q0 with
      s := Vector.ofFn fun k => BitVec.ofNat 64 (if k.val < 40 then 64 * k.val else k.val - 39),
      q := [[], [], [5, 6], [], [], [], [], []], utlb := [demoPage] } }

def demoFrame : SegFrame :=
  { SegFrame.empty with
    lid := 1, len := 0x10000, fill := .resident, data := [(0x108, 1), (0x10E, 1), (0x114, 1), (0x280, 1)] }

def demoSlot : GSlot := ⟨[demoFrame, SegFrame.empty, SegFrame.empty, SegFrame.empty], [], List.replicate 16 0, false⟩

def demoDie (k : Nat) : Die :=
  let d := Die.reset k
  { d with bootStage := 4, booted := true, tlb := [demoPage], slots := demoSlot :: d.slots.drop 1 }

def demoLaunch : Launch :=
  { info := demoInfo, stage := .ready, qd := 0x2000, pkt := 0, crec := 0, csig := 0, est := 0, unitNs := 0, progress := 0,
    t0 := some 0, admitted := 0, order := 0, rlIndex := 0, handles := [], taken := 1, trig := [], trigAll := false,
    window := 0, step := 0, stime := 0, arrived := [], cx := 4, cy := 2, drawn := 4, returned := [],
    reserve := [(0, [2, 3])], tally := ⟨0, 0, none, false, false, false, false⟩ }

def demo (n : Nat) : State :=
  { State.reset with
    g := demoGang, dies := [demoDie 0, demoDie 1, demoDie 2, demoDie 3], launches := [demoLaunch],
    mem := [(0x0A, 1), (0x0C, 0xFF), (0x0D, 1), (0x1A, 1), (0x1C, 0xFF), (0x1D, 1)],
    cur := { Issue.idle with slot := n, act := 0xFFFF, sp := some 1, lit := some 8, head := 0x100, next := 0x108 } }

/-- The same in a trap handler. -/
def demoSys : State := (demo 0).updG fun g => { g with mode := .sys ⟨0, 0, [], none, .none, 0, false, false⟩ }

/-- The same with a loop frame, a divergence entry, a record of a fault, a continuation and lane 1 parked. -/
def demoFull : State := (demo 0).updG fun g =>
  { g with
    ring := [⟨0x100, 2, 1, .shape, 7⟩], held := some ⟨[], [], 0xFFFF, none⟩, pmask := 2, xmask := 1,
    q0 := { g.q0 with
      frames := [⟨0x108, 0x280, 3, 3, 0, 1, false⟩], ds := [⟨0x140, 0x180, 0xFF, 0xFFFF, false, 0⟩] } }

/-- The same with another context on slot 1, in a handler. -/
def demoTwo : State := { demoSys with others := [{ demoGang with gid := 2, place := .run 0 1 0 }] }

/-! Witnesses: states and operands that meet what each statement asks, at the edges of what its clauses tell apart. -/

theorem wit_ScalarArithmetic : ∀ i ∈ ([.add ⟨1, 2, 3, 0, 0⟩, .sub ⟨0, 2, 63, 0, 0⟩, .addi ⟨62, 2, 0x1FF, 0⟩,
    .addsh ⟨1, 2, 3, 7, 0⟩, .mul ⟨1, 2, 3, 0, 0⟩, .mulh ⟨1, 2, 3, 0, 0⟩, .mulh ⟨1, 2, 3, 1, 0⟩, .mulh ⟨1, 2, 3, 2, 0⟩,
    .minS ⟨1, 2, 3, 0, 0⟩, .minS ⟨1, 2, 3, 1, 0⟩, .maxS ⟨1, 2, 3, 0, 0⟩, .maxS ⟨1, 2, 3, 1, 0⟩] : List Instr),
    (demo 0).goes i := by delta State.goes; decide

theorem wit_Division : ∀ i ∈ ([.div ⟨1, 2, 3, 0, 0⟩, .div ⟨1, 2, 3, 1, 0⟩, .rem ⟨1, 2, 3, 0, 0⟩, .rem ⟨1, 2, 3, 1, 0⟩,
    .div ⟨1, 2, 0, 0, 0⟩] : List Instr), (demo 0).goes i ∧ (demo 0).operand 3 ≠ 0 ∧ (demo 0).operand 0 = 0 := by
  delta State.goes; decide

theorem wit_LogicAndShifts : ∀ i ∈ ([.andS ⟨1, 2, 3, 0, 0⟩, .orS ⟨1, 2, 3, 0, 0⟩, .xorS ⟨1, 2, 3, 0, 0⟩,
    .andn ⟨1, 2, 3, 0, 0⟩, .andi ⟨1, 2, 3, 0⟩, .ori ⟨1, 2, 3, 0⟩, .xori ⟨1, 2, 3, 0⟩, .shl ⟨1, 2, 3, 0, 0⟩,
    .shr ⟨1, 2, 3, 0, 0⟩, .sar ⟨1, 2, 3, 0, 0⟩, .shli ⟨1, 2, 63, 0⟩, .shri ⟨1, 2, 63, 0⟩, .sari ⟨1, 2, 63, 0⟩] :
    List Instr), (demo 0).goes i := by delta State.goes; decide

theorem wit_Compares_Moves_BitFields : ∀ i ∈ ([.cmp ⟨0x3F, 2, 3, 0, 0⟩, .cmpi ⟨1, 2, 3, 0⟩, .plog ⟨1, 0, 7, 6, 0⟩,
    .sel ⟨1, 2, 63, 7, 0⟩, .mov ⟨1, 2, 0, 0, 0⟩, .movi ⟨1, 0, 0x1FF, 0⟩, .movhi ⟨1, 2, 3, 0⟩, .clz ⟨1, 2, 0, 0, 0⟩,
    .popc ⟨1, 2, 0, 0, 0⟩, .nop ⟨0, 0, 0, 0, 0⟩, .bfx ⟨1, 2, 3, 1, 0⟩, .bfi ⟨1, 2, 3, 0, 0⟩] : List Instr),
    (demo 0).goes i := by delta State.goes; decide

theorem wit_NopReady : ({ demo 0 with cur := { (demo 0).cur with ready := true } }).slotOk (.nop ⟨0, 0, 0, 0, 1⟩) = true := by
  decide

theorem wit_QueueRegisters : (∀ i ∈ ([.qpop ⟨1, 2, 0, 0, 0⟩, .qpeek ⟨1, 2, 0, 0, 0⟩, .qcnt ⟨1, 7, 0, 0, 0⟩] : List Instr),
    (demo 0).goes i) ∧ (demo 0).seq.q.getD 2 [] = [5, 6] ∧ (demo 0).cur.ready = false ∧
    (demo 0).staticFault (.qpop ⟨1, 7, 0, 0, 0⟩) = none ∧ (demo 0).enabled (.qpop ⟨1, 7, 0, 0, 0⟩) = true ∧
    (demo 0).seq.q.getD 7 [] = [] := by delta State.goes; decide

theorem wit_SpecialRegisters : (∀ i ∈ ([.movs ⟨1, 0x1B, 0, 0, 0⟩, .movsw ⟨0x15, 2, 0, 0, 0⟩, .eget ⟨1, 55, 15, 0, 0⟩,
    .eset ⟨0, 2, 15, 0, 0⟩] : List Instr), (demo 0).goes i) ∧ demoSys.goes (.movsw ⟨0x19, 2, 0, 0, 0⟩) := by
  delta State.goes; decide

theorem wit_Branches : (∀ i ∈ ([.br ⟨0, 0, 4⟩, .br ⟨1, 0, 4⟩, .jmp ⟨0, 0, 0xC0⟩, .jr ⟨0, 4, 0, 0, 0⟩, .call ⟨0, 0, 4⟩,
    .call ⟨1, 0, 4⟩, .callr ⟨1, 4, 0, 0, 0⟩, .ret ⟨0, 4, 0, 0, 0⟩] : List Instr), (demo 0).goes i) ∧
    (demo 0).readPred 0 = true ∧ (demo 0).readPred 1 = false ∧ (demo 0).retAddr = .ok 0x114 := by
  delta State.goes; decide

theorem wit_Loops : (∀ i ∈ ([.loop ⟨3, 2, 3, 0, 0⟩, .loop ⟨0, 0, 3, 0, 0⟩, .loopi ⟨0, 3, 511, 0⟩, .loopi ⟨0, 3, 0, 0⟩] :
    List Instr), (demo 0).goes i) ∧ (demo 0).operand 0 = 0 ∧ (demo 0).operand 2 ≠ 0 ∧
    (∃ b, (demo 0).fetch 0x280 false = .bundle 0x280 0x286 b) ∧ demoFull.goes (.lbrk ⟨0, 0, 4⟩) ∧
    demoFull.goes (.lbrk ⟨1, 0, 4⟩) := by
  refine ⟨by delta State.goes; decide, by decide, by decide, ⟨⟨⟨1⟩, [(0, 0)], none⟩, by decide⟩, ?_, ?_⟩ <;>
    (delta State.goes; decide)

theorem wit_Divergence : (∀ i ∈ ([.ifD ⟨0, 0, 4⟩, .ifD ⟨1, 0, 4⟩, .split ⟨0, 0, 4⟩, .halt ⟨0, 0, 0, 0, 0⟩,
    .exit ⟨0, 0, 0, 0, 0⟩] : List Instr), (demo 0).goes i) ∧ (demo 0).thenLanes ⟨0, 0, 4⟩ = 0xFFFF ∧
    (demo 0).thenLanes ⟨1, 0, 4⟩ = 0 ∧ (demo 0).splits ⟨0, 0, 4⟩ = false ∧ (demo 0).seq.ds = [] ∧
    (demo 0).g.isFragment 0 = false := by delta State.goes; decide

/-- No lane parked. -/
def demoDs : State := demoFull.updG fun g => { g with pmask := 0 }

theorem wit_DivergenceJoins : (∀ i ∈ ([.elseD ⟨0, 0, 0⟩, .join ⟨0, 0, 0, 0, 0⟩, .exit ⟨0, 0, 0, 0, 0⟩] : List Instr),
    demoDs.goes i) ∧ (demoDs.seq.ds.map fun e => (e.kind, e.phase)) = [(0, false)] ∧
    (0xFF : Lanes) &&& ~~~ demoDs.g.xmask &&& ~~~ demoDs.g.pmask ≠ 0 := by delta State.goes; decide

/-- A lane alone on the then side. -/
def demoOne : State := (demo 0).updLane 15 fun e => { e with c := 1 }

theorem wit_Splitting : demoOne.goes (.split ⟨1, 0, 4⟩) ∧ demoOne.splits ⟨1, 0, 4⟩ = true ∧
    laneCount (demoOne.thenLanes ⟨1, 0, 4⟩) < laneCount (demoOne.act &&& ~~~ demoOne.thenLanes ⟨1, 0, 4⟩) ∧
    demoOne.goes (.split ⟨1, 1, 4⟩) ∧ demoOne.splits ⟨1, 1, 4⟩ = true ∧
    laneCount (demoOne.act &&& ~~~ demoOne.thenLanes ⟨1, 1, 4⟩) ≤ laneCount (demoOne.thenLanes ⟨1, 1, 4⟩) := by
  delta State.goes; decide

theorem wit_WaitsAndEnds : (∀ i ∈ ([.halt ⟨0, 0, 0, 0, 0⟩, .wait ⟨0, 0, 0, 0, 0⟩, .wait ⟨0, 40, 0, 0, 0⟩,
    .idle ⟨0, 0, 0, 0, 0⟩, .idle ⟨0, 40, 0, 0, 0⟩, .segld ⟨0, 0, 9, 0⟩, .fchk ⟨0, 0, 0, 0, 0⟩] : List Instr),
    (demo 0).goes i) ∧ (demo 0).operand 0 = 0 ∧ (demo 0).operand 40 = 1 ∧ (demo 0).tokenSet 0 = false := by
  delta State.goes; decide

theorem wit_IdleWaits : let s := (demo 0).raise 0
    s.goes (.idle ⟨0, 40, 0, 0, 0⟩) ∧ ∀ k < 8, ((s.operand 40).setWidth 8).getLsbD k = true →
      s.tokenSet (BitVec.ofNat 3 k) = true := by delta State.goes; decide

/-- Where an access of the demonstration lands. -/
def demoAt (a : Word) (n acc : Nat) : Option Nat :=
  match (demo 0).locateS ⟨a, n, acc⟩ with
  | .at_ key _ => some key
  | _ => none

theorem wit_LoadsAndStores : (∀ i ∈ ([.ld ⟨1, 2, 0x3F, 3, 0, 0⟩, .ld ⟨1, 2, 0, 0, 7, 1⟩, .ldx ⟨1, 2, 3, 3, 0, 1⟩,
    .st ⟨1, 2, 0x3F, 3, 0, 0⟩, .stx ⟨1, 2, 3, 3, 0, 0⟩, .amo ⟨1, 2, 7, 3, 0, 0⟩, .swap ⟨1, 2, 3, 2, 0, 0⟩,
    .cas ⟨1, 2, 3, 3, 0, 0⟩, .incb ⟨1, 2, 3, 3, 0, 0⟩, .pref ⟨0, 4, 1, 0, 1, 0⟩, .pref ⟨0, 2, 0, 0, 1, 0⟩,
    .fence ⟨0, 0, 0, 3, 0⟩] : List Instr), (demo 0).goes i) ∧ demoAt 120 8 0 = some 120 ∧ demoAt 1664 8 1 = some 1664 ∧
    demoAt 128 8 2 = some 128 ∧ demoAt 512 256 0 = some 512 ∧ demoAt 128 256 0 = none := by delta State.goes; decide

theorem wit_Barriers : (∀ i ∈ ([.barInit ⟨31, 2, 3, 1, 0⟩, .barArrive ⟨1, 31, 3, 1, 0⟩, .barWait ⟨0, 1, 3, 0, 0⟩,
    .barSync ⟨0, 1, 3, 0, 0⟩, .barExpect ⟨0, 1, 3, 1, 0⟩, .barTest ⟨1, 31, 0, 2, 0⟩, .sstep ⟨0, 0, 0, 0, 0⟩] :
    List Instr), (demo 0).goes i) ∧ ({ Barrier.clear with initd := true, arr := 4095, exp := 4095 } : Barrier).settle.phase = true ∧
    ({ Barrier.clear with initd := true, arr := 4094, exp := 4095 } : Barrier).settle.phase = false := by
  delta State.goes; decide

theorem wit_GangScalars : ∀ i ∈ ([.gballot ⟨1, 3, 0, 1, 0⟩, .gballot ⟨1, 0, 0, 0, 0⟩, .gscan ⟨1, 2, 3, 0, 0⟩,
    .gscan ⟨1, 2, 3, 1, 0⟩, .gscan ⟨1, 2, 3, 2, 0⟩, .greds ⟨1, 2, 0, 0, 0⟩, .greds ⟨1, 2, 0, 1, 0⟩, .greds ⟨1, 2, 0, 2, 0⟩,
    .greds ⟨1, 2, 0, 3, 0⟩, .greds ⟨1, 2, 0, 4, 0⟩, .greds ⟨1, 2, 0, 5, 0⟩, .greds ⟨1, 2, 0, 6, 0⟩,
    .greds ⟨1, 2, 0, 7, 0⟩] : List Instr), (demo 0).goes i := by delta State.goes; decide

theorem wit_QueuesAndSignals : (∀ i ∈ ([.qpush ⟨1, 2, 3, 1, 0⟩, .qres ⟨1, 2, 3, 1, 0⟩, .sig ⟨1, 2, 3, 1, 0⟩,
    .sigw ⟨1, 2, 3, 5, 0⟩, .next ⟨7, 0, 0, 0, 0⟩] : List Instr), (demo 0).goes i) ∧ demoAt 128 64 2 = some 128 ∧
    demoAt 192 64 0 = some 192 ∧ demoAt 128 8 2 = some 128 ∧ (demo 0).launch 1 = some demoLaunch ∧
    demoLaunch.reserveOf (demo 0).myDie = [2, 3] := by delta State.goes; decide

theorem wit_NextEmpty : (∀ s ∈ [{ demo 0 with launches := [] }, { demo 0 with launches := [{ demoLaunch with reserve := [], drawn := 8 }] }],
    s.goes (.next ⟨0, 0, 0, 0, 0⟩)) ∧ ({ demo 0 with launches := [] } : State).launch 1 = none := by
  delta State.goes; decide

theorem wit_TimeOperations : (∀ i ∈ ([.time ⟨1, 0, 0, 0, 0⟩, .slack ⟨1, 0, 0, 0, 0⟩, .slack ⟨1, 0, 0, 1, 0⟩,
    .prog ⟨0, 2, 0, 1, 0⟩, .vset ⟨1, 2, 3, 1, 0⟩, .vset ⟨1, 39, 3, 1, 0⟩, .ecommit ⟨1, 0, 0, 1, 0⟩, .endg ⟨0, 0, 0, 0, 0⟩,
    .endg ⟨0, 0, 0, 1, 0⟩] : List Instr), (demo 0).goes i) ∧ (demo 0).g.info.dline = true ∧ (demo 0).g.drain = .none ∧
    (demo 0).g.split = false ∧ demoAt 0x1010 8 2 = some 0x1010 := by delta State.goes; decide

theorem wit_TimeWithoutDeadline : let s := (demo 0).updG fun g => { g with info := { g.info with dline := false, bmAddr := 0 } }
    s.goes (.slack ⟨1, 0, 0, 0, 0⟩) ∧ s.goes (.vset ⟨1, 2, 3, 1, 0⟩) ∧ s.g.info.dline = false := by delta State.goes; decide

theorem wit_TrapAndSystemRegisters : (demo 0).goes (.trap ⟨0, 2, 3, 0⟩) ∧ demoSys.goes (.tret ⟨0, 0, 0, 0, 0⟩) ∧
    demoSys.goes (.sysr ⟨1, 2, 0, 0, 0⟩) ∧ demoSys.goes (.sysw ⟨0, 0, 3, 0, 0⟩) := by delta State.goes; decide

theorem wit_ServiceOperations : (∀ i ∈ ([.tlbinv ⟨0, 2, 0, 1, 0⟩, .pgshare ⟨0, 2, 0, 1, 0⟩, .pgunmap ⟨0, 2, 0, 1, 0⟩,
    .pgcow ⟨0, 2, 0, 1, 0⟩] : List Instr), demoSys.goes i) ∧ (∀ i ∈ ([.rfam ⟨0, 2, 4, 1, 0⟩, .rstat ⟨1, 2, 4, 1, 0⟩,
    .rcur ⟨1, 2, 0, 1, 0⟩] : List Instr), (demo 0).goes i) ∧ demoTwo.goes (.suspend ⟨0, 40, 0, 1, 0⟩) ∧
    ((demoTwo.targetOf 1 0).map Gang.gid) = some 2 := by delta State.goes; decide

theorem wit_Continuations : (demo 0).goes (.cont ⟨0, 2, 0, 0, 0⟩) ∧ demoSys.goes (.unpark ⟨0, 2, 0, 0, 0⟩) ∧
    (∀ i ∈ ([.parkrd ⟨1, 0, 0, 0, 0⟩, .parkrd ⟨1, 63, 0, 0, 0⟩, .parkrd ⟨1, 55, 0, 0, 0⟩, .parkrd ⟨1, 46, 0, 0, 0⟩] :
      List Instr), demoFull.goes i) ∧ demoFull.operand 55 = 16 ∧ demoFull.operand 46 = 7 ∧ demoFull.operand 63 = 8 ∧
    (demoFull.g.ring.map RingRec.pc) = [0x100] ∧ demoFull.goes (.cresume ⟨0, 2, 0, 0, 0⟩) ∧
    demoFull.g.held = some ⟨[], [], 0xFFFF, none⟩ := by delta State.goes; decide

theorem wit_TileArithmetic : ∀ i ∈ ([.tadd ⟨1, 2, 3, 0, 0, 0, 0⟩, .tsub ⟨1, 2, 3, 1, 0, 0, 0⟩, .tmul ⟨1, 1, 1, 2, 7, 0, 0⟩,
    .tfma ⟨1, 2, 3, 0, 0, 0, 0⟩, .tfms ⟨1, 2, 3, 0, 0, 0, 0⟩, .tmin ⟨1, 2, 3, 0, 0, 0, 0⟩, .tmax ⟨1, 2, 3, 0, 0, 0, 0⟩,
    .tabs ⟨1, 2, 0, 0, 0, 0, 0⟩, .tneg ⟨1, 2, 0, 0, 0, 0, 0⟩, .tclamp ⟨1, 2, 3, 0, 0, 0, 0⟩, .tcmp ⟨1, 2, 3, 4, 0, 0, 7⟩,
    .tsel ⟨1, 2, 3, 0, 0, 0, 0⟩, .texp2 ⟨1, 2, 0, 0, 0, 0, 0⟩, .tlog2 ⟨1, 2, 0, 0, 0, 0, 0⟩, .trcp ⟨1, 2, 0, 0, 0, 0, 0⟩,
    .trsq ⟨1, 2, 0, 0, 0, 0, 0⟩, .tsqrt ⟨1, 2, 0, 0, 0, 0, 0⟩, .ttanh ⟨1, 2, 0, 0, 0, 0, 0⟩, .tsigm ⟨1, 2, 0, 0, 0, 0, 0⟩,
    .tscl ⟨1, 2, 3, 0, 0, 0, 0⟩, .tadds ⟨1, 2, 63, 0, 0, 0, 0⟩] : List Instr), (demo 2).goes i := by
  delta State.goes; decide

theorem wit_TileIntegers : ∀ i ∈ ([.tiadd ⟨1, 2, 3, 4, 0, 0, 0⟩, .tisub ⟨1, 2, 3, 5, 0, 0, 0⟩, .timul ⟨1, 2, 3, 4, 0, 0, 0⟩,
    .tand ⟨1, 2, 3, 0, 0, 0, 0⟩, .tor ⟨1, 2, 3, 4, 0, 0, 0⟩, .txor ⟨1, 2, 3, 4, 0, 0, 0⟩, .tshl ⟨1, 2, 3, 4, 0, 0, 0⟩,
    .tshr ⟨1, 2, 3, 4, 0, 0, 0⟩, .tsar ⟨1, 2, 3, 4, 0, 0, 0⟩, .timin ⟨1, 2, 3, 4, 0, 0, 0⟩, .timax ⟨1, 2, 3, 4, 0, 0, 0⟩] :
    List Instr), (demo 1).goes i := by delta State.goes; decide

theorem wit_TileMoves : ∀ i ∈ ([.tcvt ⟨1, 2, 1, 0, 0, 0, 7⟩, .tmov ⟨1, 2, 0, 0, 0, 0, 0⟩, .tzero ⟨1, 0, 0, 0, 0, 0, 0⟩,
    .tiota ⟨1, 0, 0, 0, 0, 0, 0⟩, .tiota ⟨1, 0, 0, 0, 0, 0, 1⟩, .tiota ⟨1, 0, 0, 0, 0, 0, 2⟩, .ttrn ⟨1, 2, 0, 0, 0, 0, 0⟩,
    .shape ⟨1, 0, 3, 0, 0, 0, 0⟩, .shape ⟨1, 2, 0, 0, 0, 0, 1⟩, .shget ⟨1, 2, 0, 0, 0, 0, 0⟩] : List Instr),
    (demo 2).goes i := by delta State.goes; decide

theorem wit_RowsAndColumns : ∀ i ∈ ([.rrot ⟨1, 2, 3, 0, 0, 0, 0⟩, .rrot ⟨1, 2, 3, 0, 0, 0, 1⟩, .crot ⟨1, 2, 3, 0, 0, 0, 0⟩,
    .crot ⟨1, 2, 3, 0, 0, 0, 1⟩, .rbc ⟨1, 2, 3, 0, 0, 0, 0⟩, .cbc ⟨1, 2, 3, 0, 0, 0, 0⟩, .rred ⟨1, 2, 0, 0, 0, 0, 3⟩,
    .cred ⟨1, 2, 0, 0, 0, 0, 0⟩] : List Instr), (demo 2).goes i := by delta State.goes; decide

theorem wit_RowMasks : ∀ i ∈ ([.kcmp ⟨7, 2, 3, 0, 0, 0, 7⟩, .kop ⟨7, 2, 3, 0, 0, 0, 7⟩, .kset ⟨7, 0, 3, 0, 0, 0, 0⟩,
    .kset ⟨7, 0, 3, 0, 0, 0, 1⟩, .kset ⟨7, 2, 0, 0, 0, 0, 2⟩, .kcnt ⟨1, 7, 0, 0, 0, 0, 0⟩] : List Instr),
    (demo 2).goes i := by delta State.goes; decide

theorem wit_EngineScalars : ∀ i ∈ ([.eadd ⟨1, 2, 3, 0, 0, 0, 0⟩, .esub ⟨1, 2, 3, 0, 0, 0, 0⟩, .emul ⟨1, 2, 3, 0, 0, 0, 0⟩,
    .eand ⟨1, 2, 3, 0, 0, 0, 0⟩, .eor ⟨1, 2, 3, 0, 0, 0, 0⟩, .eshl ⟨1, 2, 3, 0, 0, 0, 0⟩, .eshr ⟨1, 2, 3, 0, 0, 0, 0⟩,
    .eshr ⟨1, 2, 3, 0, 0, 0, 1⟩, .emin ⟨1, 2, 3, 0, 0, 0, 0⟩, .emin ⟨1, 2, 3, 0, 0, 0, 1⟩, .emax ⟨1, 2, 3, 0, 0, 0, 0⟩,
    .emax ⟨1, 2, 3, 0, 0, 0, 1⟩, .ecmp ⟨3, 2, 3, 0, 0, 0, 7⟩, .esel ⟨1, 2, 3, 0, 0, 0, 3⟩, .eid ⟨1, 0, 0, 0, 0, 0, 0⟩,
    .eid ⟨1, 0, 0, 0, 0, 0, 1⟩, .emovt ⟨1, 2, 3, 0, 0, 0, 0⟩, .emovt ⟨1, 2, 3, 4, 0, 0, 1⟩, .etmov ⟨1, 2, 3, 0, 0, 0, 0⟩] :
    List Instr), (demo 2).goes i := by delta State.goes; decide

theorem wit_Exchanges : ∀ i ∈ ([.gshuf ⟨1, 2, 3, 0, 0, 0, 0⟩, .gbc ⟨1, 2, 3, 0, 0, 0, 0⟩, .grot ⟨1, 2, 3, 0, 0, 0, 0⟩,
    .grot ⟨1, 2, 3, 0, 0, 0, 1⟩, .gred ⟨1, 2, 0, 0, 0, 0, 3⟩, .gcomp ⟨1, 2, 3, 0, 0, 0, 0⟩] : List Instr),
    (demo 2).goes i := by delta State.goes; decide

theorem wit_LocalAccesses : ∀ i ∈ ([.tld ⟨1, 2, 3, 0, 0, 0, 0⟩, .tld ⟨1, 2, 3, 0, 0, 0, 1⟩, .tst ⟨1, 2, 3, 0, 0, 0, 0⟩,
    .tldk ⟨1, 2, 3, 0, 0, 0, 0⟩, .lde ⟨1, 2, 3, 1, 0, 0, 3⟩, .lde ⟨1, 2, 40, 0, 0, 0, 0⟩, .ste ⟨1, 2, 3, 0, 0, 0, 3⟩] :
    List Instr), (demo 2).goes i := by delta State.goes; decide

theorem wit_DenseProducts : ∀ i ∈ ([.mma ⟨1, 2, 3, 1, 1, 0, 0, 0⟩, .mmaz ⟨3, 2, 3, 4, 4, 0, 0, 1⟩, .mmat ⟨0, 2, 3, 1, 2, 7, 0, 0⟩] :
    List Instr), (demo 3).goes i := by delta State.goes; decide

theorem wit_SparseAndSelections : ∀ i ∈ ([.mmas ⟨1, 2, 3, 1, 1, 0, 0, 3⟩, .sqd ⟨1, 2, 3, 1, 1, 0, 0, 1⟩,
    .prune ⟨0, 2, 3, 1, 0, 0, 0, 0⟩, .topk ⟨1, 2, 3, 0, 0, 0, 0, 7⟩, .hsign ⟨1, 2, 3, 0, 0, 0, 0, 0⟩,
    .hidx ⟨0, 2, 3, 0, 0, 0, 0, 1⟩] : List Instr), (demo 3).goes i := by delta State.goes; decide

theorem wit_MatrixSelections : (∀ l ∈ (demo 3).actives, ((demo 3).g.lane l).rowBytes 2 % 16 = 0) ∧
    topkOk 0x4040 = true ∧ topkOk 0x4140 = false ∧ hsignOk 0x40000000 = false := by decide

theorem wit_AccumulatorMoves : ∀ i ∈ ([.accrd ⟨1, 0, 3, 0, 0, 0, 0, 4⟩, .accwr ⟨1, 2, 0, 0, 0, 0, 0, 4⟩,
    .accz ⟨1, 0, 0, 0, 0, 0, 0, 0⟩, .accscScale ⟨1, 0, 0, 6, 0, 0, 0, 1⟩, .accscLoad ⟨0, 2, 0, 0, 1, 0, 0, 1⟩,
    .accscStore ⟨0, 0, 3, 0, 2, 0, 0, 1⟩] : List Instr), (demo 3).goes i := by delta State.goes; decide

theorem wit_XSlotParts : (∀ i ∈ ([.copy ⟨1, 31, 2, 3, 0, 0⟩, .gather ⟨1, 31, 2, 3, 0, 0⟩, .scatter ⟨1, 0, 2, 3, 0, 0⟩,
    .put ⟨1, 31, 2, 3, 0, 0⟩, .get ⟨1, 31, 2, 3, 0, 0⟩, .rgath ⟨1, 31, 2, 3, 0, 0⟩, .fill ⟨1, 31, 2, 3, 0, 0⟩,
    .preft ⟨1, 31, 2, 3, 0, 0⟩, .pin ⟨1, 31, 2, 3, 0, 0⟩, .unpin ⟨1, 31, 2, 3, 0, 0⟩, .rprobe ⟨1, 31, 2, 3, 0, 0⟩,
    .rins ⟨1, 31, 2, 3, 0, 0⟩, .rdel ⟨1, 31, 2, 3, 0, 0⟩, .rmig ⟨1, 31, 2, 3, 0, 0⟩, .rret ⟨1, 31, 2, 3, 0, 0⟩] :
    List Instr), (demo 4).goes i ∧ (demo 5).goes i) ∧ (demo 4).actives ≠ [] ∧
    (∀ l ∈ (demo 4).actives, (demo 4).blockAt ⟨1, 31, 2, 3, 0, 0⟩ l = 128) ∧
    (demo 4).goes (.copy ⟨1, 31, 40, 3, 0, 0⟩) ∧
    (∀ l ∈ (demo 4).actives, (demo 4).blockAt ⟨1, 31, 40, 3, 0, 0⟩ l % 64 ≠ 0) := by delta State.goes; decide

theorem wit_EngineAccessesAndBatches : ∀ i ∈ ([.gld ⟨1, 31, 2, 3, 0, 3⟩, .gst ⟨1, 31, 2, 3, 0, 3⟩, .glde ⟨1, 31, 2, 3, 0, 3⟩,
    .gste ⟨1, 31, 2, 2, 0, 3⟩, .gamo ⟨1, 31, 2, 2, 0, 3⟩, .seal ⟨1, 31, 0, 0, 0, 0⟩, .bwait ⟨1, 31, 2, 0, 0, 0⟩,
    .bwait ⟨1, 31, 2, 0, 0, 1⟩] : List Instr), (demo 5).goes i := by delta State.goes; decide

/-! Witnesses of the statements about events. -/

/-- The demonstration with its sequencer 0 changed. -/
def demoQ (f : Machine.Seq → Machine.Seq) : State := (demo 0).updG fun g => { g with q0 := f g.q0 }

/-- The demonstration with its segment frame changed. -/
def demoFrames (f : SegFrame → SegFrame) : State :=
  (demo 0).updDie 0 fun d => { d with slots := d.slots.map fun x => { x with frames := x.frames.map f } }

/-- The demonstration at a time. -/
def demoAtTime (n : Nat) (s : State) : State := s.updDie 0 fun d => { d with tu := { d.tu with now := n } }

theorem wit_hasGang : (demo 0).hasGang 1 ∧ demoTwo.hasGang 2 := by delta State.hasGang; decide

theorem wit_SequencerEvents_waits : ((demoQ fun q => { q with block := .wait 0 }).focus 1).g.q0.block = .wait 0 ∧
    ((demoAtTime 50000 demoSys).focus 1).g.inSys = true ∧ 0 + 50000 ≤ ((demoAtTime 50000 demoSys).focus 1).now 0 := by decide

theorem wit_SequencerEvents_deferred : let g := ((demo 0).updG fun g => { g with deferred := [(0, 3, ⟨.barerr, 7, 0⟩)] }).g
    g.deferred = [(0, 3, ⟨.barerr, 7, 0⟩)] ∧ g.place.running = true ∧ g.mode = .user ∧ g.frozen = false ∧
    g.stopping = false := by decide

theorem wit_SequencerEvents_fetch :
    (∃ pc e, (demoFrames fun f => { f with fill := .failed ⟨.ecc, 1, 7⟩ }).fetch 0x100 false = .fault pc e) ∧
    (∃ h b, (demoFrames fun f => { f with data := [(0x100, 0x40)] }).fetch 0x100 false = .bad h b) :=
  ⟨⟨0x100, ⟨.ecc, 1, 7⟩, by decide⟩, ⟨0x100, ⟨⟨0x40⟩, [], some 0⟩, by decide⟩⟩

theorem wit_SequencerEvents_fragment : let g := ((demo 0).updG fun g => { g with split := true, q1 := { g.q1 with
      block := .fragmentOver } }).g
    g.split = true ∧ g.q1.block = .fragmentOver ∧ (∀ n ∈ g.q1.toks, n = 0) ∧ g.q1.sb = [] ∧ g.mode = .user := by decide

/-- A load, an atomic, a load that has a value under its lease, and a buffered store. -/
def demoAccess : State := demoQ fun q =>
  { q with
    acc := [⟨1, 0, 1, false, .load, 5, 0x40, 0x40, 8, false, none, false⟩], sb := [⟨4, 1, false, 0x80, 0x80, [1, 2], true⟩] }

def demoAtomic (k : AccKind) (got : Option (Word × Nat)) : State := demoQ fun q =>
  { q with acc := [⟨1, 0, 1, false, k, 5, 0x40, 0x40, 8, false, got, false⟩] }

theorem wit_AccessesArePerformed : ((demoAccess.g.q0.acc ++ demoAccess.g.q1.acc).find? fun b => b.tkt == 1).isSome = true ∧
    demoAccess.g.inOrder 0 1 = true ∧ (demoAtomic (.amo 0 1) none).g.inOrder 0 1 = true ∧
    (demoAtomic .load (some (9, 4))).g.olderStore 0 1 = false ∧ (demoAtomic .load (some (9, 4))).g.olderEng 0 1 = false ∧
    (demoAtomic .load (some (9, 4))).g.q0.pts ≤ 4 := by decide

theorem wit_AccessesArePerformed_store : let s := demoQ fun q => { q with sb := [⟨4, 1, false, 0x80, 0x80, [1, 2], true⟩] }
    (s.g.q0.acc ++ s.g.q1.acc).find? (fun b => b.tkt == 4) = none ∧ s.g.mayStore = true ∧
    s.g.q0.sb.find? (fun b => b.tkt == 4) = some ⟨4, 1, false, 0x80, 0x80, [1, 2], true⟩ ∧ s.g.inOrder 0 4 = true := by decide

/-- A frame that is being filled, and page tables with one page of 1 GiB at address 0. -/
def demoFilling : State := demoFrames fun f => { f with fill := .filling, len := 64, data := [] }

def demoTables : State :=
  { (demo 0).updDie 0 fun d => { d with parts := List.replicate 16 ⟨0x30000, 0, 0⟩ } with
    mem := [(0x30000, 1), (0x30002, 4), (0x40000, 0x4F)] }

theorem wit_MachineEvents : (∃ f t m, demoFilling.fillingFrame 0 0 0 = some f ∧
      demoFilling.readSegment 0 f 4 f.base f.len 0 [] = (t, .ok m)) ∧
    (∃ f t va, (demoFrames fun f => { f with fill := .filling, base := 2 ^ 40, len := 64 }).fillingFrame 0 0 0 = some f ∧
      (demoFrames fun f => { f with fill := .filling, base := 2 ^ 40, len := 64 }).readSegment 0 f 4 f.base f.len 0 [] =
        (t, .error va)) ∧
    (demoTables.walk 0 0 0x1234 1 = .ok 0x1234 ⟨0, 0, true, 0, true, true, true, false, true⟩) ∧
    (∀ pa e, (demo 0).walk 0 0 0x1234 1 ≠ .ok pa e) :=
  ⟨⟨_, _, _, rfl, rfl⟩, ⟨_, _, _, rfl, rfl⟩, by decide, fun pa e h => by
    have hw : (demo 0).walk 0 0 0x1234 1 = .fault (.page, 1) := by decide
    rw [hw] at h; cases h⟩

/-- One tokened operation outstanding. -/
def demoOp (k : OpKind) : State := (demo 0).updG fun g => { g with ops := [⟨1, 0, false, 1, 5, 0, k⟩] }

theorem wit_OperationsTakeEffect : (∀ k ∈ ([.prog 5, .vsetNone, .soon, .bwait [], .barTest 0, .barExpect 0 8, .qpush 0x2000 0x3000,
      .sig 0x2000 true 1 0] : List OpKind), ((demoOp k).g.ops.find? fun x => x.oid == 1).map TokOp.kind = some k ∧
      (demoOp k).g.olderBar 0 1 = false ∧ (demoOp k).g.olderPush 0 1 = false ∧ (demoOp k).g.inOrder 0 1 = true) ∧
    ((demoOp .soon).launch 1).isSome = true ∧
    (∃ e, ((demoOp .soon).barrier demoLaunch 0).expect 0 8 = .error e) ∧
    (∃ e, ({ Barrier.clear with initd := true, exp := 1 } : Barrier).expect 0 8 = .ok e) ∧
    (demoOp (.sig 0x2000 true 1 0)).g.fenced 0 1 0 = true := by
  refine ⟨by decide, by decide, ⟨_, rfl⟩, ⟨_, rfl⟩, by decide⟩

/-- A queue descriptor at 0x2000 of USER scope, with a ring of 4 packets at 0x8000 and a write index. -/
def demoQueue (widx : Nat) : State :=
  { demoOp (.qpush 0x2000 0x3000) with
    mem := (((demo 0).mem.put 0x2000 (leBytes 8 0x8000 ++ leBytes 8 4)).put 0x2010 (leBytes 8 widx)).put 0x2022 [1, 1] }

theorem wit_OperationsTakeEffect_queue : (demoQueue 0).scopeFault ((demoQueue 0).qdesc 0x2000) = none ∧
    ((demoQueue 0).qdesc 0x2000).widx < ((demoQueue 0).qdesc 0x2000).ridx + ((demoQueue 0).qdesc 0x2000).rsize ∧
    (demoQueue 0).agentAddr 0 0 (((demoQueue 0).qdesc 0x2000).slotVa 0) 1 = .ok 0x8000 ∧
    ((demoQueue 4).qdesc 0x2000).ridx + ((demoQueue 4).qdesc 0x2000).rsize ≤ ((demoQueue 4).qdesc 0x2000).widx := by
  refine ⟨by decide, by decide, by decide, by decide⟩

/-- One engine access outstanding. -/
def demoEng (k : EngKind) (va : Word) : State := (demo 0).updG fun g => { g with eng := [⟨1, 0, 1, 3, 5, 0x100, k, va, []⟩] }

/-- Where the engine access lands. -/
def engAt (k : EngKind) (va : Word) : Loc :=
  let s := demoEng k va
  s.locateFor (some 1) [] 0 0 false va.toNat k.bytes k.acc

theorem wit_EngineAccessesArePerformed : (∀ k ∈ ([.gld 8 0, .gst 8 0 [], .glde 1 8, .gste 8 5, .gamo 1 0 1] : List EngKind),
      engAt k 0x2000 = .at_ 0x2000 (some demoPage) ∧ (demoEng k 0x2000).g.inOrder 0 1 = true) ∧
    (∃ f, engAt (.gste 8 5) 0x2001 = .fault f) ∧ (demo 0).g.inAlloc 0 8 = true :=
  ⟨by decide, ⟨(.align, 1), by decide⟩, by decide⟩

/-- One part outstanding. -/
def demoPart (p : Part) : State := (demo 0).updG fun g => { g with parts := [p] }

/-- A PIN of n bytes of lane 0. -/
def pinPart (n : Nat) (started : Bool) : Part :=
  ⟨16, 0, 1, 4, 0x100, 0, .pin, none, leBytes 8 0x2000 ++ leBytes 8 n, 0, none, started, [], [], 0, [], false, 1⟩

theorem wit_PartsAreCarriedOut : ((demoPart (pinPart 256 false)).copyPart 16) = some (pinPart 256 false) ∧
    (∃ u ids, (demoPart (pinPart 256 false)).startCheck (pinPart 256 false) = .ok (u, ids)) ∧
    (∃ c i, (demoPart (pinPart 255 false)).startCheck (pinPart 255 false) = .error (some (c, i))) ∧
    (pinPart 256 true).started = true ∧ (pinPart 256 true).atPeer = false := by
  refine ⟨by decide, ⟨_, [], rfl⟩, ⟨_, _, rfl⟩, by decide, by decide⟩

/-- A FILL of one element of 4 bytes at local offset 0, started. -/
def fillPart : Part :=
  ⟨16, 0, 1, 4, 0x100, 0, .fill, none, List.replicate 256 0, 0, none, true, [], [], 0, [], false, 1⟩

theorem wit_PartsAreCarriedOut_items : ((demoPart fillPart).performItems fillPart fillPart.items
    (List.range fillPart.items.length)).2.2 = none := by decide

/-- A PUT and a GET to a peer whose port is in service. -/
def peerPart (k : PartKind) (sent : List Nat) : Part :=
  ⟨16, 0, 1, 4, 0x100, 0, k, none, List.replicate 0x10 0 ++ leBytes 4 8 ++ leBytes 12 (1 + 256), 0, none, true, [], [], 0, sent, false, 1⟩

theorem wit_PartsAreCarriedOut_retrieval :
    let p : Part := ⟨16, 0, 1, 4, 0x100, 0, .rprobe, none, List.replicate 32 0, 0, none, false, [], [], 0, [], false, 1⟩
    (demoPart p).g.parts.find? (fun r => r.pid == 16 && r.kind.retrieval) = some p ∧
      (demoPart p).g.inOrder 0 1 = true := by decide

/-- A packet in the hand of die 0's Referee, from the queue at 0x2000. -/
def pktOf (type flags : Nat) (f : List (Nat × Nat × Nat)) : List Byte :=
  let b := Memory.put [] 0 (leBytes 8 (type + 256 * flags))
  (f.foldl (fun (m : Memory) x => m.put x.1 (leBytes x.2.1 x.2.2)) b).bytes 0 64

def demoPacket (b : List Byte) (skip : Nat) (aborted : Bool) : State :=
  { demoQueue 1 with g := (demo 0).g }.updRef 0 fun r =>
    { r with queues := [⟨0x2000, 0, skip, some ⟨0x2000, 0, b, aborted, false, 0⟩, []⟩] }

/-- The packet is in hand, as the one of its type that the Referee acts on. -/
def inHand (s : State) (type : Nat) : Option (List Byte) := (s.packetOf 0 0x2000 type).map fun x => x.2.bytes

theorem wit_RefereePackets : (∀ b ∈ [pktOf 2 0 [], pktOf 2 2 [(8, 8, 0x3000)], pktOf 3 0 [(8, 8, 0x3000), (0x18, 2, 0x105)],
      pktOf 4 1 [(8, 8, 0x3000), (0x10, 8, 5), (0x18, 1, 1)], pktOf 5 0 [(8, 8, 0x3000), (0x10, 8, 0x4000), (0x18, 8, 8)],
      pktOf 6 0 [], pktOf 7 0 [], pktOf 1 0 [(8, 8, 0x3000)]],
      let t := byteField b 0 1
      inHand (demoPacket b 0 false) t = some b ∧ ∀ p, p = (⟨0x2000, 0, b, false, false, 0⟩ : Pkt) →
        p.headOk (if t = 2 then 0x20 else if t = 3 then 0x1A else if t = 4 then 0x19 else if t = 5 then 0x20 else
          if t = 6 then 8 else if t = 7 then 0x28 else 0x18) (if t = 1 then 0x40 else 0x38) = true) ∧
    (demo 0).refereeOn 0 = true ∧ State.reset.refereeOn 0 = false := by
  refine ⟨?_, by decide, by decide⟩
  simp only [List.forall_mem_cons, forall_eq]
  decide

theorem wit_RefereePackets_rest : inHand (demoPacket (pktOf 6 0 []) 1 false) 6 = none ∧
    ((demoPacket (pktOf 6 0 []) 1 false).queueOf 0 0x2000).map QState.skip = some 1 ∧
    ((demoPacket (pktOf 2 4 []) 0 false).packetOf 0 0x2000 2).map (fun x => x.2.headOk 0x20 0x38) = some false ∧
    (demo 0).agentAddr 0 0 0x3000 2 = .ok 0x3000 ∧ (demo 0).spanCheck 0 0 0x4000 8 0 = .ok ∧
    (demo 0).spanCheck 0 0 0x3000 8 1 = .ok ∧ (demo 0).backed 0 = true := by
  refine ⟨by decide, by decide, by decide, by decide, by decide, by decide, by decide⟩

theorem wit_RefereePackets_waits : let p : Pkt := ⟨0x2000, 0, pktOf 2 2 [(8, 8, 0x3000)], false, false, 0⟩
    let s := demoQueue 0
    s.waitValues 0 p = some [0] ∧
      ({ s with mem := s.mem.put 0x3007 [0x80] } : State).waitValues 0 p = some [2 ^ 63] ∧ p.abortNeg = true ∧ p.f 0 1 = 2 := by
  refine ⟨by decide, by decide, by decide, by decide⟩

/-- A launch record of one instance at 0x3000. -/
def demoRec : List (Nat × Nat × Nat) :=
  [(0x10, 4, 1), (0x14, 4, 1), (0x18, 4, 0x10010001), (0x74, 1, 3)]

theorem wit_LaunchesAreAdmitted : let b := ((demoRec.foldl (fun (m : Memory) x => m.put x.1 (leBytes x.2.1 x.2.2)) []).bytes 0 256)
    (demo 0).recCheck 0 0 0 b = .ok ∧ recOk b 0 = true ∧ recOk (List.replicate 256 0) 0 = false ∧
    (∀ x ∈ (demo 0).launches, x.stage ≠ .waiting) ∧ (demoLaunch.reserveOf 0).length < 8 ∧
    (∃ g ∈ (demo 0).gangs, g.info.lid = 1 ∧ g.place.running = true ∧ g.place.die = 0) := by
  refine ⟨by decide, by decide, by decide, by decide, by decide, ⟨(demo 0).g, by decide, by decide⟩⟩

theorem wit_LaunchesAreAdmitted_waiting : let l := { demoLaunch with stage := .waiting }
    let s : State := { demoPacket (pktOf 1 0 [(8, 8, 0x3000)]) 0 false with launches := [l] }
    s.refereeOn 0 = true ∧ l.info.home = 0 ∧ (s.admitOne 0 l).isSome = true := by
  refine ⟨by decide, by decide, by decide⟩

theorem wit_WorkIsPlaced : (((demo 0).firstFit 0).map fun x => (x.1.info.lid, x.2)) = some (1, (1, 0)) ∧
    (demo 0).readyLaunch demoLaunch = true ∧ (demo 0).refereeOn 0 = true ∧
    ((demoQ fun q => { q with block := .halted }).gangs.find? fun g => g.gid == 1).map Gang.over = some true := by
  refine ⟨by decide, by decide, by decide, by decide⟩

theorem wit_WorkIsPlaced_idle : let s := (demoAtTime 2000 { demo 0 with launches := [], g := Gang.empty }).updRef 0 fun r =>
      { r with idleSince := some 0 }
    s.refereeOn 0 = true ∧ s.idleDie 0 = true ∧ (s.die 0).ref.idleSince = some 0 ∧ 0 + 2000 ≤ s.now 0 := by decide

theorem wit_WorkIsPlaced_preempting : let s := (demo 0).updG fun g => { g with drain := .preempt 0 false }
    let t := { s with launches := [] }
    t.refereeOn 0 = true ∧ (t.firstFit 0).isNone = true ∧ t.preempting 0 = true := by decide

theorem wit_ContextsMove : let s := (demoQ fun q => { q with atDrain := true }).updG fun g => { g with drain := .preempt 0 true }
    s.g.drained = true ∧ s.g.place = .run 0 0 0 ∧ 0 + 15000 < (demoAtTime 15001 s).now 0 ∧ s.g.mode = .user ∧
    s.g.stopping = false ∧ s.g.q0.block ≠ .halted := by decide

theorem wit_ContextsMove_resumes : let s := (demo 0).updG fun g => { g with place := .shadow 0 0 0 }
    (s.gangs.find? fun x => x.gid == 1 && !x.stopping).map Gang.place = some (.shadow 0 0 0) ∧ s.g.drain = .none ∧
    (s.die 0).slotOn 0 = true ∧ (∀ x ∈ s.onSlot 0 0, x.place.running = true → x.info.cls ≠ 0) := by decide

theorem wit_ContextsMove_deadline : let s := demoAtTime 9000 { demo 0 with launches := [{ demoLaunch with trig := [0] }] }
    (s.launch 1).isSome = true ∧ demoLaunch.stage ≠ .waiting ∧ demoInfo.trigger ≤ s.now 0 ∧ demoInfo.deadline ≤ s.now 0 ∧
    s.g.onDie 0 = true ∧ s.g.drain ≠ .stop ∧ s.g ∈ s.gangs := by decide

theorem wit_ContextsMove_endgame : let s := (demoQ fun q => { q with atDrain := true }).updG fun g => { g with drain := .endgame 1 }
    s.g.entryReady = true ∧ s.g.pmask = 0 ∧ s.g.drain = .endgame 1 := by decide

/-- A time unit with a master, a dataset of it, and a message from it. -/
def demoUnit : TimeUnit := { TimeUnit.reset with
  selected := some 7, masters := [(7, 0, ⟨0, 0, 0, 0, 0, 0, 0, 37, 100⟩)], t1 := some 5, t2 := some 9, t3 := some 20 }

def demoMsg (two : Bool) : PtpMsg := ⟨0, 7, 3, 100, 110, 0, two⟩

theorem wit_TimeUnitEvents : demoUnit.hears (demoMsg false) = true ∧ demoUnit.hears (demoMsg true) = true ∧
    demoUnit.hears { demoMsg true with source := 8 } = false ∧ (demo 0).dies ≠ [] ∧ demoUnit.selected ≠ none ∧
    demoUnit.now ≤ 4 + 4 ∧ 4 ≤ demoUnit.now + 4 ∧ 0 + demoUnit.annto * 100 ≤ 300 ∧
    ({ demoUnit with synced := true } : TimeUnit).synced = true ∧ demoUnit.synced = false ∧
    ((demoMsg true).seqId = ({ demoMsg true with stamp := 200 } : PtpMsg).seqId) := by decide

theorem wit_DeviceEvents : (demo 0).backed 8 = true ∧ (demo 0).answers 3 = true ∧ (demo 0).answers 4 = false ∧
    plainReg 0x010 = true ∧ (0x2000000000000 : Word).extractLsb' 52 12 = 0 ∧ (demo 0).portOn 0 = false ∧
    ({ demo 0 with ports := [⟨true, true, 0⟩] } : State).portOn 0 = true ∧ (∀ g ∈ (demo 0).gangs, g.parts = []) ∧
    (State.reset.die 0).bootStage = 0 ∧ (({ Die.reset 0 with bootStage := 3 } : Die).bootStage = 3) := by decide

/-! Witnesses of the statements about encodings, steps and shared operations. -/

theorem wit_DecodeInvertsEncode : (Instr.add ⟨3, 1, 2, 0, 0⟩).encode = some (.S, 0x010C1080) ∧
    (Instr.add ⟨3, 1, 2, 0, 0⟩).fieldsOk = true ∧ (Instr.add ⟨3, 1, 2, 1, 0⟩).encode = some (.S, 0x010C1088) ∧
    (Instr.add ⟨3, 1, 2, 1, 0⟩).fieldsOk = false := by decide

theorem wit_BundleReadsBack : let b : Bundle := ⟨⟨0x7F⟩, (List.range 6).map fun n => (n, 0), some 5⟩
    b.words.map (·.1) = b.head.slots ∧ b.lit.isSome = b.head.l ∧ b.head.bits ≠ 0 ∧ b.head.slots ≠ [] ∧
    b.bytes.length = 30 ∧ Head.len ⟨0x7F⟩ = 30 := by decide

/-- The machine that fetches the word of ADD s3 := s1 + s2 next. -/
def demoFetch : State := State.reset.withFetchWord 32 0x010C1080

theorem wit_StepRunsDecoded : let s := demoFetch
    let u := s.atBundle 0 0 6 ⟨⟨1⟩, [(0, 0x010C1080)], none⟩
    s.agenda = [] ∧ s.g.clocked = true ∧ s.g.mode = .user ∧ s.g.stopping = false ∧ s.g.split = false ∧ s.g.deferred = [] ∧
    s.g.drain = .none ∧ s.g.q0.block = .none ∧
    (s.forSeq 0).fetch s.g.q0.pc s.g.q0.atEnd = .bundle 0 6 ⟨⟨1⟩, [(0, 0x010C1080)], none⟩ ∧
    u.decodeFault ⟨⟨1⟩, [(0, 0x010C1080)], none⟩ = none ∧ u.hurdle ⟨⟨1⟩, [(0, 0x010C1080)], none⟩ = .none := by
  refine ⟨?_, ?_, ?_, ?_, ?_, ?_, ?_, ?_, ?_, ?_, ?_⟩ <;> decide

theorem wit_Inv : Machine.Inv (demo 0) ∧ Machine.Inv State.reset := by delta Machine.Inv; decide

theorem wit_ResultsLandInTime : let s := (demo 0).updG fun g => { g with fl := [⟨3, [.sreg 0 5 9], false⟩] }
    s.g.mode = .user ∧ s.g.fl = [⟨2 + 1, [.sreg 0 5 9], false⟩] ∧ s.g.q1.block ≠ .starting := by decide

theorem wit_GateDecides : (Instr.add ⟨1, 2, 3, 0, 1⟩).encode.isSome = true ∧ (demo 0).gate (.add ⟨1, 2, 3, 0, 1⟩) = .skip ∧
    (demo 0).gate (.jr ⟨0, 2, 0, 0, 1⟩) = .skip ∧ (demo 0).divBusy.gate (.div ⟨1, 2, 3, 0, 0⟩) = .hold ∧
    (∃ e, (demo 0).gate (.tret ⟨0, 0, 0, 0, 0⟩) = .trap e) ∧ demoFull.gate (.fchk ⟨0, 0, 0, 0, 0⟩) = .converge :=
  ⟨by decide, by decide, by decide, by decide, ⟨_, rfl⟩, by decide⟩

theorem wit_TrapEntryAndReturn : (demo 0).g.mode = .user ∧ (demo 0).g.drain ≠ .stop ∧ demoSys.g.inSys = true ∧
    (demo 0).cur.ready = false ∧ (demo 0).cur.slot = 0 ∧ (demo 0).cur.lit.isSome = true ∧
    (Instr.tret ⟨0, 0, 0, 0, 0⟩).fieldsOk = true ∧ (Instr.sysw ⟨0, 2, 3, 0, 0⟩).codesOk = true := by decide

theorem wit_ScalarsIssue : (demo 0).cur.slot = 0 ∧ (demo 0).g.mode = .user ∧ (demo 0).seq.div = 0 ∧
    (∀ i ∈ ([.add ⟨1, 2, 3, 0, 0⟩, .div ⟨1, 2, 63, 1, 0⟩, .movs ⟨1, 0x1B, 0, 0, 0⟩, .slack ⟨62, 0, 0, 1, 0⟩] : List Instr),
      i.fieldsOk = true ∧ i.codesOk = true ∧ 63 ∉ i.scalarDests ∧ (demo 0).readPred (guardOf i) = true) := by decide

theorem wit_PartsAreCarriedOut_peer : let s := { demoPart (peerPart .put [1]) with ports := List.replicate 8 ⟨true, true, 0⟩ }
    let t := { demoPart (peerPart .get []) with ports := List.replicate 8 ⟨true, true, 0⟩ }
    (peerPart .put [1]).started = true ∧ (peerPart .put [1]).atPeer = true ∧ s.portLost (peerPart .put [1]) = false ∧
    (peerPart .get []).atPeer = true ∧ t.portLost (peerPart .get []) = false ∧ (peerPart .get []).f 0x10 4 = 8 := by decide

/-- Every lane has a control word in e2. -/
def demoCtl (w : Word) : State :=
  (demo 3).updG fun g => { g with lanes := g.lanes.map fun e => { e with e := updAt 2 (fun _ => w) e.e } }

theorem wit_MatrixSelections_words : (∀ l ∈ (demoCtl 0x4040).actives, topkOk (((demoCtl 0x4040).g.lane l).es 2).toNat = true) ∧
    (demoCtl 0x4040).goes (.topk ⟨1, 2, 3, 0, 0, 0, 0, 7⟩) ∧
    (∀ l ∈ (demoCtl 0x40000018).actives, hsignOk (((demoCtl 0x40000018).g.lane l).es 2).toNat = true) ∧
    (demoCtl 0x40000018).goes (.hsign ⟨1, 2, 3, 0, 0, 0, 0, 0⟩) ∧
    (∀ l ∈ (demo 3).actives, ∀ h < 16, (demo 3).hidxBad (((demo 3).g.lane l).store.le (0x3_0000 + 0x200 + 8 * h) 8) = false) := by
  delta State.goes; decide

theorem wit_DenseProducts_sizes : let e := (demo 3).g.lane 0
    min (min (e.rowBytes 2 * 8 / 16) (e.rows 3)) 64 % 8 = 0 ∧ 63 < e.rows 2 ∧ fSmode ((demo 3).fmt 1) = 0 ∧
    isInt (fElem ((demo 3).fmt 4)) = true ∧ fSat ((demo 3).fmt 4) = false := by decide

/-- Headers of 4 rows of 8 bytes stand at local offset 128 of every lane. -/
def demoTldk : State :=
  { demo 2 with mem := (List.range 16).foldl (fun m l => m.put ((demo 2).g.localKey l 128) [4, 8]) (demo 2).mem }

theorem wit_LocalAccesses_shapes : demoTldk.goes (.tldk ⟨1, 2, 2, 0, 0, 0, 0⟩) ∧ ∀ l ∈ demoTldk.actives,
    (demoTldk.operand 2 + (demoTldk.g.lane l).es 2).toNat = 128 ∧
    leValue (demoTldk.mem.bytes (demoTldk.g.localKey l 128) 8) = 0x804 ∧ shapeOk 4 8 = true ∧
    128 + 64 + 4 * 128 ≤ demoTldk.g.info.spBytes := by delta State.goes; decide

/-! Small steps. The results are worked out by hand from the rules named. -/

/-- A field of the next state, if there is one. -/
def after {α : Type} (o : Host.Outcome State Fault Refusal) (f : State → α) : Option α :=
  match o with
  | .next t => some (f t)
  | _ => none

/-- The landings that an instruction of a slot leaves in flight. -/
def lands (i : Instr) (s : State) : Option (List Landing) := after (exec i s) fun t => t.g.fl

/-- A machine whose s1 and s2 hold two words. -/
def two (a b : Word) : State := demoQ fun q => (q.setReg 1 a).setReg 2 b

/-- R112: a sum wraps; a signed high product of -1 and 2 is -1, an unsigned one is 1. -/
theorem test_add_mulh : lands (.add ⟨3, 1, 2, 0, 0⟩) (two (BitVec.allOnes 64) 1) = some [⟨1, [.sreg 0 3 0], false⟩] ∧
    lands (.mulh ⟨3, 1, 2, 0, 0⟩) (two (BitVec.allOnes 64) 2) = some [⟨3, [.sreg 0 3 (BitVec.allOnes 64)], false⟩] ∧
    lands (.mulh ⟨3, 1, 2, 1, 0⟩) (two (BitVec.allOnes 64) 2) = some [⟨3, [.sreg 0 3 1], false⟩] := by decide

/-- R113: -7 / 2 is -3 with remainder -1; the most negative number by -1 is itself; a division by 0 gives all ones. -/
theorem test_div_rem : lands (.div ⟨3, 1, 2, 0, 0⟩) (two (-7) 2) = some [⟨20, [.sreg 0 3 (-3)], false⟩] ∧
    lands (.rem ⟨3, 1, 2, 0, 0⟩) (two (-7) 2) = some [⟨20, [.sreg 0 3 (-1)], false⟩] ∧
    lands (.div ⟨3, 1, 2, 0, 0⟩) (two (BitVec.intMin 64) (-1)) = some [⟨20, [.sreg 0 3 (BitVec.intMin 64)], false⟩] ∧
    lands (.div ⟨3, 1, 0, 1, 0⟩) (two 5 0) = some [⟨20, [.sreg 0 3 (BitVec.allOnes 64)], false⟩] := by decide

/-- R115: a shift takes its count modulo 64; SAR keeps the sign. -/
theorem test_shifts : lands (.shl ⟨3, 1, 2, 0, 0⟩) (two 3 65) = some [⟨1, [.sreg 0 3 6], false⟩] ∧
    lands (.sar ⟨3, 1, 2, 0, 0⟩) (two (-8) 1) = some [⟨1, [.sreg 0 3 (-4)], false⟩] := by decide

/-- R116: signed less-than, code 2, into p1; unsigned, code 6, differs on a negative number. -/
theorem test_cmp : lands (.cmp ⟨0x11, 1, 2, 0, 0⟩) (two (-1) 1) = some [⟨1, [.pred 0 1 true], false⟩] ∧
    lands (.cmp ⟨0x31, 1, 2, 0, 0⟩) (two (-1) 1) = some [⟨1, [.pred 0 1 false], false⟩] := by decide

/-- R121: three bits from bit 4, sign-extended. -/
theorem test_bfx : lands (.bfx ⟨3, 1, 2, 1, 0⟩) (two 0x50 0x304) = some [⟨1, [.sreg 0 3 (-3)], false⟩] ∧
    lands (.bfx ⟨3, 1, 2, 0, 0⟩) (two 0x50 0x304) = some [⟨1, [.sreg 0 3 5], false⟩] := by decide

/-- R119, R120: MOVHI keeps the low half of d; 64 leading zeros of 0. -/
theorem test_movhi_clz : lands (.movhi ⟨1, 2, 1, 0⟩) (two 5 1) = some [⟨1, [.sreg 0 1 0x200000005], false⟩] ∧
    lands (.clz ⟨3, 0, 0, 0, 0⟩) (two 5 1) = some [⟨1, [.sreg 0 3 64], false⟩] := by decide

/-- R322, R323, R326: ILL 0x04 for a literal that is not there, at the bundle's head, with the handler of the partition
next. -/
theorem test_trap : after (exec (.add ⟨3, 63, 2, 0, 0⟩) { two 1 2 with cur := { (two 1 2).cur with lit := none } })
    (fun t => (t.g.trapCause, t.g.trapPc, t.g.trapInfo, t.g.inSys, t.g.q0.pc)) =
      some (1, 0x100, 0x010FF08000000004, true, 0) := by decide

/-- R53, R83: BR that is taken goes to head + 2 disp after two delay bundles. -/
theorem test_br : after (exec (.br ⟨0, 0, 0xFFFFE⟩) (demo 0)) (fun t => t.g.q0.xfer) =
    some (some ⟨some 0xFC, 2, none, .nothing⟩) := by decide

/-- R143, R146: a store of the low 2 bytes waits in the store buffer; performing it writes them, little-endian. -/
theorem test_st : after (exec (.st ⟨1, 4, 1, 1, 2, 0⟩) (two 0x1234 0)) (fun t => (t.g.q0.sb.map fun e => (e.key, e.data),
    t.g.q0.toks)) = some ([(0x102, [0x34, 0x12])], [0, 0, 1, 0, 0, 0, 0, 0]) := by decide

/-- R145: INCB of a counter that has reached its bound leaves it and returns what it held. -/
theorem test_atomics : (AccKind.incb 5).newValue 8 4 = 5 ∧ (AccKind.incb 5).newValue 8 5 = 5 ∧
    (AccKind.cas 4 9).newValue 8 4 = 9 ∧ (AccKind.cas 4 9).newValue 8 5 = 5 ∧
    (AccKind.amo 0 7).newValue 4 0xFFFFFFFF = 6 := by decide

/-- R63, R64: 1.0, the largest finite number and the smallest subnormal of the formats, and an FP8 E4M3 NaN. -/
theorem test_formats : encodeF 0 0 (decodeElem 1 false 0x3F80) = (0x3F800000, 0) ∧
    encodeF 0 0 (decodeElem 2 false 0x3C00) = (0x3F800000, 0) ∧ encodeF 0 0 (decodeElem 3 false 0x38) = (0x3F800000, 0) ∧
    encodeF 0 0 (decodeElem 3 false 0x7E) = (0x43E00000, 0) ∧ (decodeElem 3 false 0x7F).isNan = true ∧
    encodeF 0 0 (decodeElem 2 false 0x0001) = (0x33800000, 0) := by decide

/-- R67, R74: 1 + 1 = 2 in BF16, and 1 + 2^-9 rounds to 1, inexactly. -/
theorem test_bf16 : encodeFormed 1 1 ((decodeElem 1 false 0x3F80).add 0 (decodeElem 1 false 0x3F80)) = (0x4000, 0) ∧
    (encodeFormed 1 1 ((decodeElem 1 false 0x3F80).add 0 (decodeElem 1 false 0x3B00))).1 = 0x3F80 := by decide

/-- R25, R28: a line that holds one NOP bundle, and then ends. -/
theorem test_readLine : readLine [1, 0, 0, 0, 0, 0, 0, 0] = .bundle ⟨⟨1⟩, [(0, 0)], none⟩ ∧ readLine [0, 0] = .lineEnd ∧
    readLine [0x40, 0, 0, 0, 0, 0] = .bad ⟨⟨0x40⟩, [], some 0⟩ := by decide

/-- The word placed for the next step is decoded and issued by it: s3 is due a cycle later (R41, R45, R112). -/
theorem test_step : after (step demoFetch) (fun t => (t.g.q0.pc, t.g.cycle, t.g.q0.reg 3)) = some (6, 1, 0) := by decide


/-! Witnesses of further clauses of the statements. -/

/-- The demonstration at the end of a bundle, with its sequencer 0 changed, in a delay slot or not. -/
def demoEnd (delay : Bool) (f : Machine.Seq → Machine.Seq) : State :=
  let s := demoQ f
  { s with cur := { s.cur with delay := delay } }

theorem wit_Branches_finish : (∀ x ∈ [(⟨some 0x40, 2, none, .nothing⟩ : Xfer), ⟨some 0x40, 1, some 0xF, .nothing⟩,
      ⟨none, 1, some 0xF, .nothing⟩], let s := demoEnd true fun q => { q with xfer := some x }
      s.seq.xfer = some x ∧ s.cur.delay = true ∧ s.seq.frames = []) ∧
    (demoEnd false id).seq.xfer = none ∧ (demoEnd false id).seq.frames = [] := by decide

/-- A loop frame whose END is the bundle about to end. -/
def demoFrameAt (n neff j stages : Nat) : Frame := ⟨0x280, 0x100, n, neff, j, stages, false⟩

/-- With one such frame, an outer one, and a drain request or none. -/
def demoLoop (n neff j stages : Nat) (d : Drain) : State := (demoEnd false fun q =>
  { q with frames := [demoFrameAt n neff j stages, ⟨0x280, 0x500, 1, 1, 0, 1, false⟩] }).updG fun g => { g with drain := d }

theorem wit_Loops_finish : (∀ p ∈ [(3, 3, 0, 1), (3, 3, 2, 1), (3, 3, 3, 2)],
      let s := demoLoop p.1 p.2.1 p.2.2.1 p.2.2.2 .none
      s.g.mode = .user ∧ s.seq.xfer = none ∧ s.g.drain = .none ∧ (s.seq.frames.map Frame.fin) = [s.cur.head, 0x500]) ∧
    0 + 1 < 3 + 1 - 1 ∧ 3 + 1 - 1 ≤ 2 + 1 ∧ 3 + 2 - 1 ≤ 3 + 1 ∧ (demoLoop 3 3 0 2 (.preempt 0 true)).g.drain = .preempt 0 true ∧
    0 + 1 < min 3 (0 + 1) + 2 - 1 ∧ min 3 (0 + 1) + 1 - 1 ≤ 0 + 1 ∧ (demoLoop 3 3 0 2 .none).cur.ready = false ∧
    (∀ fs ∈ [[demoFrameAt 3 3 0 1], [⟨0x280, 0x500, 1, 1, 0, 1, false⟩, demoFrameAt 3 3 0 1]],
      let s := demoEnd true fun q => { q with frames := fs, xfer := some ⟨some 4, 1, none, .popLoop 1⟩ };
      s.seq.xfer = some ⟨some 4, 1, none, .popLoop (0 + 1)⟩ ∧ s.seq.frames = fs ∧ s.cur.head = 0x100) := by
  decide

theorem wit_Splitting_finish : let s := demoEnd true fun q => { q with
      ds := [⟨0x140, 0x180, 0xFF, 0xFFFF, false, 1⟩], xfer := some ⟨some 0x140, 1, some 0xFF00, .startFragment false 0xFF⟩ }
    s.cur.q = 0 ∧ s.cur.delay = true ∧ s.g.q0.frames = [] ∧ s.g.q0.ds = [⟨0x140, 0x180, 0xFF, 0xFFFF, false, 1⟩] ∧
    s.g.q0.xfer = some ⟨some 0x140, 1, some 0xFF00, .startFragment false 0xFF⟩ := by decide

theorem wit_Splitting_starts : ∀ fl ∈ [([] : List Landing), [⟨1, [.sreg 0 5 77], false⟩]],
    let s := (demo 0).updG fun g => { g with fl := fl, q1 := { g.q1 with block := .starting } }
    s.g.mode = .user ∧ s.g.q1.block = .starting ∧ s.g.fl = fl := by decide

theorem wit_WaitsAndEnds_more : (∀ a ∈ [After.endInstance, .endFragment],
      let s := demoEnd true fun q => { q with xfer := some ⟨none, 1, none, a⟩ }
      s.seq.xfer = some ⟨none, 1, none, a⟩ ∧ s.cur.delay = true) ∧
    (let s := demoQ fun q => { q with block := .idle 1 };
      s.seq.block = .idle 1 ∧ s.tokenSet 0 = false ∧ (s.raise 0).tokenSet 0 = true ∧ (s.raise 0).seq.block = .idle 1) ∧
    (demo 0).goes (.segld ⟨0, 0, 0, 0⟩) ∧ ((demo 0).frameOf 0).map SegFrame.fill = some .resident ∧
    (demo 0).frameOf 1 = none := by delta State.goes; decide

theorem wit_QueuesAndSignals_poll : let s := demoQ fun q => { q with block := .sigw 0x0C 3 1 5 }
    (s.g.seq 0).block = .sigw 0x0C 3 1 5 ∧ s.unseen = [] ∧ s.g.inOrder 0 s.tkt = true ∧ s.mem.le 0x0C 8 = 0x01FF := by decide

theorem wit_TrapAndSystemRegisters_more : (demoSys.updG fun g => { g with q0 := { g.q0 with block := .tret } }).g.q0.block = .tret ∧
    (∀ n ∈ demoSys.g.q0.systoks, n = 0) ∧ demoSys.g.fl = [] ∧ demoSys.g.drain = .none ∧ demoSys.g.egMark = none ∧
    0 < (demo 0).dies.length ∧ ((demo 0).die 0).notify.length = 16 ∧ ((demo 0).die 0).parts.length = 16 ∧
    (demo 0).ports.length = 8 := by decide

theorem wit_ServiceOperations_flush : (∀ k ∈ ([.tlbinv 0 0 0, .tlbinv 0 0x50 0] : List OpKind), let t := (demoOp k).focus 1
      (t.g.ops.map TokOp.kind) = [k] ∧ t.g.fenced 0 1 0 = true) ∧
    (∃ c ∈ demoTwo.gangs, c.gid = 2 ∧ c.stopping = false ∧ c.halted = false) ∧ (∀ c ∈ (demo 0).gangs, c.gid ≠ 2) ∧
    ((demoOp (.rfam 16 0)).g.inOrder 0 1 = true) := by
  refine ⟨by decide, ⟨{ demoGang with gid := 2, place := .run 0 1 0 }, by decide, by decide⟩, by decide, by decide⟩

/-- A family descriptor at 0x3000. -/
def demoFam : State := { demoOp (.rfam 15 0x3000) with mem := (demo 0).mem.put 0x3000 [1, 2, 3, 4, 24] }

theorem wit_ServiceOperations_rfam : demoFam.rAddr 0x3000 0 = .ok 0x3000 ∧ demoFam.mem.le 0x3004 1 = 24 ∧
    (∀ i, 5 ≤ i → i < 64 → demoFam.mem.get (0x3000 + i) = 0) ∧ demoFam.myDie < demoFam.dies.length := by
  refine ⟨by decide, by decide, by decide, by decide⟩

/-- A table of 16 buckets at 0x4000, its descriptor at 0x1000 and the list at 0x400; in state 1 the new generation stands at
0x5000. The entries are row id 0. -/
def demoTable (state policy cursor : Nat) (ps : List Part) : State :=
  let s := (demo 0).updG fun g => { g with info := { g.info with tabList := 0x400 }, parts := ps }
  let m : Memory := [(0x401, 0x10), (0x1001, 0x40), (0x1009, 0x50), (0x1011, 0x60), (0x1019, 0x61), (0x1030, 4), (0x1031, 4),
    (0x1032, BitVec.ofNat 8 policy), (0x1033, BitVec.ofNat 8 state), (0x1034, BitVec.ofNat 8 cursor), (0x4083, 0xFF)]
  { s with mem := m.filter fun c => c.2 != 0 }

/-- The table it reads. -/
def tableOf (s : State) : Option (Nat × Nat × Nat × Nat) :=
  match s.table 0 2 with
  | .ok t => some (t.pa, t.state, t.policy, t.cursor)
  | .error _ => none

theorem wit_Retrieval_tables : tableOf (demoTable 0 0 0 []) = some (0x1000, 0, 0, 0) ∧
    tableOf (demoTable 1 1 0 []) = some (0x1000, 1, 1, 0) ∧ tableOf (demoTable 1 0 16 []) = some (0x1000, 1, 0, 16) ∧
    tableOf (demo 0) = none := by refine ⟨by decide, by decide, by decide, by decide⟩

/-- A retrieval part with a command block. -/
def retPart (k : PartKind) (b : List Byte) : Part := ⟨16, 0, 1, 4, 0x100, 0, k, none, b, 0x800, none, false, [], [], 0, [], false, 1⟩

/-- RPROBE of one row at local offset 0x100 in table 0, its list at 0x900, for one candidate. -/
def probeBlk : List Byte := [0, 1, 0, 0, 64, 0, 0, 0, 0, 9, 0, 0, 1, 0, 1, 0, 1] ++ List.replicate 15 0

/-- The chain of bucket x of table 0: how many buckets and blocks it has. -/
def chainLen (s : State) (x : Nat) : Option Nat :=
  match s.table 0 2 with
  | .ok t =>
    match s.chain t 0 x 0 with
    | .ok c => some c.length
    | .error _ => none
  | .error _ => none

theorem wit_PartsAreCarriedOut_probe : let p := retPart .rprobe probeBlk
    let s := demoTable 0 0 0 [p]
    p.f 0 4 = 0x100 ∧ p.f 4 4 = 64 ∧ p.f 8 4 = 0x900 ∧ p.f 12 2 = 1 ∧ p.f 14 2 = 1 ∧ p.f 16 1 = 2 ^ 0 ∧ p.f 0x11 3 = 0 ∧
    p.f 0x18 8 = 0 ∧ s.g.inAlloc 0x100 8 = true ∧ s.g.inAlloc 0x900 8 = true ∧ s.localLe 0 0x100 4 = 0 ∧
    chainLen s 0 = some 1 := by refine ⟨?_, ?_, ?_, ?_, ?_, ?_, ?_, ?_, ?_, ?_, ?_, ?_⟩ <;> decide

theorem wit_PartsAreCarriedOut_update : ∀ k ∈ [PartKind.rins, .rdel],
    let p := retPart k ([0, 2, 0, 0, 1, 0, 0, 0] ++ List.replicate 24 0)
    p.phase = 0 ∧ p.f 0 4 % 16 = 0 ∧ p.f 4 4 = 1 ∧ (p.block.drop 8).all (· == 0) = true ∧ demoGang.inAlloc (p.f 0 4) 16 = true := by
  decide

theorem wit_PartsAreCarriedOut_migration :
    let p := retPart .rmig ([0, 1, 0, 0, 0, 3, 0, 0, 64, 1, 0, 0] ++ List.replicate 20 0)
    p.f 0 1 ≤ 7 ∧ p.f 1 1 = 1 ∧ p.f 2 2 = 0 ∧ p.f 4 4 % 16 = 0 ∧ 16 + 304 * 1 ≤ p.f 8 4 ∧ (p.block.drop 12).all (· == 0) = true ∧
    demoGang.inAlloc (p.f 4 4) (p.f 8 4) = true ∧ min 1 (2 ^ 4 - 0) ≠ 0 ∧ 16 ≤ 16 ∧
    ((retPart .rret (List.replicate 32 0)).block.drop 8).all (· == 0) = true := by decide

theorem wit_OperationsTakeEffect_more : let t := demoOp (.ecommit 0)
    t.g.fencedAll 1 0 = true ∧ t.g.inOrder 0 1 = true ∧ t.g.wrote = [] ∧ t.unseen = [] ∧ demoLaunch.tally.committed = false ∧
    t.recordAt 0 0 0 = .ok none ∧ t.recordAt 0 0 0x5000 = .ok (some 0x5000) ∧ t.g.batchesDone 0 = true ∧
    t.g.olderQueueOp 0 1 0x2000 = false ∧ ((demoOp (.segld 0)).frameOf 0).map SegFrame.fill = some .resident ∧
    (demoFilling.frameOf 0).map SegFrame.fill = some .filling := by
  refine ⟨by decide, by decide, by decide, by decide, by decide, by decide, by decide, by decide, by decide, by decide, by decide⟩

theorem wit_EngineAccessesArePerformed_more : engAt (.gld (gldLen 1) 8) 0x2000 = .at_ 0x2000 (some demoPage) ∧
    engAt (.gst (gldLen 1) 8 (List.replicate 64 9)) 0x2000 = .at_ 0x2000 (some demoPage) ∧ gldLen 1 = 64 ∧
    (demo 0).g.inAlloc 8 64 = true ∧ (demo 0).g.inAlloc 0xC0000 8 = false ∧ (demo 0).g.paths = [] ∧
    (EngKind.gld 8 4).localSide = some (4, 8) := by refine ⟨by decide, by decide, by decide, by decide, by decide, by decide, by decide⟩

/-- A FILL of one 4-byte element at the data address 0x3004. -/
def fillOne : Part :=
  let b := Memory.put (Memory.put (Memory.put (Memory.put [] 0 [0x78, 0x56, 0x34, 0x12]) 0x60 (leBytes 8 0x3004)) 0x68
    [0, 1, 0]) 0x70 [4]
  ⟨16, 0, 1, 4, 0x100, 0, .fill, none, (b.put 0xD8 [1]).bytes 0 256, 0x800, none, true, [], [], 0, [], false, 1⟩

theorem wit_PartsAreCarriedOut_unit : (fillOne.items.map fun l => l.map fun m => (m.bits, m.value, m.src)) =
      [[(32, 0x12345678, none)]] ∧ (∃ t, (demoPart fillOne).refUse fillOne (.va 0x3004) 4 1 = .ok (t, 0x3004)) ∧
    fillOne.started = true ∧ fillOne.atPeer = false ∧ fillOne.got = [] ∧ fillOne.done = [] :=
  ⟨by decide, ⟨_, rfl⟩, by decide, by decide, by decide, by decide⟩

/-- A COPY packet of 16 bytes that has been taken and has moved some. -/
def demoMoving (moved : Nat) : State := { demoQueue 1 with g := (demo 0).g }.updRef 0 fun r =>
  { r with queues := [⟨0x2000, 0, 0, none,
    [⟨0x2000, 0, pktOf 5 0 [(8, 8, 0x3000), (0x10, 8, 0x4000), (0x18, 8, 16)], false, false, moved⟩]⟩] }

theorem wit_RefereePackets_copy : (∀ n ∈ [0, 8, 16], ((demoMoving n).queueOf 0 0x2000).map (fun x => x.open_.map fun p =>
      (p.moved, p.f 0 1, p.f 0x18 8, p.csig)) = some [(n, 5, 16, 0)]) ∧ (demoMoving 0).mem.wf = true ∧
    (demoMoving 0).agentAddr 0 0 0x3000 1 = .ok 0x3000 ∧ (demoMoving 0).agentAddr 0 0 0x4000 0 = .ok 0x4000 ∧
    0x3000 % 2 ^ 17 + 16 ≤ 2 ^ 17 ∧ (demoMoving 0).unseen = [] := by
  refine ⟨by decide, by decide, by decide, by decide, by decide, by decide⟩

/-- A run list at 0x9000 whose entry 0 names the queue at 0x2000. -/
def demoRunList (widx : Nat) : State :=
  let s := { demoQueue widx with g := (demo 0).g }
  ({ s with mem := (s.mem.put 0x9001 [0x20]).put 0x8000 [6] }.updDie 0 fun d => { d with rlbase := 0x9000 }).updRef 0 fun r =>
    { r with queues := [⟨0x2000, 0, 0, none, []⟩] }

theorem wit_RefereePackets_poll : (∀ w ∈ [0, 1], let s := demoRunList w
      s.refereeOn 0 = true ∧ s.backed ((s.die 0).rlbase.toNat + 8 * 0) = true ∧ s.mem.le ((s.die 0).rlbase.toNat + 8 * 0) 8 = 0x2000 ∧
      s.backed 0x2000 = true ∧ (s.qdesc 0x2000).home = 0 ∧ (s.qdesc 0x2000).bad = false ∧ (s.qdesc 0x2000).state = 0 ∧
      (s.qdesc 0x2000).widx = w ∧ (s.queueOf 0 0x2000).isSome = true) := by
  simp only [List.forall_mem_cons, List.not_mem_nil, false_implies, implies_true, and_true]
  refine ⟨⟨by decide, by decide, by decide, by decide, by decide, by decide, by decide, by decide, by decide⟩,
    by decide, by decide, by decide, by decide, by decide, by decide, by decide, by decide, by decide⟩

/-- A LAUNCH packet in hand, its record at 0x3000 with some fields changed. -/
def demoLaunching (f : List (Nat × Nat × Nat)) : State :=
  let s := demoPacket (pktOf 1 0 [(8, 8, 0x3000)]) 0 false
  { s with launches := [], mem := (demoRec ++ f).foldl (fun (m : Memory) x => m.put (0x3000 + x.1) (leBytes x.2.1 x.2.2)) s.mem }

theorem wit_LaunchesAreAdmitted_packet : let s := demoLaunching []
    (s.packetOf 0 0x2000 1).map (fun x => (x.2.headOk 0x18 0x40, x.2.f 8 8, x.2.f 0x10 8, s.slotCheck 0 x.2)) =
      some (true, 0x3000, 0, .ok) ∧ s.addrCheck 0 0 0 64 1 = .ok ∧ s.launches = [] ∧ s.signalLocked 0 0 0 = false := by
  refine ⟨by decide, by decide, by decide, by decide⟩

theorem wit_LaunchesAreAdmitted_waits : let l := { demoLaunch with stage := .waiting, qd := 0x2000, pkt := 0 }
    let s : State := { demoPacket (pktOf 1 0 [(8, 8, 0x3000)]) 0 false with launches := [l] }
    (s.waitingPacket l).map Pkt.idx = some 0 ∧ (s.die 0).windows.findIdx? (·.isNone) = some 0 ∧
    s.adaptLocked 0 0 l.handles = false ∧ l.handles = [] ∧ s.spanCheck 0 0 l.info.bmAddr.toNat l.info.bitmapBytes 1 = .ok := by
  refine ⟨by decide, by decide, by decide, by decide, by decide⟩

/-- Four adaptation slots' worth of registers, and entry 1 not resident. -/
def demoAdapt : State :=
  { demo 0 with mem := [(0xA001, 0x40), (0xA009, 1)] }.updDie 0 fun d =>
    { d with atbase := 0xA000, atlen := 4, adbase := 0x100000, adsize := 0x1000 }

theorem wit_LaunchesAreAdmitted_handles : (match demoAdapt.adaptEntry 0 0 1 with
      | .ok e => (byteField e 0 8, byteField e 8 4, byteField e 0x10 8, zeroField e 0x19 7)
      | .error _ => (0, 0, 0, false)) = (0x4000, 256, 0, true) ∧ (∀ x < 4, demoAdapt.slotHolding x 1 = none) ∧
    demoAdapt.freeSlots 0 1 = [0] ∧ demoAdapt.loadLocked 0 0 1 = false := by
  refine ⟨by decide, by decide, by decide, by decide⟩

theorem wit_LaunchesAreAdmitted_refill : let l := { demoLaunch with cx := 10, cy := 10, returned := [3, 1, 2], drawn := 9, reserve := [(0, [0]), (1, [5])] }
    demoLaunch.returned = [] ∧ 1 ∈ l.returned ∧ (∀ x ∈ l.returned, 1 ≤ x) ∧
    ((l.reserve.map (·.2)).flatten ++ l.returned).Nodup ∧ ∀ k ∈ (l.reserve.map (·.2)).flatten ++ l.returned, k < l.drawn := by
  decide

theorem wit_ContextsMove_shadow : (∀ d ∈ [Drain.preempt 0 true, .preempt 0 false, .suspend 0 [0x2000]],
      let s := (demoQ fun q => { q with atDrain := true }).updG fun g => { g with drain := d }
      s.g.place = .run 0 0 0 ∧ s.g.drained = true ∧ s.g.heldBack = false) ∧
    (let s := (demoQ fun q => { q with atDrain := true }).updG fun g =>
        { g with drain := .preempt 0 false, place := .shadow 0 0 0 };
      s.g.movable = true ∧ s.untargeted s.g = true ∧ s.spillFree 0 = none ∧
      (s.updDie 0 fun d => { d with spillbase := 0x1000000, spilln := 4 }).spillFree 0 = some 0) := by decide

theorem wit_DeviceEvents_more : let s : State := { demo 0 with ports := List.replicate 8 ⟨true, true, 0⟩ }
    s.unseen = [] ∧ s.portOn 7 = true ∧ s.agentAddr 0 0 0x4008 1 = .ok 0x4008 ∧ 0x4008 % 8 = 0 ∧
    (∃ f, s.agentAddr 0 0 (2 ^ 38) 1 = .error (some f)) ∧
    (peerPart .put [1]).peer = some 0 ∧ (peerPart .put [1]).atPeer = true ∧ (demo 0).others = [] ∧
    regAccess 0x020 ≠ .absent ∧ (demo 0).answers (homeDie 8) = true ∧
    (((demo 0).updDie 0 fun d => { d with failed := true }).answers (homeDie 8)) = false := by
  refine ⟨by decide, by decide, by decide, by decide, ⟨_, rfl⟩, by decide, by decide, by decide, by decide, by decide, by decide⟩

/-! Number formats, with the results of R72 and R75. -/

/-- R72: 0.3 in F8E4 under each mode, and -0.3; 2.5 and 5 in F4 under RNE and RUP. -/
theorem test_rounding : (∀ p ∈ [(0, 0x2A, 0xAA), (1, 0x29, 0xA9), (2, 0x29, 0xAA), (3, 0x2A, 0xA9)],
      encodeF 3 (BitVec.ofNat 64 (p.1 * 256)) (.num 3 0 10) = (p.2.1, 16) ∧
      encodeF 3 (BitVec.ofNat 64 (p.1 * 256)) (.num (-3) 0 10) = (p.2.2, 16)) ∧
    encodeF 5 0 (.num 5 (-1) 1) = (4, 16) ∧ encodeF 5 0x300 (.num 5 (-1) 1) = (5, 16) ∧
    encodeF 5 0 (.num 5 0 1) = (6, 16) ∧ encodeF 5 0x300 (.num 5 0 1) = (7, 16) := by decide

/-- R75: the least magnitudes that overflow under RNE, and those below them; the special inputs. -/
theorem test_overflow : encodeF 3 0 (.num 464 0 1) = (0x7E, 16) ∧ encodeF 3 0 (.num 465 0 1) = (0x7F, 20) ∧
    encodeF 2 0 (.num 65520 0 1) = (0x7C00, 20) ∧ encodeF 2 0 (.num 65519 0 1) = (0x7BFF, 16) ∧
    encodeF 4 0 (.num 61440 0 1) = (0x7C, 20) ∧ encodeF 5 0 (.num 13 (-1) 1) = (7, 16) ∧ encodeF 5 0 (.num 7 0 1) = (7, 20) ∧
    encodeF 3 0 (.inf true) = (0x7F, 1) ∧ encodeF 3 0x80 (.inf true) = (0xFE, 4) ∧ encodeF 7 0 .nan = (0, 1) ∧
    encodeF 5 0 .nan = (0, 1) ∧ encodeF 7 0 (.num 300 0 1) = (44, 0) ∧ encodeF 7 0x80 (.num 300 0 1) = (127, 4) := by decide

theorem wit_TileMoves_formats : (Val.num 480 0 1).real = 480 ∧ (2 : ℚ) ^ (8 : Int) ≤ 480 ∧ (480 : ℚ) < 2 ^ (8 + 1 : Int) ∧
    (decodeElem 3 false 0x7E).real = 448 ∧ rounded 0 (480 / 2 ^ (8 - 3 : Int)) = 15 ∧
    (Val.num 1 (-10) 1).real < 2 ^ (1 - 7 : Int) := by
  have h : decodeElem 3 false 0x7E = .num 14 5 1 := by decide
  rw [h]
  norm_num [Val.real, rounded]

theorem wit_TileArithmetic_values : (∀ v ∈ [Val.zero true, .zero false, .num 3 0 2, .num (-3) (-1) 1], v.Finite ∧ v.Proper) ∧
    (Val.zero true).Under (.zero false) ∧ Val.Below (.inf true) (.num 3 0 2) ∧
    decodeF 0 0x40000000 = .num 8388608 (-22) 1 ∧ decodeF 0 0xFF800000 = .inf true ∧ decodeF 0 0x80000000 = .zero true := by
  refine ⟨?_, Or.inr ⟨rfl, rfl⟩, ⟨by decide, by decide, Or.inl ⟨rfl, by decide⟩⟩, by decide, by decide, by decide⟩
  intro v hv
  simp only [List.mem_cons, List.not_mem_nil, or_false] at hv
  rcases hv with rfl | rfl | rfl | rfl <;> refine ⟨⟨by simp, by simp⟩, ?_⟩ <;> intro m e d h <;> simp_all <;> omega

/-! Packets that are not fenced (R274). -/

/-- A gang that has reserved the slot at 64, whose first two units it writes. -/
def demoRing : State :=
  let s : State := { demo 0 with unseen := [⟨(demo 0).g.gid, none, 64, List.replicate 64 9, [], true⟩] }
  (s.gangWrite 0 64 (List.replicate 16 5)).1

/-- R274: the type byte is written, and of bytes 1 to 63 the old contents can still be obtained, until the FENCE. -/
theorem test_reserved_slot : demoRing.mem.bytes 64 16 = List.replicate 16 5 ∧
    oldUnits 0 0 64 demoRing.unseen = [5 :: List.replicate 7 9] ∧ oldUnits 0 0 72 demoRing.unseen = [List.replicate 8 9] ∧
    (demoRing.seen 64 16).2 = List.replicate 16 5 ∧ (demoRing.publish 3 0 fun _ => true).1.unseen = [] := by decide

/-! Witnesses of the clauses on delay bundles, waits, parks and packets that complete. -/

/-- A bundle of one NOP. -/
def nopBundle : Bundle := ⟨⟨1⟩, [(0, 0)], none⟩

/-- A loop frame whose END is the second delay bundle, with n passes. -/
def linkFrame (n : Nat) : Frame := ⟨0x280, 0x10E, n, n, 0, 1, false⟩

theorem wit_Branches_link : (∀ fs ∈ [[], [linkFrame 3], [linkFrame 1]], let s := demoQ fun q => { q with frames := fs }
      s.fetch s.cur.next (ranOff s.cur.head s.cur.next) = .bundle 0x108 0x10E nopBundle ∧
      s.fetch 0x10E (ranOff 0x108 0x10E) = .bundle 0x10E 0x114 nopBundle ∧ s.g.mode = .user ∧ s.g.drain = .none ∧
      s.seq.xfer = none) ∧
    (decodeWord .S 0 matches .ok (.nop _)) = true ∧ (linkFrame 3).fin = 0x10E ∧ (linkFrame 3).neff = 3 ∧
    0 + 1 < 3 + 1 - 1 ∧ 1 + 1 - 1 ≤ 0 + 1 ∧
    (demoQ fun q => { q with frames := [linkFrame 3] }).retAddr = .ok 0x280 ∧
    (demoQ fun q => { q with frames := [linkFrame 1] }).retAddr = .ok 0x114 := by decide

/-- The demonstration with a running split, whose entry stands on the stack. -/
def demoForked : State := (demo 0).updG fun g =>
  { g with split := true, q0 := { g.q0 with ds := [⟨0x140, 0x180, 0xFF, 0xFFFF, false, 1⟩] } }

theorem wit_Divergence_waits : demoForked.slotOk (.join ⟨0, 0, 0, 0, 0⟩) = true ∧ demoForked.cur.ready = false ∧
    demoForked.staticFault (.join ⟨0, 0, 0, 0, 0⟩) = none ∧ demoForked.enabled (.join ⟨0, 0, 0, 0, 0⟩) = true ∧
    demoForked.parkedHere = false ∧ demoForked.g.split = true ∧ (demoForked.seq.ds.map DsEntry.kind) = [1] := by decide

theorem wit_Divergence_splitAsIf : (∀ i ∈ ([.split ⟨0, 0, 4⟩, .split ⟨1, 0, 4⟩] : List Instr), (demo 0).goes i) ∧
    (demo 0).thenLanes ⟨0, 0, 4⟩ ≠ 0 ∧ (demo 0).thenLanes ⟨1, 0, 4⟩ = 0 ∧
    (demo 0).act &&& ~~~ (demo 0).thenLanes ⟨1, 0, 4⟩ ≠ 0 ∧
    (let s := demoQ fun q => { q with exec := 0 }
     s.goes (.split ⟨0, 0, 4⟩) ∧ s.thenLanes ⟨0, 0, 4⟩ = 0 ∧ s.act = 0) := by delta State.goes; decide

theorem wit_LoadsAndStores_fence : let s := demoQ fun q => { q with block := .fence 1 0 4 }
    let t := demoQ fun q => { q with block := .fence 1 0 4, sb := [⟨3, 1, false, 0x80, 0x80, [1], true⟩] }
    (s.g.seq 0).block = .fence 1 0 4 ∧ s.g.q0.sb ++ s.g.q1.sb = [] ∧ s.g.q0.acc ++ s.g.q1.acc = [] ∧ s.g.eng = [] ∧
    s.g.ops = [] ∧ s.g.parts = [] ∧ ∃ e ∈ (t.g.seq 0).sb, e.tkt < 4 := by
  refine ⟨by decide, by decide, by decide, by decide, by decide, by decide, ⟨3, 1, false, 0x80, 0x80, [1], true⟩, by decide, by decide⟩

/-- The demonstration with the first barrier of its launch as given. -/
def demoBar (b : Block) (e : Barrier) : State :=
  (demoQ fun q => { q with block := b }).updDie 0 fun d => { d with barriers := updAt 0 (fun _ => e) d.barriers }

theorem wit_Barriers_polls : (∀ x ∈ [(false, false, 0), (true, true, 1), (true, false, 0)],
      let e : Barrier := { Barrier.clear with initd := x.1, phase := x.2.1, phases := x.2.2 }
      (∀ b ∈ [Block.barWait 0 false none, .barWait 0 false (some 0), .barSync 0 1 0 (some 0)],
        ((demoBar b e).g.seq 0).block = b ∧ (demoBar b e).g.ops = [] ∧ (demoBar b e).launch 1 = some demoLaunch ∧
          (demoBar b e).barrier demoLaunch 0 = e)) ∧
    (let s : State := { demoQ fun q => { q with block := .sstep (some 0) } with launches := [{ demoLaunch with step := 1 }] }
     (s.g.seq 0).block = .sstep (some 0) ∧ (s.launch 1).map Launch.step = some 1) ∧
    (demoQ fun q => { q with block := .barWait 0 false none }).gated = true ∧ (demo 0).gated = false ∧
    ((demo 0).updG fun g => { g with wake := 60 }).g.wake ≠ 0 := by
  refine ⟨by decide, by decide, by decide, by decide, by decide⟩

theorem wit_TrapAndSystemRegisters_dies : 0 < State.reset.dies.length ∧ (State.reset.die 3).notify.length = 16 ∧
    (State.reset.die 3).parts.length = 16 ∧ State.reset.ports.length = 8 ∧ (demo 0).selDead 0x1010 = false ∧
    ((demo 0).updDie 1 fun d => { d with failed := true }).selDead 0x1010 = true := by decide

/-- Local offset 128 holds no header that announces a shape, and the allocation ends within the rows announced. -/
theorem wit_LocalAccesses_parks : (demo 2).goes (.tldk ⟨1, 2, 2, 0, 0, 0, 0⟩) ∧
    leValue ((demo 2).mem.bytes ((demo 2).g.localKey 0 128) 8) = 0 ∧ shapeOk 0 0 = false ∧ 128 + 64 ≤ (demo 2).g.info.spBytes ∧
    (let s := demoTldk.updG fun g => { g with info := { g.info with spBytes := 256 } }
     s.goes (.tldk ⟨1, 2, 2, 0, 0, 0, 0⟩) ∧ leValue (s.mem.bytes (s.g.localKey 0 128) 8) = 0x804 ∧ 128 + 64 ≤ 256 ∧
      256 < 128 + 64 + 4 * 128) := by delta State.goes; decide

/-- The demonstration with two of its formats changed: I8 with SAT, and BF16 with scales along the columns. -/
def demoFmts : State := (demo 3).updG fun g => { g with info := { g.info with fmts := [0, 1, 2, 3, 0x87, 0x21, 0x11, 0] } }

theorem wit_DenseProducts_formats : (∀ i ∈ ([.mma ⟨1, 2, 3, 4, 4, 0, 0, 1⟩, .mma ⟨1, 2, 3, 5, 6, 0, 0, 0⟩, .mmaz ⟨1, 2, 3, 6, 5, 0, 0, 1⟩,
      .mmat ⟨1, 2, 3, 5, 5, 0, 0, 0⟩] : List Instr), demoFmts.goes i) ∧ isInt (fElem (demoFmts.fmt 4)) = true ∧
    fSat (demoFmts.fmt 4) = true ∧ fSmode (demoFmts.fmt 4) = 0 ∧ fSmode (demoFmts.fmt 5) = 2 ∧ fSmode (demoFmts.fmt 6) = 1 ∧
    isInt (fElem (demoFmts.fmt 5)) = false := by delta State.goes; decide

/-- Tiles whose rows are of 8 bytes. -/
def demoOdd : State := (demo 3).updG fun g => { g with lanes := g.lanes.map fun e => { e with shapes := List.replicate 16 (4, 8) } }

theorem wit_MatrixSelections_parks : (demoCtl 0).goes (.topk ⟨1, 2, 3, 0, 0, 0, 0, 7⟩) ∧
    topkOk (((demoCtl 0).g.lane 0).es 2).toNat = false ∧ (demoCtl 0).goes (.hsign ⟨1, 2, 3, 0, 0, 0, 0, 0⟩) ∧
    hsignOk (((demoCtl 0).g.lane 0).es 2).toNat = false ∧ (demo 3).hidxBad (2 ^ 63) = true ∧
    (demo 3).goes (.hidx ⟨0, 2, 3, 0, 0, 0, 0, 1⟩) ∧ demoOdd.goes (.prune ⟨0, 2, 3, 1, 0, 0, 0, 0⟩) ∧
    (demoOdd.g.lane 0).rowBytes 2 % 16 ≠ 0 := by delta State.goes; decide

/-- A SIGNAL packet that has been taken, and adds 5 to the signal at 0x3000. -/
def demoSignalling : State := { demoQueue 1 with g := (demo 0).g }.updRef 0 fun r =>
  { r with queues := [⟨0x2000, 0, 0, none, [⟨0x2000, 0, pktOf 4 0 [(8, 8, 0x3000), (0x10, 8, 5), (0x18, 1, 1)], false, false, 0⟩]⟩] }

theorem wit_RefereePackets_signal : (demoSignalling.queueOf 0 0x2000).map (fun x => x.open_.map fun p =>
      (p.idx, p.f 0 1, p.qd, p.f 8 8, p.csig)) = some [(0, 4, 0x2000, 0x3000, 0)] ∧
    demoSignalling.agentAddr 0 0 0x3000 2 = .ok 0x3000 ∧
    leValue (demoSignalling.agentBytes 0 0x3000 8) = 0 ∧ demoSignalling.signalLocked 0 0 0 = false := by
  refine ⟨by decide, by decide, by decide, by decide⟩

theorem wit_PartsAreCarriedOut_claims : (demoTable 1 0 0 []).unseen = [] ∧ (0 : Int) < min (1 : Int) (2 ^ 4 - 0) ∧
    min (1 : Int) (2 ^ 4 - 16) ≤ 0 := by decide

theorem wit_StepRunsDecoded_more : demoFetch.mySlot.wants = [] ∧ demoFetch.g.wake = 0 ∧ demoFetch.g.q0.ends = none := by decide

theorem wit_TimeUnitEvents_delay : (demo 0).answers 0 = true ∧
    (demoMsg false).seqId = ({ demoUnit with reqSeq := 3 } : TimeUnit).reqSeq := by decide

theorem wit_SequencerEvents_holds : let s := (demo 0).updG fun g => { g with deferred := [(0, 3, ⟨.barerr, 7, 0⟩)] }
    s.g.holdsCauses = false ∧ (s.updG fun g => { g with frozen := true }).g.holdsCauses = true := by decide

theorem wit_AccessesArePerformed_shown : let s := demoQ fun q =>
      { q with acc := [⟨1, 0, 1, false, .load, 5, 0x40, 0x40, 8, false, some (9, 0), true⟩] }
    ((s.g.q0.acc ++ s.g.q1.acc).find? fun b => b.tkt == 1).map (fun a => (a.shown, a.got)) = some (true, some (9, 0)) := by
  decide

theorem wit_EngineAccessesArePerformed_copies : (∃ bs w, ((demoEng (.glde 1 8) 0x2000).updG fun g =>
      { g with paths := [⟨0x20, 5, [(0, 7)], 3, none⟩] }).g.pathBytes 0 0x2000 8 = some (bs, w)) :=
  ⟨[7, 0, 0, 0, 0, 0, 0, 0], 3, by decide⟩

/-- A drained context in shadow storage, and a spill area for it. -/
def demoSpill : State :=
  ((demoQ fun q => { q with atDrain := true }).updG fun g => { g with drain := .preempt 0 false, place := .shadow 0 0 0 }).updDie 0
    fun d => { d with spillbase := 0x1000000, spilln := 4 }

theorem wit_ContextsMove_spill : demoSpill.g.drain = .preempt 0 false ∧ demoSpill.g.place = .shadow 0 0 0 ∧
    demoSpill.g.movable = true ∧ demoSpill.untargeted demoSpill.g = true ∧ demoSpill.spillFree 0 = some 0 ∧
    ∃ u, demoSpill.saveContext demoSpill.g (.spill 0 0) = some u :=
  ⟨by decide, by decide, by decide, by decide, by decide, demoSpill.saveContext_spill _ 0 0 (by decide)⟩

/-! Witnesses of the clauses on ends, gates, page operations, places, stretching and landings. -/

theorem wit_ComparesAndMoves_more : (demo 0).stages = none ∧ demoFull.stages = some 1 ∧ (demo 0).cur.lit = some 8 := by decide

theorem wit_WaitsAndEnds_blocked : (∀ b ∈ [Block.none, .sstep none],
      let s := demoEnd true fun q => { q with block := b, xfer := some ⟨none, 1, none, .endInstance⟩ };
      s.seq.block = b ∧ s.seq.xfer = some ⟨none, 1, none, .endInstance⟩ ∧ s.cur.delay = true) ∧
    (let s := demoQ fun q => { q with ends := some .halted }
     s.seq.ends = some .halted ∧ s.seq.block = .none ∧ s.g.inSys = false ∧ s.g.drain = .none) := by decide

theorem wit_Barriers_wakes : (∀ n ∈ [0, 1, 60], let s := demoFetch.updG fun g => { g with wake := n }
      let t := s.atBundle 0 0 6 ⟨⟨1⟩, [(0, 0x010C1080)], none⟩
      t.decodeFault ⟨⟨1⟩, [(0, 0x010C1080)], none⟩ = none ∧ t.hurdle ⟨⟨1⟩, [(0, 0x010C1080)], none⟩ = .none ∧ t.g.wake = n) ∧
    (demo 0).cur.woke = false ∧ (demo 0).g.place.running = true ∧ ∀ g ∈ (demo 0).gangs, g.wake = 0 := by
  refine ⟨?_, by decide, by decide, by decide⟩
  simp only [List.forall_mem_cons, List.not_mem_nil, false_implies, implies_true, and_true]
  refine ⟨⟨by decide, by decide, by decide⟩, ⟨by decide, by decide, by decide⟩, by decide, by decide, by decide⟩

theorem wit_QueuesAndSignals_dies : ∀ x ∈ (demo 0).dies, x.failed = false := by decide

theorem wit_TimeOperations_marks : demoGang.egReason = 0 ∧ demoGang.egMark = none ∧ demoGang.halted = false ∧
    demoGang.place.running = true ∧ demoGang.inSys = false ∧ demoGang.frozen = false ∧ demoSys.g.inSys = true := by decide

theorem wit_TrapAndSystemRegisters_scratch : (demo 0).mySlot.sscr.length = 16 ∧ (demo 0).g.place.half ≤ 1 ∧
    (demo 0).g.place.slot < ((demo 0).die 0).slots.length ∧ (7 : Word).toNat % 2 ^ 12 ≤ 7 := by decide

/-- A page at address 0 whose frame is 4, its COUNT as given, and a free frame 5. -/
def demoPages (count : Byte) : State :=
  { (demo 0).updDie 0 fun d => { d with parts := List.replicate 16 ⟨0x30000, 0, 0⟩, ftbase := 0x70000, ftlen := 8 } with
    mem := [(0x30000, 1), (0x30002, 4), (0x40000, 1), (0x40002, 5), (0x50000, 0x47), (0x50002, 8), (0x70020, count)] }

theorem wit_ServiceOperations_pages : (∀ c ∈ [1, 2], (demoPages c).pageLeaf 0 0 = some ⟨0x50000, 0x80047, 0x80000, 0x70020⟩ ∧
      (demoPages c).mem.le 0x70020 8 = c.toNat ∧ (demoPages c).mem.wf = true ∧
      (∀ x ∈ (demoPages c).dies, x.failed = false)) ∧
    (demoPages 1).thirdLevel 0 0x20000 = some 0x50008 ∧ (demoPages 2).frameDesc 0xA0000 = some 0x70028 ∧
    (∀ k ∈ [PageKind.share, .unmap, .cow], (⟨0, 0x20000, 1, 0, 0, 7, 0xA0000, true⟩ : PageBlock).ok k = true) ∧
    (demoPages 1).backed 0xA0000 = true ∧ (demoPages 1).backed 0xA0008 = true := by
  refine ⟨?_, by decide, by decide, by decide, by decide, by decide⟩
  simp only [List.forall_mem_cons, List.not_mem_nil, false_implies, implies_true, and_true]
  refine ⟨⟨by decide, by decide, by decide, by decide⟩, by decide, by decide, by decide, by decide⟩

/-- 2.0 and 4.0 of FP32: 2^2, log2 of 2^1, 1 / 2 and 1 / sqrt(4^1). -/
theorem wit_SpecialFunctions : (decodeF 0 0x40000000).real = 2 ∧ (decodeF 0 0x40800000).real = 4 ∧
    (decodeF 0 0x40000000).Finite ∧ fElem 0 = 0 ∧ 1 - 127 ≤ (-1 : Int) ∧ (2 : ℝ) ^ (-1 : Int) ≤ |(2 : ℝ)⁻¹| ∧
    |(2 : ℝ)⁻¹| < (2 : ℝ) ^ (-1 + 1 : Int) ∧ 1 ≤ (decodeElem 0 false 0x7F7FFFFF).real := by
  have a : decodeF 0 0x40000000 = .num 8388608 (-22) 1 := by decide
  have b : decodeF 0 0x40800000 = .num 8388608 (-21) 1 := by decide
  have c : decodeElem 0 false 0x7F7FFFFF = .num 16777215 104 1 := by decide
  rw [a, b, c]
  refine ⟨by norm_num [Val.real], by norm_num [Val.real], ⟨by simp, by simp⟩, by decide, by decide, ?_, ?_, ?_⟩
  · norm_num
  · norm_num
  · norm_num [Val.real]

theorem wit_MatrixSelections_values : let vs : List Val := [.num 1 0 1, .nan, .zero false, .inf true]
    vs.length = 4 ∧ ∀ v ∈ vs, v.Proper := by
  refine ⟨rfl, fun v hv m e d h => ?_⟩
  simp only [List.mem_cons, List.not_mem_nil, or_false] at hv
  rcases hv with rfl | rfl | rfl | rfl <;> simp_all; omega

/-- Nothing answers for the memory of die 0. -/
def demoSilent (s : State) : State := s.updDie 0 fun d => { d with failed := true }

theorem wit_AccessesArePerformed_silent : (demoSilent demoAccess).reachesKey 0x40 = false ∧ demoAccess.reachesKey 0x40 = true ∧
    (OpKind.sig 0x40 true 1 0).keys = [0x40] ∧ (demoSilent (demoOp (.sig 0x40 true 1 0))).reachesKey 0x40 = false ∧
    ∃ f t, (demoSilent demoFilling).fillingFrame 0 0 0 = some f ∧
      (demoSilent demoFilling).readSegment 0 f 4 f.base f.len 0 [] = (t, .error none) :=
  ⟨by decide, by decide, by decide, by decide, _, _, rfl, rfl⟩

theorem wit_SequencerEvents_mask : let b : Bundle := ⟨⟨0x401⟩, [(0, 0)], none⟩
    (List.range 8).any (fun k => b.head.wait.getLsbD k) = true ∧
    (∀ k < 8, b.head.wait.getLsbD k = true →
      ((demo 0).raise (BitVec.ofNat 3 k)).tokenSet (BitVec.ofNat 3 k) = true ∧ (demo 0).tokenSet (BitVec.ofNat 3 k) = false) := by
  decide

/-- Die 0 with slot 0 alone in service, and a LIVE launch beside the one whose instance runs there. -/
def demoCrowded : State :=
  { (demo 0).updDie 0 fun d => { d with invslot := 1, spillbase := 0x1000000, spilln := 4 } with
    launches := [{ demoLaunch with taken := 2 }, { demoLaunch with info := { demoInfo with lid := 2, cls := 0 }, taken := 0 }] }

theorem wit_WorkIsPlaced_candidates : ((demo 0).candidates 0).map (fun l => l.info.lid) = [1] ∧
    (demo 0).spaceFor 0 demoInfo = some (1, 0) ∧ (demoCrowded.candidates 0).map (fun l => l.info.lid) = [2] ∧
    (∀ l ∈ demoCrowded.candidates 0, demoCrowded.spaceFor 0 l.info = none ∧ demoCrowded.readyLaunch l = true ∧
      (demoCrowded.victimFor 0 l.info).map Gang.gid = some 1 ∧ l.info.cls = 0) ∧ demoCrowded.preempting 0 = false ∧
    (demoCrowded.spillRoom 0) = 4 ∧ (demo 0).victimFor 0 demoInfo = none ∧
    (let s := { (demo 0) with launches := [{ demoLaunch with taken := 2 }], others := [{ demoGang with gid := 2, place := .spill 0 0 }] }
     (s.candidates 0).map (fun l => l.info.lid) = [1] ∧ s.readyLaunch { demoLaunch with taken := 2 } = false) := by
  refine ⟨by decide, by decide, by decide, by decide, by decide, by decide, by decide, by decide⟩

/-- A master's dataset. -/
def demoDataset : PtpDataset := ⟨128, 6, 0x20, 1, 128, 7, 0, 37, 100⟩

theorem wit_TimeUnitEvents_failed : ((demo 0).die 0).failed = false ∧ ((demoSilent (demo 0)).die 0).failed = true ∧
    (∀ m ∈ [demoDataset, { demoDataset with stepsRemoved := 7 }], demoDataset.identity = m.identity) ∧
    ({ demoUnit with masters := [(1, demoUnit.now, demoDataset), (2, demoUnit.now, demoDataset)] } : TimeUnit).fresh =
      [(1, demoUnit.now, demoDataset), (2, demoUnit.now, demoDataset)] := by decide

/-- A clock that is stretched, one cycle of it over. -/
def demoStretched (slowed : Nat) : State :=
  ((demo 0).updDie 0 fun d => { d with health := { d.health with drooping := true, span := 1 } }).updG fun g =>
    { g with slowed := slowed }

theorem wit_DeviceEvents_stretched : ((demo 0).die 0).health.stretching = false ∧
    (∀ n ∈ [0, 1], ((demoStretched n).die (demoStretched n).myDie).health.stretching = true ∧
      ((demoStretched n).die (demoStretched n).myDie).health.span = 1 ∧ (demoStretched n).g.slowed = n) ∧
    isPortReg 0x060 = true ∧ plainReg 0x060 = true ∧ isPortReg 0x020 = false := by decide

theorem wit_ResultsLandInTime_kinds : (∀ w ∈ ([.pred 0 3 true, .queue 1 2 5, .token 0 false 1, .esc 15 2 7, .trappc 9] : List Landed),
      let s := (demo 0).updG fun g => { g with fl := [⟨1, [w], false⟩] }
      s.g.fl = [⟨1, [w], false⟩] ∧ s.g.mode = .user ∧ s.g.q1.block ≠ .starting ∧ 15 < s.g.lanes.length) ∧
    2 < (demo 0).g.q0.q.length ∧ 2 < (demo 0).g.q1.q.length ∧ ((demo 0).g.lane 15).shapes.length = 16 ∧
    ((demo 0).g.lane 15).km.length = 8 ∧ ((demo 0).g.lane 15).e.length = 16 := by decide

/-- R367: the second cycle of a stretching counts in HSTRETCH once the detector's cycle is over, and one that another context
has counted does not. -/
theorem test_stretched : ((demoStretched 1).dieCycle.die 0).health.stretch = 1 ∧ ((demoStretched 0).dieCycle.die 0).health.stretch = 0 ∧
    (demo 0).dieCycle.g.slowed = 0 := by decide

/-- R79: of a set and a clear of one flag in one cycle the set remains. -/
theorem test_flagRace : let s := (demo 0).updG fun g => { g with fl := [⟨1, [.flags 3 0x11, .clearFlags 3 0x10], false⟩] }
    (s.tick.g.lane 3).status = 0x11 := by decide

/-! Witnesses for what sequencers that do not fetch, fragments that end, launches that complete and queues that move do. -/

theorem wit_SequencerEvents_turns : (demo 0).g.fetches 0 = true ∧ (demo 0).g.fetches 1 = false ∧ demoSys.g.fetches 0 = true ∧
    demoSys.g.fetches 1 = false ∧ ((demo 0).updG fun g => { g with frozen := true }).g.fetches 0 = false ∧
    ((demo 0).updG fun g => { g with frozen := true }).g.place.running = true := by decide

/-- The fragment of a split gang issues, with its base entry on its stack. -/
def demoFragment : State :=
  { (demo 0).updG fun g => { g with
      split := true, q1 := { g.q0 with utlb := [], ds := [⟨0x140, 0x180, 0xFF, 0xFFFF, false, 2⟩] } } with
    cur := { (demo 0).cur with q := 1 } }

theorem wit_Divergence_fragment : demoFragment.goes (.join ⟨0, 0, 0, 0, 0⟩) ∧ demoFragment.goes (.elseD ⟨0, 0, 0⟩) ∧
    (demoFragment.seq.ds.map DsEntry.kind) = [2] ∧ demoFragment.seq.block = .none := by delta State.goes; decide

/-- The fragment is over, with a token that is set or with none. -/
def demoOver (n : Nat) : State := (demo 0).updG fun g =>
  { g with split := true, q1 := { g.q1 with block := .fragmentOver, toks := n :: List.replicate 7 0 } }

theorem wit_Divergence_over : (demoOver 0).g.split = true ∧ (demoOver 0).g.q1.block = .fragmentOver ∧ (demoOver 0).g.mode = .user ∧
    (∀ n ∈ (demoOver 0).g.q1.toks, n = 0) ∧ (demoOver 0).g.q1.sb = [] ∧ ¬ (∀ n ∈ (demoOver 1).g.q1.toks, n = 0) := by decide

theorem wit_LoadsAndStores_atomics : let s := (demo 0).updG fun g =>
      { g with ops := [⟨3, 0, false, 1, 0, 0, .sig 0x40 true 1 0⟩], q0 := { g.q0 with block := .fence 3 0 4 } }
    (s.g.seq 0).block = .fence 3 0 4 ∧ (s.g.ops.map fun o => (o.q, decide (o.oid < 4), o.kind.atomic)) = [(0, true, true)] ∧
    (OpKind.rstat 0 128).atomic = true ∧ (OpKind.rstat 0 6).atomic = false := by decide

theorem wit_AccessesArePerformed_lease : let e : LeaseEnt := ⟨0, 9, [], 2, none⟩
    let s := demoAccess.updG fun g => { g with q0 := { g.q0 with l0 := [e] } }
    (s.g.seq 0).leaseFor 0x40 = some e ∧ s.unseen = [] ∧ s.g.inOrder 0 1 = true ∧
    ((s.g.q0.acc ++ s.g.q1.acc).map fun a => (a.size, a.shown)) = [(8, false)] := by decide

/-- A launch whose last instance has ended. -/
def demoEnded (crec : Nat) : Launch :=
  { demoLaunch with
    crec := crec, csig := 0x3000, tally := { demoLaunch.tally with ended := demoInfo.nx * demoInfo.ny * demoInfo.nz * demoInfo.stages } }

theorem wit_WorkIsPlaced_completes : let s : State := { demo 0 with launches := [demoEnded 0x4000] }
    (s.launch 1).isSome = true ∧ (demoEnded 0).over = true ∧ demoLaunch.over = false ∧ demoInfo.home < s.dies.length ∧
    s.adaptLocked 0 0 [] = false ∧ s.signalLocked 0 0 0x3000 = false ∧ (demoEnded 0).tally.committed = false ∧
    (∃ r, s.agentStore 0 0 0x4000 (s.launchRecord (demoEnded 0x4000) 0 0) = .ok r) ∧
    (s.agentUse 0 0 0x3000 2).toOption.map (·.2) = some 0x3000 :=
  ⟨by decide, by decide, by decide, by decide, by decide, by decide, by decide, ⟨_, rfl⟩, by decide⟩

theorem wit_WorkIsPlaced_releases : let s := (demo 0).updRes 0 0 fun _ => ⟨1, 1, 1, some 1⟩
    (∃ b, s.adaptEntry 0 0 1 = .ok b ∧ byteField b 0x18 1 = 0) ∧ s.slotHolding 0 1 = some 0 ∧
    ((s.die 0).ref.slot 0).pinned = some 1 :=
  ⟨⟨_, rfl, by decide⟩, by decide, by decide⟩

/-- The descriptor of a queue of die 0 that may be stolen, with one packet unread. -/
def demoStolen (m : Memory) (qd rbase : Nat) : Memory :=
  ((m.put qd (leBytes 8 rbase ++ leBytes 8 4)).put (qd + 0x10) (leBytes 8 1)).put (qd + 0x22) [1, 2]

/-- Die 0 holds two such queues, on its run list at 0x6000, and die 1, whose list is at 0x7000, has asked for one. -/
def demoSteals : State :=
  let q (qd n : Nat) : QState := ⟨qd, n, 0, none, []⟩
  let s : State := { demo 0 with
    launches := [],
    mem := (demoStolen (demoStolen [] 0x2000 0x8000) 0x2100 0x9000).put 0x6000 (leBytes 8 0x2000 ++ leBytes 8 0x2100) }
  let s := (s.updDie 0 fun d => { d with rlbase := 0x6000 }).updDie 1 fun d => { d with rlbase := 0x7000 }
  (s.updRef 0 fun r => { r with queues := [q 0x2000 0, q 0x2100 1] }).updRef 1 fun r => { r with request := some 5 }

theorem wit_WorkIsPlaced_steals : (demoSteals.die 1).ref.request = some 5 ∧ demoSteals.freeRun 1 = some 0 ∧
    stealRing 1 = [3, 2] ++ 0 :: [] ∧ (∀ x ∈ [3, 2], demoSteals.handOver x = none) ∧ demoSteals.refereeOn 0 = true ∧
    (demoSteals.handOver 0).map (fun q => (q.qd, q.inHand)) = some (0x2100, none) ∧ demoSteals.runEntry 0 0x2100 = some 1 ∧
    demoSteals.dies.length = 4 ∧ (demo 0).handOver 0 = none ∧
    (∃ p, demoSteals.agentRead 0 0 ((demoSteals.qdesc 0x2100).slotVa 0) 64 = .ok p) :=
  ⟨by decide, by decide, by decide, by decide, by decide, by decide, by decide, by decide, by decide, ⟨_, rfl⟩⟩

theorem wit_ContextsMove_matrix : let s := (demo 0).updG fun g => { g with fl := [⟨3, [.sreg 0 5 9], true⟩] }
    s.g.place.running = true ∧ s.g.frozen = false ∧ s.g.matrixFlight = true := by decide

/-- A context in shadow storage, with a launch of a higher class than its own ready and a slot free for it. -/
def demoOutranked : State :=
  { (demo 0).updG fun g => { g with place := .shadow 0 0 0 } with
    launches := [demoLaunch, { demoLaunch with info := { demoInfo with lid := 2, cls := 0 }, taken := 0 }] }

theorem wit_ContextsMove_outranked : (demoOutranked.candidates 0).map (fun l => l.info.lid) = [2, 1] ∧
    demoOutranked.outranked 0 demoOutranked.g = true ∧
    ((demo 0).updG fun g => { g with place := .shadow 0 0 0 }).outranked 0 (demo 0).g = false := by
  refine ⟨by decide, by decide, by decide⟩

theorem wit_ContextsMove_trigger : let s := demoAtTime 8000 (demo 0)
    (s.launch 1).isSome = true ∧ demoLaunch.stage ≠ .waiting ∧ demoInfo.dline = true ∧ demoInfo.trigger ≤ s.now 0 ∧
    0 ∉ demoLaunch.trig ∧ s.g.info.lid = 1 ∧ s.g.place.die = 0 ∧ s.g.egReason = 0 ∧ s.g.egMark = none ∧ s.g.stopping = false ∧
    s.g.halted = false ∧ s.g.drain = .none := by decide

theorem wit_ContextsMove_parked : let s := (demoQ fun q => { q with atDrain := true }).updG fun g =>
      { g with drain := .endgame 1, pmask := 2 }
    s.g.entryReady = true ∧ s.g.pmask ≠ 0 ∧ s.g.q0.block.abandoned = false ∧ s.g.q1.block.abandoned = false ∧ s.g.fences = [] ∧
    (s.updG fun g => { g with q0 := { g.q0 with block := .halted } }).g.entryReady = false := by decide

theorem wit_DeviceEvents_kill : (0x80 : Word).getLsbD 7 = true ∧ (0x80 : Word).toNat % 64 = 0 ∧ (demo 0).g.place = .run 0 0 0 ∧
    ((demo 0).gangs.map (·.gid)).Nodup ∧ (demo 0).g.haltIssued = false ∧ (demo 0).g.stopping = false ∧ (demo 0).g.mode = .user ∧ demoSys.g.mode ≠ .user ∧
    (0x81 : Word).toNat % 64 = 1 ∧ (0x00 : Word).getLsbD 7 = false := by decide

theorem wit_DeviceEvents_boots : 0 < State.reset.dies.length ∧ (State.reset.die 0).failed = false ∧ (State.reset.die 0).bootStage = 0 ∧
    (State.reset.die 0).bootStage ≠ 1 := by decide

/-! R205's bounds decide these: expected values by hand from the functions' decimal expansions. -/

theorem test_special_tanh : special 5 0 0x3F800000 = (0x3F42F7D6, 16) := by decide +kernel
theorem test_special_sigmoid : special 6 0 0x3F800000 = (0x3F3B26A8, 16) := by decide +kernel

end Sys2Proof.Tests
end

section
/-! Laws of the shared operations: a byte, a run of bytes, a little-endian value, a scalar register or a predicate reads back
as it was written, and nothing else changes. -/

namespace Sys2Proof.Machine

/-! Memory, byte by byte. -/

/-- Nothing is listed below the address from which a memory is canonical. -/
theorem Memory.get_of_lt {lo k : Nat} (hk : k < lo) : ∀ {m : Memory}, Memory.wfFrom lo m = true → m.get k = Memory.rest
  | [], _ => rfl
  | c :: m, hm => by
    simp only [Memory.wfFrom, Bool.and_eq_true, decide_eq_true_eq] at hm
    have hlt : k < c.1 := Nat.lt_of_lt_of_le hk hm.1.1
    simp [Memory.get, hlt, hlt.ne']

/-- Reading after one byte has been put, in a memory canonical from any address on. -/
theorem Memory.get_set_of_wfFrom (a k : Nat) (b : Byte) :
    ∀ {m : Memory} {lo : Nat}, Memory.wfFrom lo m = true → (m.set a b).get k = if k = a then b else m.get k
  | [], _, _ => by
    simp only [Memory.set]
    split <;> grind [Memory.get]
  | c :: m, lo, hm => by
    simp only [Memory.wfFrom, Bool.and_eq_true, decide_eq_true_eq] at hm
    obtain ⟨-, htail⟩ := hm
    rcases Nat.lt_trichotomy c.1 a with hlt | rfl | hgt
    · have ih := Memory.get_set_of_wfFrom a k b htail
      simp only [Memory.set, if_pos hlt, Memory.get, ih]
      grind
    · have hbelow : k ≤ c.1 → Memory.get m k = Memory.rest := fun h => Memory.get_of_lt (Nat.lt_succ_of_le h) htail
      simp only [Memory.set, lt_irrefl, if_true, if_false]
      split <;> grind [Memory.get]
    · simp only [Memory.set, hgt.not_gt, hgt.ne', if_false]
      split <;> grind [Memory.get]

/-- Reading after one byte has been put. -/
theorem Memory.get_set {m : Memory} (h : m.wf = true) (a k : Nat) (b : Byte) :
    (m.set a b).get k = if k = a then b else m.get k :=
  Memory.get_set_of_wfFrom a k b h

/-! Memory, by runs of bytes. -/

/-- Reading after a run of bytes has been written: what has been written in the run, and what was there outside it. -/
theorem Memory.get_put : ∀ (bs : List Byte) {m : Memory} (a k : Nat), m.wf = true →
    (m.put a bs).get k = if a ≤ k then bs.getD (k - a) (m.get k) else m.get k
  | [], _, _, _, _ => by simp [Memory.put]
  | b :: bs, m, a, k, h => by
    rw [Memory.put, Memory.get_put bs (a + 1) k (Memory.set_wf a b h), Memory.get_set h]
    rcases Nat.lt_trichotomy k a with hlt | rfl | hgt
    · simp [hlt.ne, show ¬ a ≤ k by omega, show ¬ a + 1 ≤ k by omega]
    · simp
    · simp [hgt.ne', show k - a = (k - (a + 1)) + 1 by omega, hgt.le, Nat.succ_le_of_lt hgt]

/-- What lies outside a run of bytes reads as before it was written. -/
theorem Memory.get_put_outside {m : Memory} (h : m.wf = true) {a k : Nat} {bs : List Byte} (hk : k < a ∨ a + bs.length ≤ k) :
    (m.put a bs).get k = m.get k := by
  rw [Memory.get_put bs a k h]
  split
  · exact List.getD_eq_default _ _ (by omega)
  · rfl

/-- A byte of a run reads as it was written. -/
theorem Memory.get_put_inside {m : Memory} (h : m.wf = true) (a : Nat) {bs : List Byte} {j : Nat} (hj : j < bs.length) :
    (m.put a bs).get (a + j) = bs[j] := by
  simp [Memory.get_put bs a (a + j) h, hj]

/-- A run of bytes is its first byte and the run after it. -/
theorem Memory.bytes_succ (m : Memory) (a n : Nat) : m.bytes a (n + 1) = m.get a :: m.bytes (a + 1) n := by
  simp only [Memory.bytes, Memory.bytes_dropWhile (Nat.le_succ a), List.cons.injEq, and_true]
  induction m with
  | nil => rfl
  | cons c m ih =>
    rcases Nat.lt_trichotomy c.1 a with hlt | heq | hgt
    · simpa [hlt, hlt.ne, hlt.not_gt, Memory.get] using ih
    · simp [heq, Memory.get]
    · simp [hgt, hgt.ne', hgt.not_gt, Memory.get]

/-- A run of bytes reads back as it was written. -/
theorem Memory.bytes_put : ∀ (bs : List Byte) {m : Memory} (a : Nat), m.wf = true → (m.put a bs).bytes a bs.length = bs
  | [], _, _, _ => rfl
  | b :: bs, m, a, h => by
    have hset := Memory.set_wf a b h
    have hhead : ((m.set a b).put (a + 1) bs).get a = b := by
      rw [Memory.get_put_outside hset (by omega), Memory.get_set h, if_pos rfl]
    rw [Memory.put, List.length_cons, Memory.bytes_succ, hhead, Memory.bytes_put bs (a + 1) hset]

/-! Little-endian values. -/

@[simp] theorem leBytes_length (n v : Nat) : (leBytes n v).length = n := by
  induction n generalizing v with
  | zero => rfl
  | succ n ih => simp [leBytes, ih]

/-- The value of the n low bytes of v is v modulo 2^(8n). -/
theorem leValue_leBytes (n v : Nat) : leValue (leBytes n v) = v % 2 ^ (8 * n) := by
  induction n generalizing v with
  | zero => simp [leBytes, leValue, Nat.mod_one]
  | succ n ih =>
    have hpow : 2 ^ (8 * (n + 1)) = 256 * 2 ^ (8 * n) := by rw [Nat.mul_succ, Nat.pow_add, Nat.mul_comm]
    rw [leBytes, leValue, ih, hpow, Nat.mod_mul, BitVec.toNat_ofNat]

/-- A little-endian value reads back as it was written, as far as its bytes hold it. -/
theorem Memory.le_put_leBytes {m : Memory} (h : m.wf = true) (a n v : Nat) :
    (m.put a (leBytes n v)).le a n = v % 2 ^ (8 * n) := by
  have hbytes := Memory.bytes_put (leBytes n v) a h
  rw [leBytes_length] at hbytes
  rw [Memory.le, hbytes, leValue_leBytes]

/-! Registers of a sequencer. -/

@[simp] theorem Seq.reg_codeNone (q : Machine.Seq) : q.reg 63 = 0 := rfl
@[simp] theorem Seq.pred_zero (q : Machine.Seq) : q.pred 0 = true := rfl

/-- Reading a scalar register after one has been written: s0 and code 63 take no value (R35). -/
theorem Seq.reg_setReg (q : Machine.Seq) (r r' : BitVec 6) (w : Word) :
    (q.setReg r w).reg r' = if r' = r ∧ r ≠ 0 ∧ r ≠ 63 then w else q.reg r' := by
  by_cases hr : r = 0 ∨ r = 63
  · have hno : ¬ (r' = r ∧ r ≠ 0 ∧ r ≠ 63) := by tauto
    rw [Seq.setReg, if_pos hr, if_neg hno]
  · rw [Seq.setReg, if_neg hr]
    by_cases he : r' = r
    · subst he
      rw [Seq.reg, if_neg hr, if_pos ⟨rfl, not_or.mp hr⟩]
      exact Vector.getElem_set_self _
    · have hn : r.toNat ≠ r'.toNat := fun h => he (BitVec.eq_of_toNat_eq h.symm)
      simp [Seq.reg, he, Vector.getElem_set_ne, hn]

/-- The bits of the predicates after one that is not p0 has been written: its own bit, and no other. -/
theorem Seq.getLsbD_setPred (q : Machine.Seq) {p : BitVec 3} (hp : p ≠ 0) (p' : BitVec 3) (y : Bool) :
    (q.setPred p y).p.getLsbD p'.toNat = if p' = p then y else q.p.getLsbD p'.toNat := by
  have hlt : p'.toNat < 8 := p'.isLt
  have hbit : (BitVec.ofNat 8 (2 ^ p.toNat)).getLsbD p'.toNat = decide (p' = p) := by
    rw [BitVec.getLsbD_ofNat, Nat.testBit_two_pow]
    simp [hlt, BitVec.toNat_inj, eq_comm]
  rw [Seq.setPred, if_neg hp]
  cases y with
  | false =>
    simp only [Bool.false_eq_true, if_false, BitVec.getLsbD_and, BitVec.getLsbD_not, hbit, hlt]
    split <;> simp [*]
  | true =>
    simp only [if_true, BitVec.getLsbD_or, hbit]
    split <;> simp [*]

/-- Reading a predicate after one has been written: p0 takes no value (R109). -/
theorem Seq.pred_setPred (q : Machine.Seq) (p p' : BitVec 3) (y : Bool) :
    (q.setPred p y).pred p' = if p' = p ∧ p ≠ 0 then y else q.pred p' := by
  by_cases hp : p = 0
  · rw [Seq.setPred, if_pos hp, if_neg fun h => h.2 hp]
  · simp only [Seq.pred, Seq.getLsbD_setPred q hp]
    by_cases he : p' = p
    · have hp' : p' ≠ 0 := he ▸ hp
      rw [if_pos he, if_pos ⟨he, hp⟩, decide_eq_false hp', Bool.false_or]
    · rw [if_neg he, if_neg fun h => he h.1]

end Sys2Proof.Machine

open Sys2Proof Sys2Proof.Machine

/-- Settles O55: each store is written and read by one law (`Memory.get_put`, `Memory.bytes_put`, `leValue_leBytes`,
`Seq.reg_setReg`, `Seq.pred_setPred`), of which this is the sum. -/
theorem writesReadBack : Obligations.WritesReadBack := by
  unfold Obligations.WritesReadBack
  intro m a n v bs q r r' w p p' y
  refine ⟨fun h => ⟨Memory.bytes_put bs a h, fun k hk => Memory.get_put_outside h hk,
      fun j hj => Memory.get_put_inside h a hj, Memory.le_put_leBytes h a n v⟩,
    Seq.reg_setReg q r r' w, ⟨Seq.reg_zero q, Seq.reg_codeNone q⟩, Seq.pred_setPred q p p' y, Seq.pred_zero q⟩

end

section
/-! The opcode maps read back what `Instr.encode` writes (R30 to R39). A packed word is known by its opcode bits and by the
fields its form reads from it; with these, each slot's map gives the instruction back. -/

namespace Sys2Proof

open BitVec (extractLsb'_cast extractLsb'_append_eq_of_add_le extractLsb'_append_eq_of_le extractLsb'_eq_self
  extractLsb'_append_extractLsb'_eq_extractLsb')

/-! A word of each form: its opcode and its fields (R30, R32 to R34). -/

theorem SR.pack_eq_iff (op : Nat) (x : SR) (w : BitVec 32) :
    x.pack op = w ↔ w.extractLsb' 24 8 = BitVec.ofNat 8 op ∧ SR.unpack w = x := by
  constructor
  · rintro rfl
    simp (disch := omega) only [SR.pack, SR.unpack, extractLsb'_cast, extractLsb'_append_eq_of_add_le,
      extractLsb'_append_eq_of_le, extractLsb'_eq_self, Nat.reduceSub, and_self]
  · rintro ⟨hop, rfl⟩
    simp (disch := rfl) only [SR.pack, SR.unpack, ← hop, extractLsb'_append_extractLsb'_eq_extractLsb']
    exact extractLsb'_eq_self

theorem SI.pack_eq_iff (op : Nat) (x : SI) (w : BitVec 32) :
    x.pack op = w ↔ w.extractLsb' 24 8 = BitVec.ofNat 8 op ∧ SI.unpack w = x := by
  constructor
  · rintro rfl
    simp (disch := omega) only [SI.pack, SI.unpack, extractLsb'_cast, extractLsb'_append_eq_of_add_le,
      extractLsb'_append_eq_of_le, extractLsb'_eq_self, Nat.reduceSub, and_self]
  · rintro ⟨hop, rfl⟩
    simp (disch := rfl) only [SI.pack, SI.unpack, ← hop, extractLsb'_append_extractLsb'_eq_extractLsb']
    exact extractLsb'_eq_self

theorem SB.pack_eq_iff (op : Nat) (x : SB) (w : BitVec 32) :
    x.pack op = w ↔ w.extractLsb' 24 8 = BitVec.ofNat 8 op ∧ SB.unpack w = x := by
  constructor
  · rintro rfl
    simp (disch := omega) only [SB.pack, SB.unpack, extractLsb'_cast, extractLsb'_append_eq_of_add_le,
      extractLsb'_append_eq_of_le, extractLsb'_eq_self, Nat.reduceSub, and_self]
  · rintro ⟨hop, rfl⟩
    simp (disch := rfl) only [SB.pack, SB.unpack, ← hop, extractLsb'_append_extractLsb'_eq_extractLsb']
    exact extractLsb'_eq_self

theorem SM.pack_eq_iff (op : Nat) (x : SM) (w : BitVec 32) :
    x.pack op = w ↔ w.extractLsb' 24 8 = BitVec.ofNat 8 op ∧ SM.unpack w = x := by
  constructor
  · rintro rfl
    simp (disch := omega) only [SM.pack, SM.unpack, extractLsb'_cast, extractLsb'_append_eq_of_add_le,
      extractLsb'_append_eq_of_le, extractLsb'_eq_self, Nat.reduceSub, and_self]
  · rintro ⟨hop, rfl⟩
    simp (disch := rfl) only [SM.pack, SM.unpack, ← hop, extractLsb'_append_extractLsb'_eq_extractLsb']
    exact extractLsb'_eq_self

theorem VT.pack_eq_iff (op : Nat) (x : VT) (w : BitVec 32) :
    x.pack op = w ↔ w.extractLsb' 24 8 = BitVec.ofNat 8 op ∧ VT.unpack w = x := by
  constructor
  · rintro rfl
    simp (disch := omega) only [VT.pack, VT.unpack, extractLsb'_cast, extractLsb'_append_eq_of_add_le,
      extractLsb'_append_eq_of_le, extractLsb'_eq_self, Nat.reduceSub, and_self]
  · rintro ⟨hop, rfl⟩
    simp (disch := rfl) only [VT.pack, VT.unpack, ← hop, extractLsb'_append_extractLsb'_eq_extractLsb']
    exact extractLsb'_eq_self

theorem VS.pack_eq_iff (op : Nat) (x : VS) (w : BitVec 32) :
    x.pack op = w ↔ w.extractLsb' 24 8 = BitVec.ofNat 8 op ∧ VS.unpack w = x := by
  constructor
  · rintro rfl
    simp (disch := omega) only [VS.pack, VS.unpack, extractLsb'_cast, extractLsb'_append_eq_of_add_le,
      extractLsb'_append_eq_of_le, extractLsb'_eq_self, Nat.reduceSub, and_self]
  · rintro ⟨hop, rfl⟩
    simp (disch := rfl) only [VS.pack, VS.unpack, ← hop, extractLsb'_append_extractLsb'_eq_extractLsb']
    exact extractLsb'_eq_self

theorem MF.pack_eq_iff (op : Nat) (x : MF) (w : BitVec 32) :
    x.pack op = w ↔ w.extractLsb' 24 8 = BitVec.ofNat 8 op ∧ MF.unpack w = x := by
  constructor
  · rintro rfl
    simp (disch := omega) only [MF.pack, MF.unpack, extractLsb'_cast, extractLsb'_append_eq_of_add_le,
      extractLsb'_append_eq_of_le, extractLsb'_eq_self, Nat.reduceSub, and_self]
  · rintro ⟨hop, rfl⟩
    simp (disch := rfl) only [MF.pack, MF.unpack, ← hop, extractLsb'_append_extractLsb'_eq_extractLsb']
    exact extractLsb'_eq_self

theorem XF.pack_eq_iff (op : Nat) (x : XF) (w : BitVec 32) :
    x.pack op = w ↔ w.extractLsb' 24 8 = BitVec.ofNat 8 op ∧ XF.unpack w = x := by
  constructor
  · rintro rfl
    simp (disch := omega) only [XF.pack, XF.unpack, extractLsb'_cast, extractLsb'_append_eq_of_add_le,
      extractLsb'_append_eq_of_le, extractLsb'_eq_self, Nat.reduceSub, and_self]
  · rintro ⟨hop, rfl⟩
    simp (disch := rfl) only [XF.pack, XF.unpack, ← hop, extractLsb'_append_extractLsb'_eq_extractLsb']
    exact extractLsb'_eq_self

open Machine (formOf Form)

/-! Each slot's opcode map at a packed word, by the form of the instruction (R37 to R39). -/

theorem opcodeOf_of_SR {i : Instr} {x : SR} {k : SlotKind} {w : BitVec 32} (hform : formOf i = .sr x)
    (h : i.encode = some (k, w)) : opcodeOf k w = some i := by
  cases i <;> cases hform <;>
    (obtain ⟨rfl, hw⟩ := Prod.mk.inj (Option.some.inj h)
     obtain ⟨hop, rfl⟩ := (SR.pack_eq_iff ..).1 hw
     rw [opcodeOf, decodeS.eq_def, hop]
     rfl)

theorem opcodeOf_of_SI {i : Instr} {x : SI} {k : SlotKind} {w : BitVec 32} (hform : formOf i = .si x)
    (h : i.encode = some (k, w)) : opcodeOf k w = some i := by
  cases i <;> cases hform <;>
    (obtain ⟨rfl, hw⟩ := Prod.mk.inj (Option.some.inj h)
     obtain ⟨hop, rfl⟩ := (SI.pack_eq_iff ..).1 hw
     rw [opcodeOf, decodeS.eq_def, hop]
     rfl)

theorem opcodeOf_of_SB {i : Instr} {x : SB} {k : SlotKind} {w : BitVec 32} (hform : formOf i = .sb x)
    (h : i.encode = some (k, w)) : opcodeOf k w = some i := by
  cases i <;> cases hform <;>
    (obtain ⟨rfl, hw⟩ := Prod.mk.inj (Option.some.inj h)
     obtain ⟨hop, rfl⟩ := (SB.pack_eq_iff ..).1 hw
     rw [opcodeOf, decodeS.eq_def, hop]
     rfl)

theorem opcodeOf_of_SM {i : Instr} {x : SM} {k : SlotKind} {w : BitVec 32} (hform : formOf i = .sm x)
    (h : i.encode = some (k, w)) : opcodeOf k w = some i := by
  cases i <;> cases hform <;>
    (obtain ⟨rfl, hw⟩ := Prod.mk.inj (Option.some.inj h)
     obtain ⟨hop, rfl⟩ := (SM.pack_eq_iff ..).1 hw
     rw [opcodeOf, decodeS.eq_def, hop]
     rfl)

theorem opcodeOf_of_VT {i : Instr} {x : VT} {k : SlotKind} {w : BitVec 32} (hform : formOf i = .vt x)
    (h : i.encode = some (k, w)) : opcodeOf k w = some i := by
  cases i <;> cases hform <;>
    (obtain ⟨rfl, hw⟩ := Prod.mk.inj (Option.some.inj h)
     obtain ⟨hop, rfl⟩ := (VT.pack_eq_iff ..).1 hw
     rw [opcodeOf, decodeV.eq_def, hop]
     rfl)

theorem opcodeOf_of_VS {i : Instr} {x : VS} {k : SlotKind} {w : BitVec 32} (hform : formOf i = .vs x)
    (h : i.encode = some (k, w)) : opcodeOf k w = some i := by
  cases i <;> cases hform <;>
    (obtain ⟨rfl, hw⟩ := Prod.mk.inj (Option.some.inj h)
     obtain ⟨hop, rfl⟩ := (VS.pack_eq_iff ..).1 hw
     rw [opcodeOf, decodeV.eq_def, hop]
     rfl)

theorem opcodeOf_of_XF {i : Instr} {x : XF} {k : SlotKind} {w : BitVec 32} (hform : formOf i = .xf x)
    (h : i.encode = some (k, w)) : opcodeOf k w = some i := by
  cases i <;> cases hform <;>
    (obtain ⟨rfl, hw⟩ := Prod.mk.inj (Option.some.inj h)
     obtain ⟨hop, rfl⟩ := (XF.pack_eq_iff ..).1 hw
     rw [opcodeOf, decodeX.eq_def, hop]
     rfl)

/-- The reserved fields of ACCSC hold its function in fsB (R223, R234). -/
theorem fsB_of_accsc (x : MF) : ((Instr.accscScale x).fieldsOk = true → x.fsB = 0) ∧
    ((Instr.accscLoad x).fieldsOk = true → x.fsB = 1) ∧ ((Instr.accscStore x).fieldsOk = true → x.fsB = 2) := by
  refine ⟨fun h => ?_, fun h => ?_, fun h => ?_⟩
  · have hb : (_ && x.fsB == 0 && _) = true := h
    simp_all only [Bool.and_eq_true, beq_iff_eq]
  · have hb : (_ && x.fsB == 1 && _ && _) = true := h
    simp_all only [Bool.and_eq_true, beq_iff_eq]
  · have hb : (_ && x.fsB == 2 && _ && _) = true := h
    simp_all only [Bool.and_eq_true, beq_iff_eq]

/-- The three functions of ACCSC share an opcode and are told apart by fsB. -/
theorem opcodeOf_of_MF {i : Instr} {x : MF} {k : SlotKind} {w : BitVec 32} (hform : formOf i = .mf x)
    (h : i.encode = some (k, w)) (hok : i.fieldsOk = true) : opcodeOf k w = some i := by
  cases i <;> cases hform <;>
    (obtain ⟨rfl, hw⟩ := Prod.mk.inj (Option.some.inj h)
     obtain ⟨hop, rfl⟩ := (MF.pack_eq_iff ..).1 hw
     rw [opcodeOf, decodeM.eq_def, hop])
  case accscScale => rw [(fsB_of_accsc _).1 hok]; rfl
  case accscLoad => rw [(fsB_of_accsc _).2.1 hok]; rfl
  case accscStore => rw [(fsB_of_accsc _).2.2 hok]; rfl
  all_goals rfl

/-- An event has no word. -/
theorem encode_of_event {i : Instr} (hform : formOf i = .event) : i.encode = none := by
  cases i <;> cases hform <;> rfl

/-- The opcode map of its slot gives an instruction back from its word. -/
theorem opcodeOf_of_encode {i : Instr} {k : SlotKind} {w : BitVec 32} (h : i.encode = some (k, w))
    (hok : i.fieldsOk = true) : opcodeOf k w = some i := by
  cases hform : formOf i with
  | sr x => exact opcodeOf_of_SR hform h
  | si x => exact opcodeOf_of_SI hform h
  | sb x => exact opcodeOf_of_SB hform h
  | sm x => exact opcodeOf_of_SM hform h
  | vt x => exact opcodeOf_of_VT hform h
  | vs x => exact opcodeOf_of_VS hform h
  | mf x => exact opcodeOf_of_MF hform h hok
  | xf x => exact opcodeOf_of_XF hform h
  | event => rw [encode_of_event hform] at h; cases h

/-- Decoding answers only with instructions whose reserved fields hold what they must (R40). -/
theorem fieldsOk_of_decodeWord {k : SlotKind} {w : BitVec 32} {i : Instr} (h : decodeWord k w = .ok i) :
    i.fieldsOk = true := by
  simp only [decodeWord] at h
  split at h
  · split at h <;> cases h
  · split at h
    · cases h; assumption
    · cases h

end Sys2Proof

open Sys2Proof

/-- Settles O49: the opcode map gives the instruction back from its packed word, and the test of its reserved fields decides
whether decoding answers with it. -/
theorem decodeInvertsEncode : Obligations.DecodeInvertsEncode := by
  unfold Obligations.DecodeInvertsEncode
  intro i k w h
  refine ⟨fun hok => ?_, fun hbad hdec => ?_⟩
  · simp only [decodeWord, opcodeOf_of_encode h hok, hok, if_true]
  · rw [fieldsOk_of_decodeWord hdec] at hbad
    cases hbad

end

section
/-! What becomes of a slot instruction that does not take effect (R31, R36, R41, R53, R332): every meaning is one effect that
the gate lets through, so each verdict of the gate says the same of all of them. -/

namespace Sys2Proof.Machine

/-- A transfer's meaning runs an effect as a transfer (R53). -/
theorem exec_of_isTransfer {i : Instr} (h : isTransfer i = true) :
    ∃ eff, ∀ s : State, exec i s = .next (s.runTransfer i eff) := by
  cases i <;> cases h <;> exact ⟨_, fun _ => rfl⟩

/-- The meaning of any other slot instruction runs an effect. -/
theorem exec_of_not_isTransfer {i : Instr} (h : isTransfer i = false) (hw : i.encode.isSome = true) :
    ∃ eff, ∀ s : State, exec i s = .next (s.run i eff) := by
  cases i <;> cases h <;> cases hw <;> exact ⟨_, fun _ => rfl⟩

/-- An instruction that waits changes nothing. -/
theorem exec_of_hold {i : Instr} {s : State} (hw : i.encode.isSome = true) (h : s.gate i = .hold) :
    exec i s = .next s := by
  cases ht : isTransfer i with
  | true =>
    obtain ⟨eff, he⟩ := exec_of_isTransfer ht
    rw [he, State.runTransfer_hold eff h]
  | false =>
    obtain ⟨eff, he⟩ := exec_of_not_isTransfer ht hw
    rw [he, State.run_hold eff h]

/-- An instruction that raises a cause enters the trap at its bundle. -/
theorem exec_of_trap {i : Instr} {s : State} {e : Exc} (hw : i.encode.isSome = true) (h : s.gate i = .trap e) :
    exec i s = .next (s.trapHere e).doneHere := by
  cases ht : isTransfer i with
  | true =>
    obtain ⟨eff, he⟩ := exec_of_isTransfer ht
    rw [he, State.runTransfer_trap eff h]
  | false =>
    obtain ⟨eff, he⟩ := exec_of_not_isTransfer ht hw
    rw [he, State.run_trap eff h]

/-- An instruction that finds an engine parked at a convergence point converges. -/
theorem exec_of_converge {i : Instr} {s : State} (hw : i.encode.isSome = true) (h : s.gate i = .converge) :
    exec i s = .next (s.converge s.cur.head false).doneHere := by
  cases ht : isTransfer i with
  | true =>
    obtain ⟨eff, he⟩ := exec_of_isTransfer ht
    rw [he, State.runTransfer_converge eff h]
  | false =>
    obtain ⟨eff, he⟩ := exec_of_not_isTransfer ht hw
    rw [he, State.run_converge eff h]

end Sys2Proof.Machine

open Sys2Proof Sys2Proof.Machine

/-- Settles O57: a meaning is an effect under the gate, so the verdicts decide alike for every instruction of the slots. -/
theorem gateDecides : Obligations.GateDecides := by
  unfold Obligations.GateDecides
  intro i s hw
  refine ⟨exec_of_hold hw, fun h ht => ?_, fun h ht => ?_, fun e => exec_of_trap hw, exec_of_converge hw⟩
  · obtain ⟨eff, he⟩ := exec_of_not_isTransfer ht hw
    rw [he, State.run_skip eff h]
  · obtain ⟨eff, he⟩ := exec_of_isTransfer ht
    rw [he, State.runTransfer_skip eff h]

end

section
/-! When an instruction of the scalar class issues (R31, R40, R41, R48). -/

namespace Sys2Proof.Machine

theorem Gang.inSys_of_user {g : Gang} (h : g.mode = .user) : g.inSys = false := by rw [Gang.inSys, h]

/-- The S slot needs no unit but the divider (R48). -/
theorem State.unitsFree_slot_zero {s : State} {i : Instr} (hslot : s.cur.slot = 0) (hdiv : s.seq.div = 0) :
    s.unitsFree i = true := by
  simp only [State.unitsFree, hslot]
  split <;> simp [hdiv]

/-- An instruction of the S slot that meets nothing but its guard, its fields, the literal and the divider: in USER mode it
is no transfer, names no token, format or access, and nothing is looked at when its operands are read. -/
structure Instr.Quiet (i : Instr) : Prop where
  slot : ∃ w, i.encode = some (.S, w)
  sb : i.sbOk = true
  still : (isTransfer i || isJump i) = false
  exchange : isExchange i = false
  stage : (formOf i).stage = none
  formats : ∀ s : State, s.formatsOk i = true
  context : ∀ s : State, s.g.inSys = false → s.contextFault i = none
  free : ∀ s : State, s.structFree i = (s.unitsFree i && true)
  operands : ∀ s : State, s.operandCheck i = .go
  segment : ∀ s : State, s.needSeg i = none

/-- Decode finds nothing in a quiet instruction whose fields, codes and literal are right (R40). -/
theorem Instr.Quiet.staticFault {i : Instr} (h : Instr.Quiet i) {s : State} (hslot : s.cur.slot = 0)
    (hsys : s.g.inSys = false) (hfields : i.fieldsOk = true) (hcodes : i.codesOk = true)
    (hlit : s.cur.lit.isSome = true ∨ 63 ∉ i.scalarSources) (hdest : 63 ∉ i.scalarDests) :
    s.staticFault i = none := by
  obtain ⟨w, hw⟩ := h.slot
  have hok : s.slotOk i = true := by rw [State.slotOk, hw, hslot]; rfl
  have hsrc : (s.cur.lit.isNone && i.scalarSources.contains 63) = false := by
    rcases hlit with hl | hl
    · rw [Option.isNone_eq_false_iff.2 hl, Bool.false_and]
    · simpa using fun _ => hl
  have hdst : i.scalarDests.contains 63 = false := by simpa using hdest
  simp only [State.staticFault, hw, hok, hfields, hcodes, hsrc, hdst, h.sb, h.formats, h.exchange, h.still,
    h.context s hsys, Option.isNone_some, Bool.or_false, Bool.not_true, Bool.false_and, Bool.and_false,
    Bool.false_eq_true, if_false, Option.map_none]

/-- A quiet instruction whose guard is true goes. -/
theorem Instr.Quiet.goes {i : Instr} (h : Instr.Quiet i) {s : State} (hslot : s.cur.slot = 0)
    (hsys : s.g.inSys = false) (hfields : i.fieldsOk = true) (hcodes : i.codesOk = true)
    (hlit : s.cur.lit.isSome = true ∨ 63 ∉ i.scalarSources) (hdest : 63 ∉ i.scalarDests)
    (hguard : s.readPred (guardOf i) = true) (hdiv : s.cur.ready = true ∨ s.seq.div = 0) : s.goes i := by
  obtain ⟨w, hw⟩ := h.slot
  have hen : s.enabled i = true := by rw [State.enabled, hguard, h.stage]; rfl
  refine ⟨by rw [State.slotOk, hw, hslot]; rfl, ?_⟩
  by_cases hready : s.cur.ready = true
  · rw [State.gate_ready hready, if_pos hen]
  · have hfree : s.structFree i = true := by
      rw [h.free, State.unitsFree_slot_zero hslot (hdiv.resolve_left hready)]
      rfl
    simp [State.gate, hready, h.staticFault hslot hsys hfields hcodes hlit hdest, hen, hfree, State.issueCheck, hsys,
      h.operands, h.segment]

/-- The instructions of the scalar class are quiet. -/
theorem Instr.quiet_of_scalar {x : SR} {y : SI} {i : Instr}
    (hi : i ∈ [Instr.add x, .sub x, .addi y, .mul x, .mulh x, .div x, .rem x, .andS x, .orS x, .xorS x, .andn x, .andi y,
      .ori y, .xori y, .shl x, .shr x, .sar x, .shli y, .shri y, .sari y, .minS x, .maxS x, .cmp x, .cmpi y, .sel x, .mov x,
      .movi y, .movhi y, .clz x, .popc x, .bfx x, .bfi x, .addsh x, .plog x, .movs x, .eget x, .eset x, .time x, .slack x]) :
    Instr.Quiet i := by
  simp only [List.mem_cons, List.not_mem_nil, or_false] at hi
  rcases hi with rfl | rfl | rfl | rfl | rfl | rfl | rfl | rfl | rfl | rfl | rfl | rfl | rfl | rfl | rfl | rfl | rfl | rfl |
    rfl | rfl | rfl | rfl | rfl | rfl | rfl | rfl | rfl | rfl | rfl | rfl | rfl | rfl | rfl | rfl | rfl | rfl | rfl | rfl |
    rfl <;>
  exact {
    slot := ⟨_, rfl⟩, sb := rfl, still := rfl, exchange := rfl, stage := rfl, formats := fun _ => rfl
    context := fun s h => by unfold State.contextFault; rw [h]; rfl
    free := fun _ => rfl
    operands := fun _ => rfl, segment := fun _ => rfl }

end Sys2Proof.Machine

open Sys2Proof Sys2Proof.Machine

/-- Settles O59: each instruction of the scalar class is quiet, and a quiet one goes. -/
theorem scalarsIssue : Obligations.ScalarsIssue := by
  unfold Obligations.ScalarsIssue
  intro x y s i hi hslot hmode hfields hcodes hlit hdest hguard hdiv
  exact (Instr.quiet_of_scalar hi).goes hslot (Gang.inSys_of_user hmode) hfields hcodes hlit hdest hguard hdiv

end

section
/-! A TRET of USER mode in a delay bundle: R40 looks at delay bundles before it looks at privilege. -/

open Sys2Proof Sys2Proof.Machine

/-- A gang in USER mode whose bundle is the delay bundle of a transfer, with a literal, before it issues. -/
def Sys2Proof.Machine.State.delayed : State := { State.reset with cur := { Issue.idle with lit := some 0, delay := true } }

/-- TRET with every field zero. -/
def Sys2Proof.Instr.tretZero : Instr := .tret ⟨0, 0, 0, 0, 0⟩

/-- In a delay bundle TRET is a DELAYCTL, whatever the mode (R40, R53). -/
theorem Sys2Proof.Machine.State.delayed_gate_tret :
    State.delayed.gate Instr.tretZero = .trap ⟨.delayctl, wordInfo 0 (wordOfInstr Instr.tretZero), 0⟩ := by decide

/-- Refutes O58: TRET in USER mode in a delay bundle, as the counterexample's state holds it, raises DELAYCTL with cause code
2 and not ILL 0x40 with cause code 1, since R40's row for delay bundles comes before the one for privilege. -/
theorem not_trapEntryAndReturn : ¬ Obligations.TrapEntryAndReturn := by
  unfold Obligations.TrapEntryAndReturn
  intro h
  obtain ⟨-, -, hpriv⟩ := h State.delayed 0 0 ⟨.ill, 0, 0⟩ ⟨0, 0, 0, 0, 0⟩ Instr.tretZero
  have hill := hpriv (List.mem_cons_self ..) rfl rfl rfl rfl rfl rfl (by decide) _ rfl
  rw [exec_of_trap rfl State.delayed_gate_tret] at hill
  have hcause := congrArg (fun o => match o with
    | .next t => t.g.trapCause
    | _ => 0) hill
  exact absurd hcause (by decide)

end

section
/-! A bundle's bytes and what fetch reads from a line (R25 to R28, R40). -/

namespace Sys2Proof

open Machine (leBytes_length leValue_leBytes)

/-- A value of n bytes reads back from its bytes, whatever follows them. -/
theorem ofNat_leValue_take {n v : Nat} (w : BitVec v) (hv : v = 8 * n) (rest : List Byte) :
    BitVec.ofNat v (leValue ((leBytes n w.toNat ++ rest).take n)) = w := by
  rw [List.take_left' (leBytes_length n w.toNat), leValue_leBytes, ← hv, Nat.mod_eq_of_lt w.isLt, BitVec.ofNat_toNat,
    BitVec.setWidth_eq]

/-- The bytes of slot words, one after the other (R26). -/
def wordBytes (ws : List (Nat × BitVec 32)) : List Byte := (ws.map fun w => leBytes 4 w.2.toNat).flatten

@[simp] theorem wordBytes_cons (w : Nat × BitVec 32) (ws : List (Nat × BitVec 32)) :
    wordBytes (w :: ws) = leBytes 4 w.2.toNat ++ wordBytes ws := rfl

@[simp] theorem wordBytes_length (ws : List (Nat × BitVec 32)) : (wordBytes ws).length = 4 * ws.length := by
  induction ws with
  | nil => rfl
  | cons w ws ih => simp only [wordBytes_cons, List.length_append, leBytes_length, ih, List.length_cons]; omega

/-- The bytes of a literal, or none (R26). -/
def litBytes : Option (BitVec 32) → List Byte
  | some l => leBytes 4 l.toNat
  | none => []

@[simp] theorem litBytes_length (l : Option (BitVec 32)) : (litBytes l).length = if l.isSome then 4 else 0 := by
  cases l with
  | none => rfl
  | some l => exact leBytes_length 4 l.toNat

theorem Bundle.bytes_eq (b : Bundle) : b.bytes = leBytes 2 b.head.bits.toNat ++ wordBytes b.words ++ litBytes b.lit := by
  cases h : b.lit <;> simp only [Bundle.bytes, wordBytes, litBytes, h]

/-- The slots of a head are at most six. -/
theorem Head.slots_length_le (h : Head) : h.slots.length ≤ 6 :=
  (List.length_filter_le _ _).trans (List.length_range (n := 6)).le

@[simp] theorem readWords_length (ns : List Nat) (bs : List Byte) : (readWords ns bs).length = ns.length := by
  induction ns generalizing bs with
  | nil => rfl
  | cons n ns ih => simp only [readWords, List.length_cons, ih]

/-- The words of the slots that a head names read back from their bytes. -/
theorem readWords_wordBytes (ws : List (Nat × BitVec 32)) (rest : List Byte) :
    readWords (ws.map (·.1)) (wordBytes ws ++ rest) = ws := by
  induction ws with
  | nil => rfl
  | cons w ws ih =>
    simp only [List.map_cons, wordBytes_cons, List.append_assoc, readWords]
    rw [ofNat_leValue_take w.2 rfl, List.drop_left' (leBytes_length 4 _), ih]

/-- A literal reads back where its head announces one. -/
theorem ofNat_litBytes (l : Option (BitVec 32)) (rest : List Byte) :
    (if l.isSome then some (BitVec.ofNat 32 (leValue ((litBytes l ++ rest).take 4))) else none) = l := by
  cases l with
  | none => rfl
  | some l => exact congrArg some (ofNat_leValue_take l rfl rest)

/-- The length of a bundle (R26). -/
theorem Bundle.bytes_length (b : Bundle) :
    b.bytes.length = 2 + 4 * b.words.length + (if b.lit.isSome then 4 else 0) := by
  rw [Bundle.bytes_eq, List.length_append, List.length_append, leBytes_length, wordBytes_length, litBytes_length]

/-- A bundle whose words are those its head announces reads back, whatever follows it. -/
theorem readLine_bytes {b : Bundle} (rest : List Byte) (hwords : b.words.map (·.1) = b.head.slots)
    (hlit : b.lit.isSome = b.head.l) (hbits : b.head.bits ≠ 0) (hslot : b.head.slots ≠ [] ∨ b.head.l = false) :
    readLine (b.bytes ++ rest) = .bundle b := by
  have hlen : b.words.length = b.head.slots.length := by rw [← hwords, List.length_map]
  have hhead : (⟨BitVec.ofNat 16 (leValue ((b.bytes ++ rest).take 2))⟩ : Head) = b.head := by
    rw [Bundle.bytes_eq, List.append_assoc, List.append_assoc, ofNat_leValue_take b.head.bits rfl]
  have hslots : (b.head.slots.isEmpty && b.head.l) = false := by
    rcases hslot with hs | hl
    · rw [List.isEmpty_eq_false_iff.2 hs, Bool.false_and]
    · rw [hl, Bool.and_false]
  have hfit : ¬(b.bytes ++ rest).length < b.head.len := by
    rw [List.length_append, Bundle.bytes_length, hlen, hlit, Head.len]
    omega
  have hdrop : (b.bytes ++ rest).drop 2 = wordBytes b.words ++ (litBytes b.lit ++ rest) := by
    rw [Bundle.bytes_eq, List.append_assoc, List.append_assoc, List.drop_left' (leBytes_length 2 _)]
  have hrest : (b.bytes ++ rest).drop (2 + 4 * b.head.slots.length) = litBytes b.lit ++ rest := by
    rw [← List.drop_drop, hdrop, List.drop_left' (by rw [wordBytes_length, hlen])]
  have hws : readWords b.head.slots (wordBytes b.words ++ (litBytes b.lit ++ rest)) = b.words := by
    rw [← hwords, readWords_wordBytes]
  have hl : (if b.head.l then some (BitVec.ofNat 32 (leValue ((litBytes b.lit ++ rest).take 4))) else none) = b.lit := by
    rw [← hlit, ofNat_litBytes]
  simp only [readLine, hhead, hslots, hfit, hdrop, hrest, hws, hl, decide_false, Bool.or_false, Bool.false_eq_true, if_false]
  exact if_neg fun h0 => hbits ((congrArg Head.bits hhead).symm.trans h0)

/-- A head whose bundle passes the end of its line, or that announces a literal and no slot, is refused (R28, R40). -/
theorem readLine_bad {h : BitVec 16} {rest : List Byte} (h0 : h ≠ 0)
    (hbad : rest.length + 2 < Head.len ⟨h⟩ ∨ (h.extractLsb' 0 6 = 0 ∧ h.getLsbD 6 = true)) :
    ∃ c : Bundle, readLine (leBytes 2 h.toNat ++ rest) = .bad c ∧ c.head.bits = h ∧
      c.words.length = min c.head.slots.length (rest.length / 4) := by
  have hhead : BitVec.ofNat 16 (leValue ((leBytes 2 h.toNat ++ rest).take 2)) = h := ofNat_leValue_take h rfl rest
  have hlen : (leBytes 2 h.toNat ++ rest).length = rest.length + 2 := by
    rw [List.length_append, leBytes_length, Nat.add_comm]
  have hrefused : ((Head.slots ⟨h⟩).isEmpty && Head.l ⟨h⟩ || decide (rest.length + 2 < Head.len ⟨h⟩)) = true := by
    rcases hbad with hb | ⟨hs, hl⟩
    · rw [decide_eq_true hb, Bool.or_true]
    · have hslots : Head.slots ⟨h⟩ = [] := by
        refine List.filter_eq_nil_iff.2 fun n hn => ?_
        have hn6 : n < 6 := List.mem_range.1 hn
        have hbit : h.getLsbD n = false := by
          have := congrArg (fun v => v.getLsbD n) hs
          simpa [BitVec.getLsbD_extractLsb', hn6] using this
        simp [Head.has, hbit]
      simp [hslots, Head.l, hl]
  refine ⟨⟨⟨h⟩, readWords ((Head.slots ⟨h⟩).take ((rest.length + 2 - 2) / 4)) ((leBytes 2 h.toNat ++ rest).drop 2),
    if Head.l ⟨h⟩ then some 0 else none⟩, ?_, rfl, ?_⟩
  · simp only [readLine, hhead, hlen]
    rw [if_neg h0, if_pos hrefused]
  · rw [readWords_length, List.length_take, Nat.add_sub_cancel, Nat.min_comm]

end Sys2Proof

open Sys2Proof

/-- Settles O51: what follows a bundle in its line changes nothing of what its head, words and literal read back as, and a
refused head is one of the two that `readLine` refuses. -/
theorem bundleReadsBack : Obligations.BundleReadsBack := by
  unfold Obligations.BundleReadsBack
  intro b rest h
  refine ⟨fun hwords hlit hbits hslot => ⟨readLine_bytes rest hwords hlit hbits hslot, b.bytes_length, ?_⟩, rfl,
    readLine_bad⟩
  have hlen : b.words.length ≤ 6 := by
    rw [← List.length_map (f := (·.1)), hwords]
    exact b.head.slots_length_le
  rw [Bundle.bytes_length]
  split <;> omega

end

section
/-! Reading the state after one change: an element of a list, a lane and a sequencer, the one that was changed and the
others. -/

namespace Sys2Proof.Machine

theorem getElem?_updAt {α : Type} (f : α → α) :
    ∀ (n m : Nat) (xs : List α), (updAt n f xs)[m]? = if m = n then xs[m]?.map f else xs[m]?
  | _, _, [] => by simp [updAt]
  | 0, 0, x :: xs => rfl
  | 0, m + 1, x :: xs => by simp [updAt]
  | n + 1, 0, x :: xs => by simp [updAt]
  | n + 1, m + 1, x :: xs => by simpa [updAt] using getElem?_updAt f n m xs

theorem getElem?_updAt_of_ne {α : Type} (f : α → α) {n m : Nat} (h : m ≠ n) (xs : List α) :
    (updAt n f xs)[m]? = xs[m]? := by rw [getElem?_updAt, if_neg h]

theorem getElem?_updAt_of_lt {α : Type} (f : α → α) {n : Nat} {xs : List α} (h : n < xs.length) (d : α) :
    (updAt n f xs)[n]? = some (f (xs.getD n d)) := by
  rw [getElem?_updAt, if_pos rfl, List.getD_eq_getElem?_getD, List.getElem?_eq_getElem h]
  rfl

@[simp] theorem length_updAt {α : Type} (f : α → α) : ∀ (n : Nat) (xs : List α), (updAt n f xs).length = xs.length
  | _, [] => by simp only [updAt]
  | 0, _ :: _ => rfl
  | n + 1, _ :: xs => congrArg (· + 1) (length_updAt f n xs)

theorem getD_updAt {α : Type} (f : α → α) (n m : Nat) (xs : List α) (d : α) (hd : f d = d) :
    (updAt n f xs).getD m d = if m = n then f (xs.getD m d) else xs.getD m d := by
  simp only [List.getD_eq_getElem?_getD, getElem?_updAt]
  split
  · cases xs[m]? with
    | none => exact hd.symm
    | some x => rfl
  · rfl

/-- A lane that was changed. -/
theorem Gang.lane_updLane {g : Gang} {l : Nat} (h : l < g.lanes.length) (f : Lane → Lane) :
    (g.updLane l f).lane l = f (g.lane l) := by
  rw [Gang.lane, Gang.updLane, List.getD_eq_getElem?_getD, getElem?_updAt_of_lt f h Lane.start]
  rfl

theorem State.lane_updLane {s : State} {l : Nat} (h : l < s.g.lanes.length) (f : Lane → Lane) :
    (s.updLane l f).g.lane l = f (s.g.lane l) := Gang.lane_updLane h f

@[simp] theorem State.updLane_q1 (s : State) (l : Nat) (f : Lane → Lane) : (s.updLane l f).g.q1 = s.g.q1 := rfl

theorem Gang.updSeq_id (g : Gang) (q : Nat) : g.updSeq q id = g := by
  unfold Gang.updSeq
  split <;> rfl

/-- A change that leaves the sequencer it concerns leaves the gang. -/
theorem Gang.updSeq_self {g : Gang} {q : Nat} {f : Machine.Seq → Machine.Seq} (h : f (g.seq q) = g.seq q) : g.updSeq q f = g :=
  (Gang.updSeq_congr (h := id) h).trans (g.updSeq_id q)

/-- What a change of a die leaves alone reads as before on every die. -/
theorem State.die_updDie_of {α : Type} (p : Die → α) {f : Die → Die} (h : ∀ d, p (f d) = p d) (s : State) (n m : Nat) :
    p ((s.updDie n f).die m) = p (s.die m) := by
  rw [State.die, State.updDie_dies, List.getD_eq_getElem?_getD, getElem?_updAt, State.die, List.getD_eq_getElem?_getD]
  split
  · cases s.dies[m]? with
    | none => rfl
    | some d => exact h d
  · rfl

end Sys2Proof.Machine

end

section
/-! One cycle of a gang's clock in USER mode (R45, R79, R162): every count goes down, and what is due lands. -/

namespace Sys2Proof.Machine

/-- The gang once its counts have gone down by a cycle, with the results still in flight and what is due gone. -/
def Gang.countDown (g : Gang) (ls : List LineInfo) : Gang :=
  (Gang.agePts { g with
    fl := g.fl.map fun x => { x with left := x.left - 1 }, cycle := g.cycle + 1, xbar := g.xbar - 1,
    lanes := g.lanes.map Lane.tick, q0 := g.q0.tick, q1 := g.q1.tick }).ageLeases ls

/-- In a cycle pts and leases age, and each field that a result lands in stays. -/
theorem Gang.countDown_frame (g : Gang) (ls : List LineInfo) :
    (g.countDown ls).fl = (g.fl.map fun x => { x with left := x.left - 1 }) ∧ (g.countDown ls).mode = g.mode ∧
    (g.countDown ls).cycle = g.cycle + 1 ∧ (g.countDown ls).lanes = g.lanes.map Lane.tick ∧
    (g.countDown ls).q0.pts = g.q0.pts + (if (g.cycle + 1) % 16 = 0 ∧ g.loaded = true then 1 else 0) ∧
    (g.countDown ls).q1.block = g.q1.block.tick := by
  unfold Gang.countDown Gang.ageLeases Gang.agePts
  split <;> split <;> simp_all [Seq.tick]

/-- The registers of a sequencer stay while the counts go down. -/
theorem Gang.countDown_seq (g : Gang) (ls : List LineInfo) (q : Nat) :
    ((g.countDown ls).seq q).s = (g.seq q).s ∧ ((g.countDown ls).seq q).p = (g.seq q).p ∧
    ((g.countDown ls).seq q).q = (g.seq q).q ∧ ((g.countDown ls).seq q).toks = (g.seq q).toks := by
  unfold Gang.countDown Gang.ageLeases Gang.agePts Gang.seq
  split <;> split <;> split <;> exact ⟨rfl, rfl, rfl, rfl⟩

/-- A count of a blocked sequencer starts no fragment. -/
theorem Block.tick_ne_starting {b : Block} (h : b ≠ .starting) : b.tick ≠ .starting := by
  cases b <;> simp_all [Block.tick]

theorem Gang.startFragment_of_ne {g : Gang} (h : g.q1.block ≠ .starting) : g.startFragment = g := if_neg h

/-- A gang with other results in flight. -/
def Gang.withFl (g : Gang) (fl : List Landing) : Gang := { g with fl := fl }

/-- The machine once the counts of the gang in focus have gone down. -/
def State.countDown (s : State) : State := s.updG (·.countDown s.lines)

/-- The same, with the results in flight taken out to land. -/
def State.dueOut (s : State) : State := s.countDown.updG (·.withFl [])

/-- The results that land in one cycle, in the order in which they act (R46, R79). -/
def landOrder (ws : List Landed) : List Landed :=
  (dropBeaten ws).filter (·.isClear) ++ (dropBeaten ws).filter (!·.isClear)

theorem State.landDue_eq (s : State) : s.landDue =
    (landOrder ((s.g.fl.filter (·.left == 0)).map (·.what)).flatten).foldl State.landOne
      (s.updG fun g => g.withFl (s.g.fl.filter (·.left != 0))) := rfl

theorem State.tick_user {s : State} (h : s.g.mode = .user) : s.tick = s.countDown.landDue.updG Gang.startFragment := by
  unfold State.tick
  refine congrArg (fun g => State.updG (State.landDue (s.updG fun _ => g)) Gang.startFragment)
    (a₂ := s.g.countDown s.lines) ?_
  dsimp only
  split
  next h' hsys => exact absurd (h.symm.trans hsys) (by simp)
  next => rfl

/-- While cycles are left of the one result in flight, a cycle only counts. -/
theorem State.tick_waits {s : State} {n : Nat} {w : List Landed} {b : Bool} (hmode : s.g.mode = .user)
    (hfl : s.g.fl = [⟨n + 2, w, b⟩]) (hq : s.g.q1.block ≠ .starting) : s.tick = s.countDown := by
  obtain ⟨hfl', -, -, -, -, hblock⟩ := s.g.countDown_frame s.lines
  have hleft : s.countDown.g.fl = [⟨n + 1, w, b⟩] := hfl'.trans (by rw [hfl]; rfl)
  have hland : s.countDown.landDue = s.countDown := by
    rw [State.landDue_eq, hleft]
    exact congrArg (fun fl => s.countDown.updG fun g => g.withFl fl) hleft.symm
  rw [State.tick_user hmode, hland]
  refine congrArg (fun g => s.countDown.updG fun _ => g) (Gang.startFragment_of_ne ?_)
  exact hblock ▸ Block.tick_ne_starting hq

/-- At its last cycle what is in flight lands. -/
theorem State.tick_lands {s : State} {w : List Landed} {b : Bool} (hmode : s.g.mode = .user)
    (hfl : s.g.fl = [⟨1, w, b⟩]) :
    s.tick = ((landOrder w).foldl State.landOne s.dueOut).updG Gang.startFragment := by
  obtain ⟨hfl', -⟩ := s.g.countDown_frame s.lines
  have hleft : s.countDown.g.fl = [⟨0, w, b⟩] := hfl'.trans (by rw [hfl]; rfl)
  rw [State.tick_user hmode, State.landDue_eq, hleft]
  exact congrArg (fun v => State.updG ((landOrder v).foldl State.landOne s.dueOut) Gang.startFragment) (List.append_nil w)

/-- A result that is no access to a system register. -/
def Landed.local : Landed → Bool
  | .sysreg _ _ _ | .sysread _ _ _ => false
  | _ => true

/-- A result other than that of a system register starts no fragment. -/
theorem State.landOne_block {x : Landed} (hx : x.local = true) (s : State) :
    (s.landOne x).g.q1.block = s.g.q1.block := by
  cases x with
  | sreg q r v => simp only [State.landOne, State.updG, Gang.updSeq, Seq.setReg]; split <;> (try split) <;> rfl
  | pred q n v => simp only [State.landOne, State.updG, Gang.updSeq, Seq.setPred]; split <;> (try split) <;> rfl
  | queue q n v => simp only [State.landOne, State.updG, Gang.updSeq]; split <;> rfl
  | token q sys n => simp only [State.landOne, State.lower, State.updG, Gang.updSeq, Seq.lower]; split <;> (try split) <;> rfl
  | sysreg | sysread => cases hx
  | _ => rfl

theorem State.dueOut_block {s : State} (hq : s.g.q1.block ≠ .starting) : s.dueOut.g.q1.block ≠ .starting := by
  obtain ⟨-, -, -, -, -, hblock⟩ := s.g.countDown_frame s.lines
  exact hblock ▸ Block.tick_ne_starting hq

/-- One result lands alone at its last cycle. -/
theorem State.tick_lands_one {s : State} {x : Landed} {b : Bool} (hx : x.local = true) (hmode : s.g.mode = .user)
    (hq : s.g.q1.block ≠ .starting) (hfl : s.g.fl = [⟨1, [x], b⟩]) : s.tick = s.dueOut.landOne x := by
  have horder : landOrder [x] = [x] := by cases h : x.isClear <;> simp [landOrder, dropBeaten, h]
  rw [State.tick_lands hmode hfl, horder]
  refine congrArg (fun g => (s.dueOut.landOne x).updG fun _ => g) (Gang.startFragment_of_ne ?_)
  show (s.dueOut.landOne x).g.q1.block ≠ .starting
  rw [State.landOne_block hx]
  exact State.dueOut_block hq

/-! What a result finds when it lands: the registers as they were, and the lanes with their units a cycle on. -/

theorem State.dueOut_lanes (s : State) : s.dueOut.g.lanes = s.g.lanes.map Lane.tick :=
  (s.g.countDown_frame s.lines).2.2.2.1

theorem State.dueOut_lane {s : State} {l : Nat} (h : l < s.g.lanes.length) : s.dueOut.g.lane l = (s.g.lane l).tick := by
  simp only [Gang.lane, State.dueOut_lanes, List.getD_eq_getElem?_getD, List.getElem?_map, List.getElem?_eq_getElem h,
    Option.map_some, Option.getD_some]

theorem State.dueOut_seq (s : State) (q : Nat) :
    (s.dueOut.g.seq q).s = (s.g.seq q).s ∧ (s.dueOut.g.seq q).p = (s.g.seq q).p ∧
    (s.dueOut.g.seq q).q = (s.g.seq q).q ∧ (s.dueOut.g.seq q).toks = (s.g.seq q).toks :=
  s.g.countDown_seq s.lines q

/-- What lands in a lane alone changes that lane as it stood, but for its units' counts. -/
theorem State.lane_landOne {s : State} {l : Nat} {x : Landed} {f : Lane → Lane} (h : l < s.g.lanes.length)
    (hx : s.dueOut.landOne x = s.dueOut.updLane l f) : (s.dueOut.landOne x).g.lane l = f (s.g.lane l).tick := by
  rw [hx, State.lane_updLane (by rw [State.dueOut_lanes, List.length_map]; exact h), State.dueOut_lane h]

/-- While a result has cycles left, the registers, its own among them, and memory are as they were. -/
theorem State.iterate_tick_waits {s : State} {n : Nat} {w : List Landed} {b : Bool} (hmode : s.g.mode = .user)
    (hfl : s.g.fl = [⟨n + 1, w, b⟩]) (hq : s.g.q1.block ≠ .starting) :
    ∀ k ≤ n, (State.tick^[k] s).g.mode = .user ∧ (State.tick^[k] s).g.fl = [⟨n - k + 1, w, b⟩] ∧
      (State.tick^[k] s).g.q1.block ≠ .starting ∧ (State.tick^[k] s).g.q0.s = s.g.q0.s ∧
      (State.tick^[k] s).g.cycle = s.g.cycle + k ∧ (State.tick^[k] s).mem = s.mem
  | 0, _ => ⟨hmode, hfl, hq, rfl, rfl, rfl⟩
  | k + 1, hk => by
    obtain ⟨hmode', hfl', hq', hs, hcycle, hmem⟩ := State.iterate_tick_waits hmode hfl hq k (by omega)
    obtain ⟨m, hm⟩ : ∃ m, n - k = m + 1 := ⟨n - k - 1, by omega⟩
    rw [hm] at hfl'
    have hstep : State.tick^[k + 1] s = (State.tick^[k] s).countDown := by
      rw [Function.iterate_succ_apply', State.tick_waits hmode' hfl' hq']
    generalize State.tick^[k] s = t at *
    obtain ⟨hfl₂, hmode₂, hcycle₂, -, -, hblock₂⟩ := t.g.countDown_frame t.lines
    obtain ⟨hs₂, -⟩ := t.g.countDown_seq t.lines 0
    rw [hstep]
    refine ⟨hmode₂.trans hmode', hfl₂.trans ?_, hblock₂.symm ▸ Block.tick_ne_starting hq', hs₂.trans hs,
      hcycle₂.trans (by omega), hmem⟩
    rw [hfl', show n - (k + 1) = m by omega]
    rfl

theorem Seq.pred_congr {x y : Machine.Seq} (h : x.p = y.p) (m : BitVec 3) : x.pred m = y.pred m := by
  rw [Seq.pred, Seq.pred, h]

/-! Each kind of result at its last cycle: it alone is in flight. -/

section kinds

variable {z : State} {b : Bool} (hmode : z.g.mode = .user) (hq : z.g.q1.block ≠ .starting)
include hmode hq

theorem State.tick_pred {q : Nat} {p : BitVec 3} {y : Bool} (hfl : z.g.fl = [⟨1, [.pred q p y], b⟩]) (m : BitVec 3) :
    (z.tick.g.seq q).pred m = if m = p ∧ p ≠ 0 then y else (z.g.seq q).pred m := by
  rw [State.tick_lands_one rfl hmode hq hfl]
  show ((Gang.updSeq _ q _).seq q).pred m = _
  rw [Gang.updSeq_seq, Seq.pred_setPred, Seq.pred_congr (z.dueOut_seq q).2.1]

theorem State.tick_queue {q k : Nat} {v : Word} (hfl : z.g.fl = [⟨1, [.queue q k v], b⟩]) :
    (z.tick.g.seq q).q = updAt k (· ++ [v]) (z.g.seq q).q := by
  rw [State.tick_lands_one rfl hmode hq hfl]
  show ((Gang.updSeq _ q _).seq q).q = _
  rw [Gang.updSeq_seq, ← (z.dueOut_seq q).2.2.1]

theorem State.tick_token {q : Nat} {n : BitVec 3} (hfl : z.g.fl = [⟨1, [.token q false n], b⟩]) :
    (z.tick.g.seq q).toks = updAt n.toNat (· - 1) (z.g.seq q).toks := by
  rw [State.tick_lands_one rfl hmode hq hfl]
  show ((Gang.updSeq _ q _).seq q).toks = _
  rw [Gang.updSeq_seq, ← (z.dueOut_seq q).2.2.2]
  rfl

/-- A result of a lane changes the lane as it stood, but for its units' counts. -/
theorem State.tick_lane {l : Nat} {x : Landed} {f : Lane → Lane} (hl : l < z.g.lanes.length) (hx : x.local = true)
    (hone : ∀ s : State, s.landOne x = s.updLane l f) (hfl : z.g.fl = [⟨1, [x], b⟩]) :
    z.tick.g.lane l = f (z.g.lane l).tick := by
  rw [State.tick_lands_one hx hmode hq hfl, State.lane_landOne hl (hone _)]

/-- Of flags set and cleared in one cycle those that are set remain (R79). -/
theorem State.tick_flags_race {l : Nat} {f g : BitVec 5} (hl : l < z.g.lanes.length)
    (hfl : z.g.fl = [⟨1, [.flags l f, .clearFlags l g], b⟩]) :
    (z.tick.g.lane l).status = ((z.g.lane l).status &&& ~~~ g) ||| f := by
  have hlen : l < z.dueOut.g.lanes.length := by rw [State.dueOut_lanes, List.length_map]; exact hl
  have hlen' : l < (z.dueOut.updLane l (·.clearFlags g)).g.lanes.length := by
    show l < (updAt l _ z.dueOut.g.lanes).length
    rwa [length_updAt]
  have hland : (landOrder [.flags l f, .clearFlags l g]).foldl State.landOne z.dueOut =
      (z.dueOut.updLane l (·.clearFlags g)).updLane l (·.setFlags f) := by
    rw [show landOrder [.flags l f, .clearFlags l g] = [.clearFlags l g, .flags l f] from rfl]
    rfl
  have hblock : ((z.dueOut.updLane l (·.clearFlags g)).updLane l (·.setFlags f)).g.q1.block ≠ .starting := by
    rw [State.updLane_q1, State.updLane_q1]
    exact State.dueOut_block hq
  rw [State.tick_lands hmode hfl, hland, State.updG_g, Gang.startFragment_of_ne hblock, State.lane_updLane hlen',
    State.lane_updLane hlen, State.dueOut_lane hl]
  rfl

end kinds

/-- A condition bit that is written, bit by bit. -/
theorem getLsbD_writeBit (c : BitVec 4) (i : BitVec 2) (y : Bool) {m : Nat} (hm : m < 4) :
    (if y then c ||| BitVec.ofNat 4 (2 ^ i.toNat) else c &&& ~~~ BitVec.ofNat 4 (2 ^ i.toNat)).getLsbD m =
      if m = i.toNat then y else c.getLsbD m := by
  have hbit : (BitVec.ofNat 4 (2 ^ i.toNat)).getLsbD m = decide (m = i.toNat) := by
    rw [BitVec.getLsbD_ofNat, Nat.testBit_two_pow, decide_eq_true hm, Bool.true_and, decide_eq_decide, eq_comm]
  cases y with
  | false =>
    rw [if_neg Bool.false_ne_true, BitVec.getLsbD_and, BitVec.getLsbD_not, hbit, decide_eq_true hm]
    split <;> simp [*]
  | true =>
    rw [if_pos rfl, BitVec.getLsbD_or, hbit]
    split <;> simp [*]

theorem Seq.reg_congr {x y : Machine.Seq} (h : x.s = y.s) (r : BitVec 6) : x.reg r = y.reg r := by
  rw [Seq.reg, Seq.reg, h]

end Sys2Proof.Machine

open Sys2Proof Sys2Proof.Machine

theorem Sys2Proof.Machine.State.pts_tick {s : State} {n : Nat} {r : BitVec 6} {v : Word} {b : Bool} (hmode : s.g.mode = .user)
    (hfl : s.g.fl = [⟨n + 1, [.sreg 0 r v], b⟩]) (hq : s.g.q1.block ≠ .starting) :
    s.tick.g.q0.pts = s.g.q0.pts + (if (s.g.cycle + 1) % 16 = 0 ∧ s.g.loaded = true then 1 else 0) := by
  obtain ⟨-, -, -, -, hpts, -⟩ := s.g.countDown_frame s.lines
  cases n with
  | zero =>
    rw [State.tick_lands_one rfl hmode hq hfl, ← hpts]
    show (Seq.setReg _ r v).pts = _
    rw [Seq.setReg]
    split <;> rfl
  | succ n => rw [State.tick_waits hmode hfl hq, ← hpts]; rfl

/-- Settles O56: a count goes down cycle by cycle, and at its last cycle each kind of result makes its one change. -/
theorem resultsLandInTime : Obligations.ResultsLandInTime := by
  unfold Obligations.ResultsLandInTime
  intro s n r v b hmode hfl hq hr0 hr63
  have hwait := State.iterate_tick_waits hmode hfl hq
  obtain ⟨hmode', hfl', hq', hs, hcycle, hmem⟩ := hwait n le_rfl
  rw [Nat.sub_self] at hfl'
  have hlast : State.tick^[n + 1] s = (State.tick^[n] s).dueOut.landOne (.sreg 0 r v) := by
    rw [Function.iterate_succ_apply', State.tick_lands_one rfl hmode' hq' hfl']
  have hreg : ∀ r', (State.tick^[n + 1] s).g.q0.reg r' = ((State.tick^[n] s).dueOut.g.q0.setReg r v).reg r' := fun r' => by
    rw [hlast]; rfl
  refine ⟨fun k hk r' => Seq.reg_congr (hwait k hk).2.2.2.1 r', ?_, ?_, fun r' hr => ?_, ?_, ?_, State.pts_tick hmode hfl hq,
    ?_⟩
  · rw [hreg, Seq.reg_setReg, if_pos ⟨rfl, hr0, hr63⟩]
  · rw [hlast]; rfl
  · rw [hreg, Seq.reg_setReg]
    simp only [hr, false_and, if_false]
    exact Seq.reg_congr (((State.tick^[n] s).dueOut_seq 0).1.trans hs) r'
  · rw [hlast]
    show (Gang.updSeq _ 0 _).cycle = _
    rw [Gang.updSeq_cycle, ← hcycle]
    exact ((State.tick^[n] s).g.countDown_frame _).2.2.1
  · rw [hlast]
    exact hmem
  · clear hwait hmode' hfl' hq' hs hcycle hmem hlast hreg hmode hfl hq
    intro z q l k hmode hq _ hl due x e store
    refine ⟨fun p y b hfl => State.tick_pred hmode hq hfl, fun hk b hfl => ?queue, fun n y b hfl => ?token,
      fun i rows y b hfl => ?tile, fun i off high y b hfl => ?nibble, fun i rows b hfl => ?scale, fun i rows b hfl => ?acc,
      fun i b hfl => ?kmask, fun i b hfl => ?esc, fun i y b hfl m hm => ?cond, fun f g => ⟨fun b hfl => ?set, fun b hfl => ?clear,
      fun b hfl => State.tick_flags_race hmode hq hl hfl⟩, fun n b hfl => ?lastBatch, fun b hfl => ?contpc,
      fun b hfl => ?trappc⟩
    case queue =>
      beta_reduce
      rw [State.tick_queue hmode hq hfl]
      exact ⟨getElem?_updAt_of_lt _ hk [], fun m hm => getElem?_updAt_of_ne _ hm _⟩
    case token =>
      beta_reduce
      rw [State.tick_token hmode hq hfl, getD_updAt _ _ _ _ _ (Nat.zero_sub 1), getD_updAt _ _ _ _ _ (Nat.zero_sub 1)]
      exact ⟨if_pos rfl, fun hy => if_neg hy⟩
    case tile =>
      simp only [store, State.tick_lane hmode hq hl rfl (fun _ => rfl) hfl]
      refine ⟨rfl, ?_, ?_⟩
      · rintro z rfl hi
        exact getElem?_updAt_of_lt _ hi (0, 0)
      · rintro m (rfl | hm)
        · rfl
        · cases y with
          | none => rfl
          | some sh => exact getElem?_updAt_of_ne _ hm _
    case nibble =>
      simp only [store, State.tick_lane hmode hq hl rfl (fun _ => rfl) hfl]
      rfl
    case scale =>
      simp only [store, State.tick_lane hmode hq hl rfl (fun _ => rfl) hfl]
      rfl
    case acc =>
      simp only [store, State.tick_lane hmode hq hl rfl (fun _ => rfl) hfl]
      rfl
    case kmask =>
      beta_reduce
      rw [State.tick_lane hmode hq hl rfl (fun _ => rfl) hfl]
      exact ⟨fun hi => getElem?_updAt_of_lt _ hi 0, fun m hm => getElem?_updAt_of_ne _ hm _⟩
    case esc =>
      beta_reduce
      rw [State.tick_lane hmode hq hl rfl (fun _ => rfl) hfl]
      exact ⟨fun hi => getElem?_updAt_of_lt _ hi 0, fun m hm => getElem?_updAt_of_ne _ hm _⟩
    case cond =>
      rw [State.tick_lane hmode hq hl rfl (fun _ => rfl) hfl]
      exact getLsbD_writeBit _ i y hm
    case set =>
      beta_reduce
      rw [State.tick_lane hmode hq hl rfl (fun _ => rfl) hfl]
      rfl
    case clear =>
      beta_reduce
      rw [State.tick_lane hmode hq hl rfl (fun _ => rfl) hfl]
      rfl
    all_goals
      beta_reduce
      rw [State.tick_lands_one rfl hmode hq hfl]
      rfl
end

section
/-! An X-slot operation at a state that already holds a part under the number the operation takes. -/

open Sys2Proof Sys2Proof.Machine

namespace Sys2Proof.Machine

/-- A part that has started, of an instruction of 7 lanes, under the ticket that the next instruction will take. -/
def Part.ahead : Part :=
  { pid := 16 * State.reset.tkt, q := 0, tok := 0, slot := 4, head := 0, lane := 0, kind := .copy, bar := none, block := [],
    off := 0, batch := none, started := true, got := [], done := [], phase := 0, done2 := [], lost := false, of := 7 }

/-- A gang of one lane that issues in slot X0, with that part. -/
def State.partAhead : State :=
  { State.reset with
    g := { Gang.empty with info := { LInfo.empty with spBytes := 4096 }, parts := [Part.ahead] }
    cur := { Issue.idle with slot := 4, act := 1, ready := true } }

/-- COPY by one lane from its offset 0, without a barrier. -/
def XF.copyZero : XF := ⟨0, 31, 0, 0, 0, 0⟩

end Sys2Proof.Machine

/-- Refutes O35: the issue counts its parts by their ticket, so that where a part with that ticket stands already, as in the
counterexample's state, that part's number of lanes changes from 7 to 1, and the statement has it as it was. -/
theorem not_xSlotParts : ¬ Obligations.XSlotParts := by
  unfold Obligations.XSlotParts
  intro h
  obtain ⟨hissue, -⟩ := h XF.copyZero State.partAhead (.copy XF.copyZero, .copy, 256) (List.mem_cons_self ..)
  have hgoes : State.partAhead.goes (.copy XF.copyZero) := by unfold State.goes; decide
  have hnext := hissue hgoes (by decide) (by decide)
  have hof := congrArg (fun o : Host.Outcome State Fault Refusal => match o with
    | .next t => t.g.parts.map Part.of
    | _ => []) hnext
  exact absurd hof (by decide)

end

section
/-! An instruction of the S slot that goes: it takes no unit but the divider, so that its effect acts on the state as it
stands at issue (R48). -/

namespace Sys2Proof.Machine

theorem State.occupy_S {s : State} {i : Instr} {w : Slotword} (hgo : s.goes i) (hw : i.encode = some (.S, w))
    (hdiv : ∀ x, i ≠ .div x) (hrem : ∀ x, i ≠ .rem x) : s.occupy i = s := by
  rw [State.occupy_zero (State.slot_zero hw hgo.1)]
  split
  · exact absurd rfl (hdiv _)
  · exact absurd rfl (hrem _)
  · rfl

theorem State.run_S {s : State} {i : Instr} {w : Slotword} (hgo : s.goes i) (hw : i.encode = some (.S, w))
    (hdiv : ∀ x, i ≠ .div x) (hrem : ∀ x, i ≠ .rem x) (eff : State → State) : s.run i eff = eff s := by
  rw [State.run_go eff hgo.2, State.occupy_S hgo hw hdiv hrem]

theorem State.runTransfer_S {s : State} {i : Instr} {w : Slotword} (hgo : s.goes i) (hw : i.encode = some (.S, w))
    (hdiv : ∀ x, i ≠ .div x) (hrem : ∀ x, i ≠ .rem x) (eff : State → State) : s.runTransfer i eff = eff s := by
  rw [State.runTransfer_go eff hgo.2, State.occupy_S hgo hw hdiv hrem]

end Sys2Proof.Machine
end

section
/-! The end of a bundle (R53, R83, R85): its sequencer moves on, and a transfer whose delay bundle this is comes nearer. -/

namespace Sys2Proof.Machine

/-- The frames and the address with which fetch goes on after the bundle that ends, when that is `next` (R85). -/
def State.passed (s : State) (next : Nat) : List Frame × Nat × Bool :=
  if s.g.inSys then (s.seq.frames, next, false) else s.seq.after s.g.drainKind s.cur.head next

/-- A sequencer that moves on to where fetch goes. -/
def Seq.moveOn (y : Machine.Seq) (r : List Frame × Nat × Bool) (atEnd : Bool) : Machine.Seq :=
  { y with
    frames := r.1, pc := r.2.1, atEnd := atEnd, atDrain := y.atDrain || r.2.2, pastEnd := r.2.2 && r.1.head?.any (·.n == 0) }

/-- Whether the address fetch goes on at, after the bundle that ends, has run off its segment (R80). -/
def State.ranPast (s : State) : Bool :=
  decide ((s.passed s.cur.next).2.1 = s.cur.next) && ranOff s.cur.head s.cur.next

/-- The machine whose gang in focus is another. -/
def State.withG (s : State) (g : Gang) : State := { s with g := g }

/-- The gang whose sequencer has moved on. -/
def State.movedOn (s : State) : Gang := s.g.updSeq s.cur.q fun y => y.moveOn (s.passed s.cur.next) s.ranPast

theorem State.movedOn_seq (s : State) : s.movedOn.seq s.cur.q = s.seq.moveOn (s.passed s.cur.next) s.ranPast :=
  Gang.updSeq_seq ..

/-- The end of a bundle, by what it means for a pending transfer. -/
theorem State.finish_eq (s : State) : s.finish = State.doneHere (match s.seq.xfer with
    | some t =>
      if s.cur.delay then
        if t.left ≤ 1 then s.withG (s.movedOn.complete s.cur.q t (s.passed s.cur.next).2.1 s.ranPast)
        else s.withG (s.movedOn.updSeq s.cur.q fun y => { y with xfer := some { t with left := t.left - 1 } })
      else s.withG s.movedOn
    | none => s.withG s.movedOn) := rfl

@[simp] theorem State.withG_seq (s : State) (g : Gang) : (s.withG g).seq = g.seq s.cur.q := rfl

@[simp] theorem State.doneHere_seq (s : State) : s.doneHere.seq = s.seq := rfl

theorem State.finish_of_no_xfer {s : State} (h : s.seq.xfer = none) : s.finish = (s.withG s.movedOn).doneHere := by
  rw [State.finish_eq, h]

/-- The bundle of a transfer itself is no delay bundle. -/
theorem State.finish_of_not_delay {s : State} (h : s.cur.delay = false) : s.finish = (s.withG s.movedOn).doneHere := by
  rw [State.finish_eq, h]
  cases s.seq.xfer <;> rfl

/-- A delay bundle after which one is still to come. -/
theorem State.finish_of_far {s : State} {t : Xfer} (h : s.seq.xfer = some t) (hd : s.cur.delay = true) (ht : 2 ≤ t.left) :
    s.finish = (s.withG (s.movedOn.updSeq s.cur.q fun y => { y with xfer := some { t with left := t.left - 1 } })).doneHere := by
  rw [State.finish_eq, h, hd]
  exact congrArg State.doneHere (if_neg (Nat.not_le.2 ht))

/-- The last delay bundle of a transfer. -/
theorem State.finish_of_last {s : State} {t : Xfer} (h : s.seq.xfer = some t) (hd : s.cur.delay = true) (ht : t.left ≤ 1) :
    s.finish = (s.withG (s.movedOn.complete s.cur.q t (s.passed s.cur.next).2.1 s.ranPast)).doneHere := by
  rw [State.finish_eq, h, hd]
  exact congrArg State.doneHere (if_pos ht)

/-- A sequencer at the destination of its transfer. -/
def Seq.arrive (y : Machine.Seq) (x : Xfer) (fall : Nat) (fallEnd : Bool) : Machine.Seq :=
  { y with
    pc := x.dst.getD fall, atEnd := x.dst.isNone && fallEnd, pastEnd := x.dst.isNone && y.pastEnd
    exec := x.mask.getD y.exec, xfer := none }

theorem Gang.complete_seq_nothing (g : Gang) (q : Nat) {x : Xfer} (fall : Nat) (fallEnd : Bool) (h : x.after = .nothing) :
    (g.complete q x fall fallEnd).seq q = (g.seq q).arrive x fall fallEnd := by
  unfold Gang.complete
  rw [h]
  exact Gang.updSeq_seq ..

/-- A transfer that is to end its sequencer ends it where nothing blocks it (R53, R96, R99). -/
theorem Gang.complete_seq_ends (g : Gang) (q : Nat) {x : Xfer} (fall : Nat) (fallEnd : Bool) {b : Block}
    (h : x.after = .endInstance ∧ b = .halted ∨ x.after = .endFragment ∧ b = .fragmentOver) :
    (g.complete q x fall fallEnd).seq q = Seq.endNow { (g.seq q).arrive x fall fallEnd with ends := some b } := by
  unfold Gang.complete
  rcases h with ⟨h, rfl⟩ | ⟨h, rfl⟩
  all_goals
    rw [h]
    dsimp only
    rw [Gang.updSeq_seq, Gang.updSeq_seq]
    rfl

/-! Without frames a sequencer goes on after its bundle (R80). -/

theorem loopAbove_nil (depth head : Nat) (d : DrainKind) (next : Nat) : loopAbove depth head d next [] = ([], next, false) := by
  simp [loopAbove, loopEnd]

theorem Seq.after_nil {x : Machine.Seq} (h : x.frames = []) (d : DrainKind) (head next : Nat) :
    x.after d head next = ([], next, false) := by
  unfold Seq.after
  rw [h]
  split
  · exact loopAbove_nil ..
  · rfl

theorem State.passed_nil {s : State} (h : s.seq.frames = []) (next : Nat) : s.passed next = ([], next, false) := by
  rw [State.passed, h, Seq.after_nil h, ite_self]

theorem State.ranPast_nil {s : State} (h : s.seq.frames = []) : s.ranPast = ranOff s.cur.head s.cur.next := by
  rw [State.ranPast, State.passed_nil h, decide_eq_true rfl, Bool.true_and]

end Sys2Proof.Machine
end

section
/-! HALT, WAIT, IDLE, SEGLD and FCHK at issue, and the ends of a wait (R53, R99 to R102, R106). -/

namespace Sys2Proof.Machine

/-- IDLE is over when it names no token or one that is clear (R101). -/
theorem State.idleOver_eq_true {s : State} {m : BitVec 8} :
    s.idleOver m = true ↔ m = 0 ∨ ∃ k < 8, m.getLsbD k = true ∧ s.tokenSet (BitVec.ofNat 3 k) = false := by
  simp only [State.idleOver, Bool.or_eq_true, beq_iff_eq, List.any_eq_true, List.mem_range, Bool.and_eq_true,
    Bool.not_eq_true']

/-- IDLE goes on while every token it names is set. -/
theorem State.idleOver_eq_false {s : State} {m : BitVec 8} (hm : m ≠ 0)
    (hset : ∀ k < 8, m.getLsbD k = true → s.tokenSet (BitVec.ofNat 3 k) = true) : s.idleOver m = false := by
  rw [← Bool.not_eq_true, State.idleOver_eq_true]
  rintro (h0 | ⟨k, hk, hbit, hclear⟩)
  · exact hm h0
  · rw [hset k hk hbit] at hclear
    cases hclear

theorem State.idleOver_forSeq (s : State) (m : BitVec 8) : (s.forSeq s.cur.q).idleOver m = s.idleOver m := rfl

theorem State.poll_idle {s : State} {q : Nat} {m : BitVec 8} (h : (s.g.seq q).block = .idle m) :
    s.poll q = if (s.forSeq q).idleOver m then s.release q else s := by
  unfold State.poll
  rw [h]

/-- A segment is resident where the frame found for it is. -/
theorem State.hasSegment_eq_true {s : State} {seg : Nat} {f : SegFrame} (hf : s.frameOf seg = some f)
    (hfill : f.fill = .resident) : s.hasSegment seg = true := by
  rw [State.hasSegment, hf, Option.any_some, hfill]
  rfl

theorem State.hasSegment_eq_false {s : State} {seg : Nat}
    (h : ∀ f, s.frameOf seg = some f → f.fill ≠ .resident) : s.hasSegment seg = false := by
  rw [State.hasSegment, Option.any_eq_false]
  exact fun f hf => by simpa using h f hf

/-- The end of a sequencer waits for the block that stands (R53). -/
theorem Seq.endNow_block (x : Machine.Seq) (b : Block) :
    (x.block = .none → (Seq.endNow { x with ends := some b }).block = b ∧ (Seq.endNow { x with ends := some b }).ends = none) ∧
    (x.block ≠ .none → (Seq.endNow { x with ends := some b }).block = x.block ∧
      (Seq.endNow { x with ends := some b }).ends = some b) := by
  constructor
  · intro hb
    simp [Seq.endNow, hb]
  · intro hb
    rw [show Seq.endNow { x with ends := some b } = { x with ends := some b } by
      unfold Seq.endNow
      split
      · rename_i h _
        exact absurd h hb
      · rfl]
    exact ⟨rfl, rfl⟩

/-- The last delay bundle of a transfer that is to end its sequencer (R53, R96, R99). -/
theorem State.finish_ends {s : State} {k : Option Lanes} {after : After} {b : Block}
    (hafter : after = .endInstance ∧ b = .halted ∨ after = .endFragment ∧ b = .fragmentOver)
    (hxfer : s.seq.xfer = some ⟨none, 1, k, after⟩) (hdelay : s.cur.delay = true) :
    ∃ x : Machine.Seq, x.block = s.seq.block ∧ s.finish.seq = Seq.endNow { x with ends := some b } := by
  refine ⟨(s.movedOn.seq s.cur.q).arrive ⟨none, 1, k, after⟩ (s.passed s.cur.next).2.1 s.ranPast, ?_, ?_⟩
  · rw [State.movedOn_seq]
    rfl
  · rw [State.finish_of_last hxfer hdelay le_rfl, State.doneHere_seq, State.withG_seq, Gang.complete_seq_ends _ _ _ _ hafter]

/-- A block that its bundle left is over, and the sequencer that was to end then ends (R53). -/
theorem State.openTurn_ends {s : State} {ex : Meaning} {b : Block} (hb : b ≠ .none) (hsys : s.g.inSys = false)
    (hdrain : s.g.drain = .none) (hblock : s.seq.block = .none) (hends : s.seq.ends = some b) :
    s.openTurn ex s.cur.q = .next (s.updSeq fun q => { q with block := b, ends := none }) := by
  have hnow : s.updSeq Seq.endNow = s.updSeq fun q => { q with block := b, ends := none } :=
    State.updSeq_congr (by rw [Seq.endNow, hblock, hends])
  have hkind : (s.updSeq Seq.endNow).g.drainKind = .none := by
    rw [Gang.drainKind, State.updSeq_g, Gang.updSeq_drain, hdrain]
  have hturn : ((s.updSeq Seq.endNow).g.seq s.cur.q).block = b := by
    rw [State.updSeq_g, Gang.updSeq_seq]
    exact congrArg Seq.block (show s.seq.endNow = { s.seq with block := b, ends := none } by rw [Seq.endNow, hblock, hends])
  rw [← hnow]
  have hopen : s.openTurn ex s.cur.q = (let t := s.updSeq Seq.endNow
      let u := if t.g.inSys ∨ t.g.drainKind = .none then t else t.updG fun g => g.updSeq s.cur.q Seq.drain
      if !u.g.inSys ∧ u.g.drainKind ≠ .none ∧ (u.g.seq s.cur.q).atDrain then .next u
      else if (u.g.seq s.cur.q).block = .none then u.fetchTurn ex s.cur.q else .next u) := by
    unfold State.openTurn
    rw [hsys]
    rfl
  rw [hopen]
  dsimp only
  rw [if_pos (Or.inr hkind), if_neg (fun h => h.2.1 hkind), if_neg (fun h => hb (hturn.symm.trans h))]

end Sys2Proof.Machine

open Sys2Proof Sys2Proof.Machine

/-- Settles O13: each instruction's effect is read off its meaning, and a blocked end is made by the next turn. -/
theorem waitsAndEnds : Obligations.WaitsAndEnds := by
  unfold Obligations.WaitsAndEnds
  intro x y s n m seg tok
  refine ⟨fun h => ?halt, ?ends, ?ended, fun h hn => ?wait0, fun h hn => ?wait, fun h hover => ?idle0, fun h hm hset => ?idle,
    fun k hq hblock => ⟨fun hclear => ?freed, fun hk hset => ?kept⟩, fun h hnot => ?fetch, fun h f hf hfill => ?touch,
    fun h => ?fchk⟩
  case halt =>
    show Host.Outcome.next (s.runTransfer _ _) = _
    rw [State.runTransfer_S h rfl nofun nofun]
    rfl
  case ends =>
    intro k after b hafter hxfer hdelay u
    obtain ⟨x, hx, hu⟩ := State.finish_ends hafter hxfer hdelay
    simp only [u, hu, ← hx]
    exact Seq.endNow_block x b
  case ended => exact fun b hb hsys hdrain hblock hends => State.openTurn_ends hb hsys hdrain hblock hends
  case wait0 =>
    show Host.Outcome.next (s.run _ _) = _
    rw [State.run_S h rfl nofun nofun]
    exact congrArg _ (if_pos hn)
  case wait =>
    show Host.Outcome.next (s.run _ _) = _
    rw [State.run_S h rfl nofun nofun]
    exact congrArg _ (if_neg hn)
  case idle0 =>
    show Host.Outcome.next (s.run _ _) = _
    rw [State.run_S h rfl nofun nofun]
    exact congrArg _ (if_pos (State.idleOver_eq_true.2 hover))
  case idle =>
    show Host.Outcome.next (s.run _ _) = _
    rw [State.run_S h rfl nofun nofun]
    exact congrArg _ (if_neg (Bool.not_eq_true _ ▸ State.idleOver_eq_false hm hset))
  case freed =>
    rw [State.poll_idle hblock, State.idleOver_forSeq, if_pos (State.idleOver_eq_true.2 (.inr hclear))]
  case kept =>
    rw [State.poll_idle hblock, State.idleOver_forSeq, State.idleOver_eq_false hk hset]
    rfl
  case fetch =>
    show Host.Outcome.next (s.run _ _) = _
    rw [State.run_S h rfl nofun nofun]
    refine congrArg _ ((if_neg (Bool.not_eq_true _ ▸ State.hasSegment_eq_false hnot)).trans ?_)
    rw [State.tokened_eq]
    rfl
  case touch =>
    show Host.Outcome.next (s.run _ _) = _
    rw [State.run_S h rfl nofun nofun]
    exact congrArg _ ((if_pos (State.hasSegment_eq_true hf hfill)).trans rfl)
  case fchk =>
    show Host.Outcome.next (s.run _ _) = _
    rw [State.run_S h rfl nofun nofun]

end

section
/-! Transfers at issue, their delay bundles, and the return address of a call (R53, R80, R82, R83). -/

namespace Sys2Proof

/-- A bundle that holds no LOOP or LOOPI. -/
def Bundle.Plain (b : Bundle) : Prop :=
  ∀ w ∈ b.words, w.1 = 0 → ∀ j, decodeWord (slotKindOf w.1) w.2 = .ok j → (∀ r, j ≠ .loop r) ∧ ∀ r, j ≠ .loopi r

end Sys2Proof

namespace Sys2Proof.Machine

theorem State.takeFrame_cur {s t : State} {w : SegFrame} (h : s.takeFrame w = some t) : t.cur = s.cur := by
  obtain ⟨i, -, rfl⟩ := Option.map_eq_some_iff.1 h
  rfl

/-- A fetch that starts leaves the instruction that issues. -/
theorem State.askNew_cur {s t : State} {tab seg slot : Nat} (h : s.askNew tab seg slot = .started t) : t.cur = s.cur := by
  unfold State.askNew at h
  split at h
  · cases h
  · cases h
  · dsimp only at h
    split at h
    · cases h
    · split at h
      · cases h
      · split at h
        · cases h
        · rename_i t' htake
          rw [← State.takeFrame_cur htake]
          split at h <;> cases h <;> rfl

theorem State.startFetch_cur (s : State) (seg : Nat) : (s.startFetch seg).cur = s.cur := by
  unfold State.startFetch
  split
  · rename_i t h
    unfold State.askSegment at h
    split at h
    · split at h
      · exact State.askNew_cur (s := s.dropFailed seg) h
      · cases h
    · exact State.askNew_cur h
  · rfl
  · rfl

theorem State.loopIn_plain {b : Bundle} (h : b.Plain) (s : State) : s.loopIn b = none := by
  unfold State.loopIn
  cases hw : b.words.find? (·.1 == 0) with
  | none => rfl
  | some w =>
    have hplain := h w (List.mem_of_find?_eq_some hw) (by simpa using List.find?_some hw)
    rw [Option.bind_some]
    cases hd : decodeWord (slotKindOf w.1) w.2 with
    | error r => rfl
    | ok j =>
      obtain ⟨hloop, hloopi⟩ := hplain j hd
      dsimp only
      split
      · rename_i heq
        cases heq
        exact absurd rfl (hloop _)
      · rename_i heq
        cases heq
        exact absurd rfl (hloopi _)
      · rfl

/-- The bundle after a bundle that opens no loop, past the END step that it makes (R82, R85). -/
theorem State.follow_plain {s : State} {d : DrainKind} {p : Nat × Bool × List Frame} {h n : Nat} {b : Bundle}
    (hfetch : s.fetch p.1 p.2.1 = .bundle h n b) (hplain : b.Plain) :
    s.follow d p = .ok ((passDrain (loopEnd h d n p.2.2)).2,
      decide ((passDrain (loopEnd h d n p.2.2)).2 = n) && ranOff h n, (passDrain (loopEnd h d n p.2.2)).1) := by
  unfold State.follow
  rw [hfetch]
  dsimp only
  rw [State.loopIn_plain hplain]

theorem passDrain_of_false (fs : List Frame) (pc : Nat) : passDrain (fs, pc, false) = (fs, pc) := rfl

/-- A frame whose END is elsewhere makes no END step (R85). -/
theorem loopEnd_of_ne {f : Frame} {fs : List Frame} {head : Nat} (h : f.fin ≠ head) (d : DrainKind) (next : Nat) :
    loopEnd head d next (f :: fs) = (f :: fs, next, false) := by
  rw [loopEnd, if_pos (Or.inl h)]

/-- The END step of a loop's only frame: the next pass while passes are left, and then on (R85). -/
theorem loopEnd_single {f : Frame} {next : Nat} (hcopied : f.copied = false) (hneff : f.neff = f.n) :
    (f.j + 2 < f.n + f.s → ∃ fs, loopEnd f.fin .none next [f] = (fs, f.start, false)) ∧
    (f.n + f.s ≤ f.j + 2 → loopEnd f.fin .none next [f] = ([], next, false)) := by
  have hstep : ¬(f.fin ≠ f.fin ∨ f.copied = true) := by simp [hcopied]
  constructor
  · intro hlt
    refine ⟨[{ f with neff := f.neff, j := f.j + 1 }], ?_⟩
    rw [loopEnd, if_neg hstep]
    simp [hneff, Nat.not_le.2 hlt]
  · intro hle
    rw [loopEnd, if_neg hstep]
    simp [hneff, hle, loopEnd]

/-- Where fetch goes on after the bundle of a call, past its END step (R82). -/
def State.callFrom (s : State) : List Frame × Nat :=
  if s.g.inSys then ([], s.cur.next) else passDrain (s.seq.after s.g.drainKind s.cur.head s.cur.next)

/-- A return address is found in two steps, one for each delay bundle. -/
theorem State.retAddr_of_follow {s : State} {p p' : Nat × Bool × List Frame}
    (h : s.follow s.g.drainKind (s.callFrom.2, decide (s.callFrom.2 = s.cur.next) && ranOff s.cur.head s.cur.next,
      s.callFrom.1) = .ok p)
    (h' : s.follow s.g.drainKind p = .ok p') : s.retAddr = .ok p'.1 := by
  have heq : s.retAddr = (s.follow s.g.drainKind (s.callFrom.2, decide (s.callFrom.2 = s.cur.next) &&
      ranOff s.cur.head s.cur.next, s.callFrom.1)).bind fun p => (s.follow s.g.drainKind p).bind fun p => .ok p.1 := rfl
  rw [heq, h]
  show (s.follow s.g.drainKind p).bind _ = _
  rw [h']
  rfl

/-- The second delay bundle of a call whose first goes on after itself (R82). -/
theorem State.retAddr_of_frames {s : State} {h n h' n' : Nat} {b b' : Bundle} {fs : List Frame}
    (hfrom : s.callFrom = (fs, s.cur.next))
    (hfetch : s.fetch s.cur.next (ranOff s.cur.head s.cur.next) = .bundle h n b)
    (hfetch' : s.fetch n (ranOff h n) = .bundle h' n' b') (hplain : b.Plain) (hplain' : b'.Plain)
    (hfirst : loopEnd h s.g.drainKind n fs = (fs, n, false)) :
    s.retAddr = .ok (passDrain (loopEnd h' s.g.drainKind n' fs)).2 := by
  have hone : s.follow s.g.drainKind (s.callFrom.2, decide (s.callFrom.2 = s.cur.next) && ranOff s.cur.head s.cur.next,
      s.callFrom.1) = .ok (n, ranOff h n, fs) := by
    rw [hfrom, State.follow_plain (by rwa [decide_eq_true rfl, Bool.true_and]) hplain]
    dsimp only
    rw [hfirst, passDrain_of_false, decide_eq_true rfl, Bool.true_and]
  exact State.retAddr_of_follow hone (State.follow_plain hfetch' hplain')

/-- Where no frame is open and neither delay bundle opens a loop, a call links the address after the second (R82). -/
theorem State.retAddr_nil {s : State} {h n h' n' : Nat} {b b' : Bundle} (hframes : s.seq.frames = [])
    (hfetch : s.fetch s.cur.next (ranOff s.cur.head s.cur.next) = .bundle h n b)
    (hfetch' : s.fetch n (ranOff h n) = .bundle h' n' b') (hplain : b.Plain) (hplain' : b'.Plain) : s.retAddr = .ok n' := by
  have hfrom : s.callFrom = ([], s.cur.next) := by
    rw [State.callFrom, Seq.after_nil hframes, passDrain_of_false, ite_self]
  exact State.retAddr_of_frames hfrom hfetch hfetch' hplain hplain' rfl

/-- Where the second delay bundle is the END bundle of the only frame, a call links START while passes are left, and the
address after END where none are (R82, R85). -/
theorem State.retAddr_end {s : State} {h n h' n' : Nat} {b b' : Bundle} {f : Frame} (hmode : s.g.mode = .user)
    (hdrain : s.g.drain = .none) (hxfer : s.seq.xfer = none) (hframes : s.seq.frames = [f]) (hcopied : f.copied = false)
    (hneff : f.neff = f.n) (hfin : f.fin = h') (hhead : h' ≠ s.cur.head) (hh : h' ≠ h)
    (hfetch : s.fetch s.cur.next (ranOff s.cur.head s.cur.next) = .bundle h n b)
    (hfetch' : s.fetch n (ranOff h n) = .bundle h' n' b') (hplain : b.Plain) (hplain' : b'.Plain) :
    (f.j + 2 < f.n + f.s → s.retAddr = .ok f.start) ∧ (f.n + f.s ≤ f.j + 2 → s.retAddr = .ok n') := by
  subst hfin
  have hkind : s.g.drainKind = .none := by rw [Gang.drainKind, hdrain]
  have hsys : s.g.inSys = false := by rw [Gang.inSys, hmode]
  have hafter : s.seq.after s.g.drainKind s.cur.head s.cur.next = ([f], s.cur.next, false) := by
    rw [Seq.after, hxfer, hframes]
    exact loopEnd_of_ne hhead ..
  have hfrom : s.callFrom = ([f], s.cur.next) := by
    rw [State.callFrom, hsys, hafter]
    rfl
  have hret := State.retAddr_of_frames hfrom hfetch hfetch' hplain hplain' (loopEnd_of_ne hh ..)
  rw [hkind] at hret
  obtain ⟨hnext, hover⟩ := loopEnd_single (next := n') hcopied hneff
  constructor
  · intro hlt
    obtain ⟨fs, hfs⟩ := hnext hlt
    rw [hret, hfs]
    rfl
  · intro hle
    rw [hret, hover hle]
    rfl

/-- A sequencer whose transfer's second delay bundle ends stands at the destination (R83). -/
theorem State.finish_seq_arrive {s : State} {d : Option Nat} {m : Option Lanes}
    (hx : s.seq.xfer = some ⟨d, 1, m, .nothing⟩) (hd : s.cur.delay = true) :
    s.finish.seq = (s.seq.moveOn (s.passed s.cur.next) s.ranPast).arrive ⟨d, 1, m, .nothing⟩ (s.passed s.cur.next).2.1
      s.ranPast := by
  rw [State.finish_of_last hx hd le_rfl, State.doneHere_seq, State.withG_seq,
    Gang.complete_seq_nothing (x := ⟨d, 1, m, .nothing⟩) _ _ _ _ rfl, State.movedOn_seq]

theorem State.finish_mem (s : State) : s.finish.mem = s.mem := by
  rw [State.finish_eq]
  split
  · split
    · split <;> rfl
    · rfl
  · rfl

/-- A branch is taken as its guard and N say (R82). -/
theorem State.sbTaken_iff {s : State} {x : SB} : s.sbTaken x = true ↔ s.readPred x.p ≠ (x.n == 1) := bne_iff_ne

theorem State.link_ok {s : State} {r : BitVec 6} {a : Nat} (h : s.retAddr = .ok a) :
    s.link r = s.lands 1 r (BitVec.ofNat 64 a) := by
  unfold State.link
  rw [h]
  rfl

end Sys2Proof.Machine

open Sys2Proof Sys2Proof.Machine

/-- Settles O9: a transfer leaves its destination pending, the end of each delay bundle brings it nearer, and a call's link
is what fetch does after both. -/
theorem branches : Obligations.Branches := by
  unfold Obligations.Branches
  intro x y s ret taken dst A f past
  refine ⟨fun h ht => ?br, fun h ht => ?brNot, fun h => ?jmp, fun h => ?jr, fun h ht hr => ?call, fun h ht => ?callNot,
    fun h hr => ?callr, fun h => ?ret, fun t hx hd => ?own, fun t hx hd ht => ?far, fun d m hx hd => ?there,
    fun m hx hd hf => ?on, fun hx hf => ?plain, ?link⟩
  case br =>
    show Host.Outcome.next (s.runTransfer _ _) = _
    rw [State.runTransfer_S h rfl nofun nofun, State.sbTaken_iff.2 ht]
    rfl
  case brNot =>
    show Host.Outcome.next (s.runTransfer _ _) = _
    rw [State.runTransfer_S h rfl nofun nofun, Bool.eq_false_iff.2 (mt State.sbTaken_iff.1 ht)]
    rfl
  case jmp =>
    show Host.Outcome.next (s.runTransfer _ _) = _
    rw [State.runTransfer_S h rfl nofun nofun]
    simp only [State.branch, State.sbDst, State.relDst, State.startFetch_cur]
    rfl
  case jr =>
    show Host.Outcome.next (s.runTransfer _ _) = _
    rw [State.runTransfer_S h rfl nofun nofun]
    rfl
  case call =>
    show Host.Outcome.next (s.runTransfer _ _) = _
    rw [State.runTransfer_S h rfl nofun nofun, State.sbTaken_iff.2 ht, if_pos rfl, State.link_ok hr]
    rfl
  case callNot =>
    show Host.Outcome.next (s.runTransfer _ _) = _
    rw [State.runTransfer_S h rfl nofun nofun, Bool.eq_false_iff.2 (mt State.sbTaken_iff.1 ht)]
    rfl
  case callr =>
    show Host.Outcome.next (s.runTransfer _ _) = _
    rw [State.runTransfer_S h rfl nofun nofun, State.link_ok hr]
    rfl
  case ret =>
    show Host.Outcome.next (s.runTransfer _ _) = _
    rw [State.runTransfer_S h rfl nofun nofun]
    rfl
  case own =>
    simp only [f, State.finish_of_not_delay hd, State.doneHere_seq, State.withG_seq, State.movedOn_seq]
    exact hx
  case far =>
    simp only [f, State.finish_of_far hx hd ht, State.doneHere_seq, State.withG_seq, Gang.updSeq_seq]
  case there =>
    simp only [f, State.finish_seq_arrive hx hd, State.finish_mem]
    exact ⟨rfl, rfl, rfl, rfl, rfl, rfl, rfl, rfl, trivial⟩
  case on =>
    simp only [f, State.finish_seq_arrive hx hd, State.passed_nil hf, State.ranPast_nil hf]
    simp [Seq.arrive, Seq.moveOn, hf, past]
  case plain =>
    simp only [f, State.finish_of_no_xfer hx, State.doneHere_seq, State.withG_seq, State.movedOn_seq, State.passed_nil hf,
      State.ranPast_nil hf]
    refine ⟨?_, rfl, rfl⟩
    simp [Seq.moveOn, hf, past]
  case link =>
    intro h n b h' n' b' hfetch hfetch' plain hplain hplain'
    refine ⟨fun hf => State.retAddr_nil hf hfetch hfetch' hplain hplain', ?_⟩
    intro f hmode hdrain hxfer hframes hcopied hneff hpos hfin hhead hh
    obtain ⟨hnext, hover⟩ :=
      State.retAddr_end hmode hdrain hxfer hframes hcopied hneff hfin hhead hh hfetch hfetch' hplain hplain'
    exact ⟨fun hj => hnext (by omega), fun hj => hover (by omega)⟩

end

section
/-! The accesses of a sequencer at issue, and what a FENCE waits for (R143 to R148). -/

namespace Sys2Proof.Machine

/-- Sign extension of a 6-bit immediate (R143). -/
theorem sextNat_six (b : BitVec 6) : sextNat b.toNat 6 = b.toInt := by
  have hb : b.toNat < 64 := b.isLt
  have hbit : b.toNat.testBit 5 = decide (32 ≤ b.toNat) := by
    rw [Nat.testBit_eq_decide_div_mod_eq, decide_eq_decide]
    omega
  rw [BitVec.toInt_eq_toNat_cond]
  simp only [sextNat, Nat.mod_eq_of_lt (show b.toNat < 2 ^ 6 from hb), Nat.reduceSub, hbit, decide_eq_true_eq]
  split <;> split <;> omega

theorem State.immAddr_eq (s : State) (x : SM) (n : Nat) :
    s.immAddr x n = s.operand x.a + BitVec.ofInt 64 (x.b.toInt * n) := by rw [State.immAddr, sextNat_six]; rfl

/-- An index counts in units of the access (R143). -/
theorem State.idxAddr_eq (s : State) (x : SM) :
    s.idxAddr x = s.operand x.a + s.operand x.b * BitVec.ofNat 64 (2 ^ x.size.toNat) := by
  rw [State.idxAddr]
  refine congrArg _ (BitVec.eq_of_toNat_eq ?_)
  rw [BitVec.toNat_shiftLeft, BitVec.toNat_mul, BitVec.toNat_ofNat, Nat.mul_mod_mod, Nat.shiftLeft_eq]

/-- Where an access lies decides what its issue leaves: its translation filled, or nothing. -/
theorem State.keyOf_cases (s : State) (a : Access) : ∃ ent key, s.keyOf a = (s.filled ent, key) := by
  unfold State.keyOf
  split
  · exact ⟨some _, _, rfl⟩
  · exact ⟨none, _, rfl⟩
  · exact ⟨none, 0, rfl⟩

/-- Every access that issues leaves one outstanding, wherever it lies. -/
theorem State.issueAcc_cases (s : State) (x : SM) (a : Access) (k : AccKind) : ∃ ent key,
    s.issueAcc x a k = (s.filled ent).withAcc x.tok x.d k a.va key a.size (x.sign == 1) := by
  obtain ⟨ent, key, h⟩ := s.keyOf_cases a
  refine ⟨ent, key, ?_⟩
  unfold State.issueAcc State.withAcc
  rw [h]
  simp only [State.takeTicket, State.filled_tkt, State.filled_inSys]
  rfl

theorem State.filled_mem (s : State) (ent : Option TlbEnt) : (s.filled ent).mem = s.mem := by cases ent <;> rfl

theorem State.filled_reg (s : State) (ent : Option TlbEnt) (r : BitVec 6) : (s.filled ent).seq.reg r = s.seq.reg r := by
  cases ent with
  | none => rfl
  | some e =>
    rw [State.filled, State.fillTlbs, State.updSeq_seq]
    rfl

theorem State.raise_reg (s : State) (tok : BitVec 3) (r : BitVec 6) : (s.raise tok).seq.reg r = s.seq.reg r := by
  rw [State.raise, State.updSeq_seq, Seq.raise]
  split <;> rfl

theorem State.updAcc_reg (s : State) (f : List SeqAcc → List SeqAcc) (r : BitVec 6) :
    (s.updSeq fun q => { q with acc := f q.acc }).seq.reg r = s.seq.reg r := by
  rw [State.updSeq_seq]
  rfl

theorem State.seq_tkt (s : State) (n : Nat) : ({ s with tkt := n } : State).seq = s.seq := rfl

theorem State.loaded_reg (s : State) (r : BitVec 6) : (s.updG fun g => { g with loaded := true }).seq.reg r = s.seq.reg r := rfl

theorem State.withAcc_reg (s : State) (tok : BitVec 3) (d : BitVec 6) (k : AccKind) (va : Word) (key size : Nat) (sign : Bool)
    (r : BitVec 6) : (s.withAcc tok d k va key size sign).seq.reg r = s.seq.reg r := by
  unfold State.withAcc
  rw [State.seq_tkt]
  exact (State.updAcc_reg _ (· ++ [_]) r).trans ((State.loaded_reg _ r).trans (s.raise_reg tok r))

/-! What a FENCE waits for (R148). -/

/-- A store of its own sequencer comes before an access that has issued later (R155). -/
theorem Gang.before_self (g : Gang) (p k n : Nat) (h : k < n) : g.before p k p n = true := by
  simp [Gang.before, h]

theorem Gang.olderStore_of_mem {g : Gang} {q n : Nat} (hq : q ≤ 1) {e : StoreEnt} (he : e ∈ (g.seq q).sb) (hlt : e.tkt < n) :
    g.olderStore q n = true := by
  rw [Gang.olderStore, Bool.or_eq_true, List.any_eq_true, List.any_eq_true]
  rcases (by omega : q = 0 ∨ q = 1) with rfl | rfl
  · exact .inl ⟨e, he, g.before_self 0 _ _ hlt⟩
  · exact .inr ⟨e, he, g.before_self 1 _ _ hlt⟩

theorem Gang.olderAtomic_of_op {g : Gang} {q n : Nat} {o : TokOp} (ho : o ∈ g.ops) (hq : o.q = q) (hlt : o.oid < n)
    (hk : o.kind.atomic = true) : g.olderAtomic q n = true := by
  subst hq
  rw [Gang.olderAtomic, Bool.or_eq_true]
  exact .inr (List.any_eq_true.2 ⟨o, ho, by rw [hk, g.before_self _ _ _ hlt]; rfl⟩)

/-- A retrieval clear is one of the commands with bit 7 set (R268). -/
theorem OpKind.rstat_atomic (n c : Word) (h : 128 ≤ c.toNat) (h' : c.toNat ≤ 134) : (OpKind.rstat n c).atomic = true := by
  rw [OpKind.atomic, BitVec.getLsbD, Nat.testBit_eq_decide_div_mod_eq, decide_eq_true_eq]
  omega

/-- With nothing of these kinds outstanding, a fence holds nothing back. -/
theorem Gang.fenced_of_quiet {g : Gang} (q n : Nat) (b : BitVec 16) (hsb : g.q0.sb ++ g.q1.sb = [])
    (hacc : ∀ a ∈ g.q0.acc ++ g.q1.acc, a.kind = .load ∨ a.kind = .pref) (heng : g.eng = []) (hops : g.ops = [])
    (hparts : ∀ r ∈ g.parts, r.batch = none ∧ r.kind.retrieval = false) : g.fenced q n b = true := by
  obtain ⟨hsb0, hsb1⟩ := List.append_eq_nil_iff.1 hsb
  have hno : ∀ a ∈ g.q0.acc ++ g.q1.acc, a.kind.atomic = false := fun a ha => by
    rcases hacc a ha with h | h <;> rw [h] <;> rfl
  have hstore : g.olderStore q n = false := by rw [Gang.olderStore, hsb0, hsb1]; rfl
  have hatomic : g.olderAtomic q n = false := by
    simp only [Gang.olderAtomic, heng, hops, List.any_nil, Bool.or_false, Bool.or_eq_false_iff, List.any_eq_false]
    exact ⟨fun a ha => by simp [hno a (List.mem_append_left _ ha)], fun a ha => by simp [hno a (List.mem_append_right _ ha)]⟩
  have hbatch : g.batchesDone b = true := by
    rw [Gang.batchesDone, List.all_eq_true]
    intro r hr
    rw [(hparts r hr).1]
  have hpush : g.olderPush q n = false := by rw [Gang.olderPush, hops]; rfl
  have hret : g.olderRet q n = false := by
    rw [Gang.olderRet, List.any_eq_false]
    intro r hr
    simp [(hparts r hr).2]
  rw [Gang.fenced, hstore, hatomic, hbatch, hpush, hret]
  rfl

theorem State.poll_fence {s : State} {q scope k : Nat} {b : BitVec 16} (h : (s.g.seq q).block = .fence scope b k) :
    s.poll q = if s.g.fenced q k b then (s.publishBatches scope q b).setBlock q .none else s := by
  unfold State.poll
  rw [h]

end Sys2Proof.Machine

open Sys2Proof Sys2Proof.Machine

/-- Settles O14: each access is left at the address its form gives, and a fence's poll is the test of what is before it. -/
theorem loadsAndStores : Obligations.LoadsAndStores := by
  unfold Obligations.LoadsAndStores
  intro x y s key ent line n near far A B D sg t store
  have hnear : s.immAddr x (SM.bytes x) = near := s.immAddr_eq x _
  have hfar : s.idxAddr x = far := s.idxAddr_eq x
  have hline : s.immAddr x 256 = line := s.immAddr_eq x 256
  refine ⟨fun h hat => ?ld, fun h hat => ?ldx, fun h hat => ?st, fun h hat => ?stx, fun hat => ⟨fun h => ?amo, fun h => ?swap,
    fun h => ?cas, fun h => ?incb⟩, fun h hat => ?pref, fun h hno => ?drop, fun h => ?fence, fun q scope b k hq hblock => ?poll⟩
  case ld =>
    show Host.Outcome.next (s.run _ _) = _
    rw [State.run_S h rfl nofun nofun, hnear]
    exact congrArg Host.Outcome.next (State.issueAcc_at x _ hat)
  case ldx =>
    show Host.Outcome.next (s.run _ _) = _
    rw [State.run_S h rfl nofun nofun, hfar]
    exact congrArg Host.Outcome.next (State.issueAcc_at x _ hat)
  case st =>
    show Host.Outcome.next (s.run _ _) = _
    rw [State.run_S h rfl nofun nofun, hnear]
    exact congrArg Host.Outcome.next (State.issueStore_at x hat)
  case stx =>
    show Host.Outcome.next (s.run _ _) = _
    rw [State.run_S h rfl nofun nofun, hfar]
    exact congrArg Host.Outcome.next (State.issueStore_at x hat)
  case amo =>
    show Host.Outcome.next (s.run _ _) = _
    rw [State.run_S h rfl nofun nofun]
    exact congrArg Host.Outcome.next (State.issueAcc_at x _ hat)
  case swap =>
    show Host.Outcome.next (s.run _ _) = _
    rw [State.run_S h rfl nofun nofun]
    exact congrArg Host.Outcome.next (State.issueAcc_at x _ hat)
  case cas =>
    show Host.Outcome.next (s.run _ _) = _
    rw [State.run_S h rfl nofun nofun]
    exact congrArg Host.Outcome.next (State.issueAcc_at x _ hat)
  case incb =>
    show Host.Outcome.next (s.run _ _) = _
    rw [State.run_S h rfl nofun nofun]
    exact congrArg Host.Outcome.next (State.issueAcc_at x _ hat)
  case pref =>
    show Host.Outcome.next (s.run _ _) = _
    rw [State.run_S h rfl nofun nofun]
    dsimp only
    rw [hline, hat]
    dsimp only
    rw [State.issueAcc_at x _ hat]
    rfl
  case drop =>
    obtain ⟨ent', key', hacc⟩ := s.issueAcc_cases x ⟨line, 0, 0⟩ .pref
    refine ⟨s.issueAcc x ⟨line, 0, 0⟩ .pref, ?_, ?_, ?_, fun r => ?_⟩
    · show Host.Outcome.next (s.run _ _) = _
      rw [State.run_S h rfl nofun nofun]
      dsimp only
      rw [hline]
      split
      · rename_i k e hk
        exact absurd hk (hno k e)
      · rfl
    · rw [hacc]
      exact s.filled_mem ent'
    · rw [hacc]
      exact congrArg (· + 1) (s.filled_tkt ent')
    · rw [hacc, State.withAcc_reg, State.filled_reg]
  case fence =>
    show Host.Outcome.next (s.run _ _) = _
    rw [State.run_S h rfl nofun nofun]
    rfl
  case poll =>
    rw [State.poll_fence hblock]
    refine ⟨fun hsb hacc heng hops hparts => if_pos (Gang.fenced_of_quiet q k b hsb hacc heng hops hparts), ?_, ?_⟩
    · rintro ⟨e, he, hlt⟩
      refine if_neg ?_
      simp [Gang.fenced, Gang.olderStore_of_mem hq he hlt]
    · rintro ⟨o, ho, hoq, hlt, hkind⟩
      have hatomic : o.kind.atomic = true := by
        rcases hkind with ⟨j, m, v, c, hk⟩ | ⟨m, c, hk, hlo, hhi⟩
        · rw [hk]; rfl
        · rw [hk]; exact OpKind.rstat_atomic m c hlo hhi
      refine if_neg ?_
      simp [Gang.fenced, Gang.olderAtomic_of_op ho hoq hlt hatomic]

end

section
/-! A cycle of the gang in focus whose bundle nothing keeps from issuing (R41, R43, R53, R80). -/

namespace Sys2Proof.Machine

theorem State.dieCycle_g (s : State) : ∃ n, s.dieCycle.g = { s.g with slowed := n } := by
  unfold State.dieCycle
  dsimp only
  split
  · split <;> exact ⟨s.g.slowed + 1, rfl⟩
  · exact ⟨s.g.slowed, rfl⟩

theorem State.updHealth_mySlot (s : State) (n : Nat) (f : Health → Health) : (s.updHealth n f).mySlot = s.mySlot := by
  have hdie : ((s.updHealth n f).die s.myDie).slots = (s.die s.myDie).slots :=
    State.die_updDie_of (·.slots) (f := fun d => { d with health := f d.health }) (fun _ => rfl) s n _
  exact congrArg (·.getD s.g.place.slot ⟨[], [], [], false⟩) hdie

/-- Counting the cycle in the health of its die leaves the slot as it was. -/
theorem State.dieCycle_mySlot (s : State) : s.dieCycle.mySlot = s.mySlot := by
  unfold State.dieCycle
  dsimp only
  split
  · split
    · exact State.updHealth_mySlot _ _ _
    · rfl
  · rfl

theorem State.serveWants_of_nil {s : State} (h : s.mySlot.wants = []) : s.serveWants = s := by
  rw [State.serveWants, h]
  rfl

/-- A gang in USER mode with nothing held, nothing to drain and no block comes to its fetch. -/
theorem State.turn_fetch {s : State} (ex : Meaning) {q : Nat} (hmode : s.g.mode = .user) (hdef : s.g.deferred = [])
    (hdrain : s.g.drain = .none) (hblock : (s.g.seq q).block = .none) (hends : (s.g.seq q).ends = none) :
    s.turn ex q = s.fetchTurn ex q := by
  have hsys : s.g.inSys = false := by rw [Gang.inSys, hmode]
  have hkind : s.g.drainKind = .none := by rw [Gang.drainKind, hdrain]
  have habandon : s.abandon q = s := if_pos (.inr (.inl (by rw [hkind]; nofun)))
  have hpoll : s.poll q = s := by
    unfold State.poll
    rw [hblock]
  have hnow : (s.updG fun g => g.updSeq q Seq.endNow) = s := by
    rw [State.updG, Gang.updSeq_self (by rw [Seq.endNow, hblock, hends])]
  have hopen : s.openTurn ex q = s.fetchTurn ex q := by
    unfold State.openTurn
    simp only [hsys, hkind, hnow, hblock, or_true, Bool.false_eq_true, ne_eq, not_true, false_and, and_false, if_true, if_false]
  unfold State.turn
  simp only [hsys, hdef, habandon, hblock, hpoll, hopen, andThen, List.isEmpty_nil, Bool.not_true, Bool.not_false,
    Bool.false_eq_true, Bool.and_false, Bool.false_and, Bool.or_false, and_false, if_false, reduceCtorEq]

theorem State.fetchTurn_bundle {s : State} (ex : Meaning) {q head next : Nat} {b : Bundle}
    (h : (s.forSeq q).fetch (s.g.seq q).pc (s.g.seq q).atEnd = .bundle head next b) :
    s.fetchTurn ex q = s.comeUp ex q head next b := by
  unfold State.fetchTurn
  rw [h]

theorem State.overlay_of_no_k (s : State) {head : Nat} {b : Bundle} (h : b.head.k = false) : s.overlay head b = none := by
  rw [State.overlay, h]
  rfl

theorem State.comeUp_issues {s : State} (ex : Meaning) {q head next : Nat} {b : Bundle}
    (hk : b.head.k = false) (hfault : (s.atBundle q head next b).decodeFault b = none)
    (hhurdle : (s.atBundle q head next b).hurdle b = .none) (hwake : s.g.wake = 0) :
    s.comeUp ex q head next b = (s.atBundle q head next b).started.issue ex b (b.words.filterMap slotInstr) := by
  unfold State.comeUp
  simp only [hfault, hhurdle, State.overlay_of_no_k _ hk, Option.bind_none]
  exact if_neg (fun h => h hwake)

/-- A slot that was gated starts again with no change to what the bundle in issue knows. -/
theorem State.started_cur (s : State) : s.started.cur = s.cur := by
  unfold State.started
  split <;> rfl

/-- A bundle with words and no overlay runs them in slot order, those that move fetch themselves last (R43). -/
theorem State.issue_words {s : State} (ex : Meaning) {b : Bundle} {l : List (Nat × Instr)} (hk : b.head.k = false) (hl : l ≠ []) :
    s.issue ex b l =
      let v := s.touchSegment (s.cur.head / 2 ^ 16)
      andThen (runSlots ex (l.filter (fun x => !actsLast x.2) ++ l.filter (fun x => actsLast x.2))
        { v with cur := { v.cur with act := v.g.activeNow s.cur.q, sp := v.seq.stages, ready := true, tkt0 := v.tkt, issued := true } })
        fun t => .next (if t.cur.done then t else t.finish) := by
  unfold State.issue
  simp only [State.overlay_of_no_k _ hk, List.isEmpty_eq_false_iff.2 hl, Bool.false_eq_true, if_false]
  rfl

/-- One word runs alone, whether or not it moves fetch itself. -/
theorem runSlots_single (ex : Meaning) (n : Nat) (i : Instr) (s : State) :
    runSlots ex ([(n, i)].filter (fun x => !actsLast x.2) ++ [(n, i)].filter (fun x => actsLast x.2)) s = ex i (s.atSlot n) := by
  have hlist : [(n, i)].filter (fun x => !actsLast x.2) ++ [(n, i)].filter (fun x => actsLast x.2) = [(n, i)] := by
    cases h : actsLast i <;> simp [h]
  rw [hlist]
  show andThen (ex i (s.atSlot n)) Host.Outcome.next = _
  cases ex i (s.atSlot n) <;> rfl

theorem andThen_assoc (o : Host.Outcome State Fault Refusal) (f h : State → Host.Outcome State Fault Refusal) :
    andThen (andThen o f) h = andThen o fun s => andThen (f s) h := by
  cases o <;> rfl

/-- One turn, and the cycle of a gang that is not split is over. -/
theorem turnsOf_single (ex : Meaning) {s : State} (hmode : s.g.mode = .user) (hsplit : s.g.split = false)
    (hstop : s.g.stopping = false) : turnsOf ex [0] s = s.turn ex 0 := by
  have hturns : s.g.turns = [0] := by rw [Gang.turns, hmode, hsplit]; rfl
  rw [turnsOf, hturns, hstop]
  show andThen (s.turn ex 0) Host.Outcome.next = _
  cases s.turn ex 0 <;> rfl

/-- The state in which the turns of a cycle begin. -/
def State.begun (s : State) : State := State.dieCycle
  { s with g := { s.g with found := 0 }, cur := { s.cur with issued := false, woke := false } }

theorem State.begun_g (s : State) : ∃ n, s.begun.g = { s.g with found := 0, slowed := n } := State.dieCycle_g _

theorem State.begun_mySlot (s : State) : s.begun.mySlot = s.mySlot := State.dieCycle_mySlot _

/-- A step whose agenda is empty and whose gang runs alone in USER mode is the turn of its sequencer 0, and then the clock. -/
theorem step_turn {s : State} (hagenda : s.agenda = []) (hclock : s.g.clocked = true) (hmode : s.g.mode = .user)
    (hsplit : s.g.split = false) (hstop : s.g.stopping = false) (hwants : s.mySlot.wants = []) :
    step s = andThen (s.begun.turn exec 0) fun t =>
      .next ({ t.stallCycle with cur := { t.cur with issued := false, woke := false } }.rotateFocus) := by
  obtain ⟨n, hg⟩ := s.begun_g
  have hturns : s.g.turns = [0] := by rw [Gang.turns, hmode, hsplit]; rfl
  have hserve : s.begun.serveWants = s.begun := State.serveWants_of_nil (by rw [s.begun_mySlot, hwants])
  have hcycle : s.gangCycle exec = andThen (turnsOf exec s.g.turns s.begun.serveWants) fun t =>
      .next { t.endCycle s.g.mode with cur := { t.cur with issued := false, woke := false } } := by
    unfold State.gangCycle
    rw [hclock]
    rfl
  rw [hturns, hserve, turnsOf_single exec (by rw [hg]; exact hmode) (by rw [hg]; exact hsplit) (by rw [hg]; exact hstop), hmode]
    at hcycle
  have hstep : step s = andThen (s.gangCycle exec) fun t => .next t.rotateFocus := by
    unfold step State.stepWith
    rw [hagenda]
  rw [hstep, hcycle, andThen_assoc]
  rfl

end Sys2Proof.Machine

open Sys2Proof Sys2Proof.Machine

/-- Settles O52: the turn comes to the fetch, the bundle to its issue, and its words run. -/
theorem stepRunsDecoded : Obligations.StepRunsDecoded := by
  unfold Obligations.StepRunsDecoded
  intro s head next b o u v is_ ready after hagenda hclock hmode hstop hsplit hdef hdrain hblock hends hwants hwake hfetch hk
    hfault _ hhurdle hwords
  obtain ⟨n, hg⟩ := s.begun_g
  have hturn : o.turn exec 0 = u.started.issue exec b is_ := by
    have hog : o.g = { s.g with found := 0, slowed := n } := hg
    have hq : o.g.seq 0 = s.g.q0 := by rw [hog]; rfl
    rw [State.turn_fetch exec (by rw [hog]; exact hmode) (by rw [hog]; exact hdef) (by rw [hog]; exact hdrain)
      (by rw [hq]; exact hblock) (by rw [hq]; exact hends), State.fetchTurn_bundle exec (by rw [hq]; exact hfetch),
      State.comeUp_issues exec hk hfault hhurdle (by rw [hog]; exact hwake)]
  have hcur : u.started.cur = u.cur := u.started_cur
  have hissue : o.turn exec 0 = andThen (runSlots exec (is_.filter (fun x => !actsLast x.2) ++ is_.filter (fun x => actsLast x.2)) ready)
      fun t => .next (if t.cur.done then t else t.finish) := by
    rw [hturn, State.issue_words exec hk hwords, hcur]
    rfl
  have hall : step s = andThen (runSlots exec (is_.filter (fun x => !actsLast x.2) ++ is_.filter (fun x => actsLast x.2)) ready)
      after := by
    rw [step_turn hagenda hclock hmode hsplit hstop hwants, show s.begun = o from rfl, hissue, andThen_assoc]
    rfl
  refine ⟨hall, fun k i hone => ?_⟩
  rw [hall, hone, runSlots_single]

end

section
/-! Events that no sequencer raises: empty bundles, segment reads, walks and corrected errors (R26, R104, R107, R140, R322). -/

namespace Sys2Proof.Machine

/-- A segment whose bytes were read without an error is handled by what its table and image answered (R104, R107). -/
theorem execSegmentFetchComplete_read {s : State} {die n m : Nat} {f : SegFrame} (h : s.fillingFrame die n m = some f) :
    execSegmentFetchComplete die n m 0 s = Host.Outcome.next (match s.readSegment die f 4 f.base f.len 0 [] with
      | (t, .ok img) => t.fillFrame die n m img .resident
      | (t, .error (some va)) => t.fillFrame die n m [] (.failed (segExc 5 va 7))
      | (_, .error none) => s) := by
  unfold execSegmentFetchComplete
  rw [h]
  rfl

/-- A segment read with an uncorrectable error fails with its kind (R107). -/
theorem execSegmentFetchComplete_ecc {s : State} {die n m ecc : Nat} {f : SegFrame} (h : s.fillingFrame die n m = some f)
    (hecc : ecc ≠ 0) :
    execSegmentFetchComplete die n m ecc s = .next (s.fillFrame die n m [] (.failed ⟨.ecc, infoOf ecc 0, 7⟩)) := by
  unfold execSegmentFetchComplete
  rw [h]
  exact congrArg Host.Outcome.next (if_pos hecc)

end Sys2Proof.Machine

open Sys2Proof Sys2Proof.Machine

/-- Settles O39: one case for each answer of the event's test. -/
theorem machineEvents : Obligations.MachineEvents := by
  unfold Obligations.MachineEvents
  intro s die n m
  refine ⟨fun hready hdone => ?empty, fun f t img hf hread => ?resident, fun f t va hf hread => ?faulted, fun f t hf hread => ?waits,
    fun f ecc hf hecc => execSegmentFetchComplete_ecc hf hecc, fun va acc pa e hwalk => ?walked, fun va acc hno => ?refused, rfl, rfl⟩
  case empty =>
    exact congrArg Host.Outcome.next (if_pos (by rw [hready, hdone]; rfl))
  case resident =>
    refine (execSegmentFetchComplete_read hf).trans ?_
    rw [hread]
    rfl
  case faulted =>
    refine (execSegmentFetchComplete_read hf).trans ?_
    rw [hread]
    rfl
  case waits =>
    refine (execSegmentFetchComplete_read hf).trans ?_
    rw [hread]
  case walked =>
    show execTlbWalkComplete die n va acc s = _
    rw [execTlbWalkComplete, hwalk]
    rfl
  case refused =>
    show execTlbWalkComplete die n va acc s = _
    rw [execTlbWalkComplete]
    cases h : s.walk die n va acc with
    | ok pa e => exact absurd h (hno pa e)
    | fault a => rfl
    | wait => rfl

end

section
/-! The tokened operations of the S slot take their effect (R42, R44, R106, R246 to R248, R295 to R297, R313 to R315). -/

namespace Sys2Proof.Machine

/-! Publication where nothing is held back. -/

theorem State.setPts_self (s : State) (q : Nat) : s.setPts q (s.g.seq q).pts = s := by
  rw [State.setPts, State.updG, Gang.updSeq_self rfl]

theorem State.updG_wrote_self {s : State} {f : List Wrote → List Wrote} (h : f s.g.wrote = s.g.wrote) :
    (s.updG fun g => { g with wrote := f g.wrote }) = s :=
  congrArg (fun g => ({ s with g := g } : State)) (congrArg (fun w => ({ s.g with wrote := w } : Gang)) h)

theorem State.unseen_nil {s : State} (h : s.unseen = []) : ({ s with unseen := [] } : State) = s :=
  congrArg (fun u => ({ s with unseen := u } : State)) h.symm

theorem State.noteBars_nil (s : State) (t : Nat) : s.noteBars [] t = s := by
  unfold State.noteBars
  split <;> rfl

/-- With no copies to publish and no old contents left, a publication changes nothing. -/
theorem State.publish_of_nil {s : State} (hwrote : s.g.wrote = []) (hunseen : s.unseen = []) (c p : Nat) (f : Wrote → Bool)
    (own : Bool) : s.publish c p f own = (s, p) := by
  have hsame : (s.updG fun g => { g with wrote := g.wrote.filterMap (Wrote.shown c p f) }) = s :=
    State.updG_wrote_self (by rw [hwrote]; rfl)
  unfold State.publish
  by_cases hc : c = 0
  · rw [if_pos hc]
  · rw [if_neg hc, hwrote]
    simp only [State.publishLines, List.filter_nil, List.filterMap_nil, List.map_nil, List.eraseDups_nil, List.foldl_nil,
      State.noteBars_nil, hsame, hunseen, shownToAll, State.unseen_nil hunseen, ite_self]

theorem State.publishBatches_of_nil {s : State} (hwrote : s.g.wrote = []) (hunseen : s.unseen = []) (c q : Nat) (n : BitVec 16) :
    s.publishBatches c q n = s := by
  rw [State.publishBatches, State.publish_of_nil hwrote hunseen]
  exact s.setPts_self q

theorem State.noteBars_unseen (s : State) (bs : List Nat) (t : Nat) : (s.noteBars bs t).unseen = s.unseen := by
  unfold State.noteBars
  split
  · rfl
  · refine State.foldl_same (·.unseen) _ ?_ _ _
    intro _ _
    rfl

theorem State.publishLines_unseen (s : State) (p : Nat) (ls : List Nat) : (s.publishLines p ls).1.unseen = s.unseen :=
  State.foldl_same_pair (·.unseen) (fun a l => a.1.writeLineAt a.2 l) (fun _ _ => rfl) _ _

/-- A publication leaves no old contents where there were none. -/
theorem State.publish_unseen {s : State} (h : s.unseen = []) (c p : Nat) (f : Wrote → Bool) (own : Bool) :
    (s.publish c p f own).1.unseen = [] := by
  have hshown (k t : Nat) (ls bs : List Nat) (u : Gang → Gang) :
      (((s.publishLines k ls).1.noteBars bs t).updG u).unseen = [] :=
    ((State.noteBars_unseen _ bs t).trans (s.publishLines_unseen k ls)).trans h
  unfold State.publish
  split
  · exact h
  · dsimp only
    split
    · rw [h, hshown]
      rfl
    · rw [hshown]
      rfl

theorem State.publishBatches_unseen {s : State} (h : s.unseen = []) (c q : Nat) (n : BitVec 16) :
    (s.publishBatches c q n).unseen = [] := State.publish_unseen h _ _ _ _

theorem State.readAt_unseen (s : State) (p k n : Nat) : (s.readAt p k n).1.unseen = s.unseen :=
  State.foldl_same_pair (·.unseen) (fun a l => a.1.readLineAt a.2 l) (fun _ _ => rfl) _ _

/-! Translations that an agent used fill the shared TLB of its die and change nothing else (R140). -/

theorem State.noteUse_same {α : Type} (p : State → α) (h : ∀ (s : State) (d : Nat) (e : TlbEnt), p (s.fillShared d e) = p s)
    (s : State) (die part : Nat) (l : List (Nat × Acc)) : p (s.noteUse die part l) = p s := by
  refine State.foldl_same p _ (fun t x => ?_) l s
  split
  · rfl
  · split
    · exact h _ _ _
    · rfl

theorem State.noteUse_now (s : State) (die part : Nat) (l : List (Nat × Acc)) (n : Nat) :
    (s.noteUse die part l).now n = s.now n :=
  State.noteUse_same (·.now n) (fun s d e => State.die_updDie_of (·.tu.now) (f := fun x => { x with tlb := tlbKeep 16384 e x.tlb })
    (fun _ => rfl) s d n) s die part l

/-! How an operation ends. -/

/-- An operation that nothing unanswered holds back takes its step. -/
theorem exec_tokenedOperation {s : State} {gid : Nat} {o : TokOp} (h : s.hasGang gid)
    (hfind : (s.focus gid).g.ops.find? (fun x => x.oid == o.oid) = some o)
    (hreach : ∀ k ∈ o.kind.keys, (s.focus gid).reachesKey k = true) :
    exec (.tokenedOperationComplete gid o.oid) s = .next (((s.focus gid).opStep o).focus s.g.gid) := by
  show execTokenedOperationComplete gid o.oid s = _
  rw [execTokenedOperationComplete, State.withGang_at _ h, hfind]
  exact congrArg (fun u : State => Host.Outcome.next (u.focus s.g.gid)) (if_pos (List.all_eq_true.2 hreach))

/-- One whose memory nothing answers for waits (R369). -/
theorem exec_tokenedOperation_waits {s : State} {gid : Nat} {o : TokOp} (h : s.hasGang gid)
    (hfind : (s.focus gid).g.ops.find? (fun x => x.oid == o.oid) = some o)
    {k : Nat} (hk : k ∈ o.kind.keys) (hreach : (s.focus gid).reachesKey k = false) :
    exec (.tokenedOperationComplete gid o.oid) s = .next ((s.focus gid).focus s.g.gid) := by
  show execTokenedOperationComplete gid o.oid s = _
  rw [execTokenedOperationComplete, State.withGang_at _ h, hfind]
  refine congrArg (fun u : State => Host.Outcome.next (u.focus s.g.gid)) (if_neg fun hall => ?_)
  rw [List.all_eq_true.1 hall k hk] at hreach
  cases hreach

/-! What each kind of operation does when it comes to its effect. -/

section
variable {s : State} {o : TokOp}

/-- No barrier operation that comes before this one keeps it back (R246). -/
theorem State.opStep_barrier (h : s.g.olderBar o.q o.oid = false) : ¬(o.kind.barrier = true ∧ s.g.olderBar o.q o.oid = true) := by
  rw [h]
  exact fun hb => Bool.false_ne_true hb.2

theorem State.opStep_barInit {b n sc : Nat} {pb : Word} (hk : o.kind = .barInit b n sc pb) (h : s.g.olderBar o.q o.oid = false) :
    s.opStep o = s.barOp o b fun e => e.init b n sc pb := by
  rw [State.opStep, if_neg (State.opStep_barrier h), hk]

theorem State.opStep_barArrive {b cnt : Nat} {m : BitVec 16} (hk : o.kind = .barArrive b cnt m)
    (h : s.g.olderBar o.q o.oid = false) : s.opStep o = s.arriveOp o b cnt m := by
  rw [State.opStep, if_neg (State.opStep_barrier h), hk]

theorem State.opStep_barExpect {b : Nat} {by_ : Word} (hk : o.kind = .barExpect b by_) (h : s.g.olderBar o.q o.oid = false) :
    s.opStep o = s.barOp o b fun e => e.expect b by_ := by
  rw [State.opStep, if_neg (State.opStep_barrier h), hk]

theorem State.opStep_barTest {b : Nat} (hk : o.kind = .barTest b) (h : s.g.olderBar o.q o.oid = false) :
    s.opStep o = s.testOp o b := by
  rw [State.opStep, if_neg (State.opStep_barrier h), hk]

theorem State.opStep_prog {n : Nat} (hk : o.kind = .prog n) : s.opStep o = s.progOp o n := by
  rw [State.opStep, hk]
  rfl

theorem State.opStep_vsetNone (hk : o.kind = .vsetNone) : s.opStep o = s.opResult o 2 := by
  rw [State.opStep, hk]
  rfl

theorem State.opStep_soon (hk : o.kind = .soon) : s.opStep o = s.endOp o := by
  rw [State.opStep, hk]
  rfl

theorem State.opStep_ecommit {m : BitVec 16} (hk : o.kind = .ecommit m) : s.opStep o = s.commitOp o m := by
  rw [State.opStep, hk]
  rfl

theorem State.opStep_sig {key : Nat} {set : Bool} {v : Word} {m : BitVec 16} (hk : o.kind = .sig key set v m) :
    s.opStep o = s.sigOp o key set v m := by
  rw [State.opStep, hk]
  rfl

theorem State.opStep_segld {seg : Nat} (hk : o.kind = .segld seg) : s.opStep o = s.segOp o seg := by
  rw [State.opStep, hk]
  rfl

/-- QPUSH and QRES act in their place among the operations at their queue. -/
theorem State.opStep_qpush {desc pk : Nat} (hk : o.kind = .qpush desc pk) (h : s.g.olderQueueOp o.q o.oid desc = false)
    (hin : s.g.inOrder o.q o.oid = true) : s.opStep o = s.pushOp o desc pk := by
  have hgo : ¬(s.g.olderQueueOp o.q o.oid desc = true ∨ (!s.g.inOrder o.q o.oid) = true) := by simp [h, hin]
  rw [State.opStep, hk]
  exact if_neg hgo

theorem State.opStep_qres {desc : Nat} {n : Word} (hk : o.kind = .qres desc n) (h : s.g.olderQueueOp o.q o.oid desc = false)
    (hin : s.g.inOrder o.q o.oid = true) : s.opStep o = s.reserveOp o desc n := by
  have hgo : ¬(s.g.olderQueueOp o.q o.oid desc = true ∨ (!s.g.inOrder o.q o.oid) = true) := by simp [h, hin]
  rw [State.opStep, hk]
  exact if_neg hgo

/-- BWAIT ends once no part is left of the batches it names (R191). -/
theorem State.opStep_bwait {ms : List (BitVec 16)} (hk : o.kind = .bwait ms)
    (h : ∀ p ∈ s.g.parts, ∀ m, p.batch = some m → m ∉ ms) : s.opStep o = (s.updG Gang.dropLeases).endOp o := by
  rw [State.opStep, hk]
  refine (if_neg (fun hb => Bool.false_ne_true hb.1)).trans (if_neg fun hany => ?_)
  obtain ⟨p, hp, hmatch⟩ := List.any_eq_true.1 hany
  cases hbatch : p.batch with
  | none => simp [hbatch] at hmatch
  | some m => exact h p hp m hbatch (by simpa [hbatch] using hmatch)

/-! Barriers (R246 to R248). -/

theorem State.barOp_of_ok {l : Launch} {b : Nat} {f : Barrier → Except Exc Barrier} {e : Barrier}
    (hl : s.launch s.g.info.lid = some l) (hf : f (s.barrier l b) = .ok e) : s.barOp o b f = (s.barEvent l b e).endOp o := by
  unfold State.barOp
  rw [hl]
  dsimp only
  rw [hf]

theorem State.barOp_of_error {l : Launch} {b : Nat} {f : Barrier → Except Exc Barrier} {e : Exc}
    (hl : s.launch s.g.info.lid = some l) (hf : f (s.barrier l b) = .error e) : s.barOp o b f = s.opFail o e := by
  unfold State.barOp
  rw [hl]
  dsimp only
  rw [hf]

theorem State.testOp_of_launch {l : Launch} {b : Nat} (hl : s.launch s.g.info.lid = some l) :
    s.testOp o b = s.opResult o (s.barrier l b).word := by
  unfold State.testOp
  rw [hl]

theorem Barrier.init_again {e : Barrier} {n sc : Nat} (b : Nat) {pb : Word} (hn : n ≠ 0) (hpb : pb.toNat < 2 ^ 36)
    (hinit : e.initd = true) (hexp : e.exp = n) (hsc : e.scope = sc) : e.init b n sc pb = .ok e := by
  rw [Barrier.init, if_neg hn, if_neg (by omega), if_pos ⟨hinit, hexp, hsc⟩]

theorem Barrier.init_in_use {e : Barrier} {n sc : Nat} (b : Nat) {pb : Word} (hn : n ≠ 0) (hpb : pb.toNat < 2 ^ 36)
    (hinit : e.initd = true) (hdiff : e.exp ≠ n ∨ e.scope ≠ sc) (huse : e.arr ≠ 0 ∨ e.pend ≠ 0) :
    e.init b n sc pb = .error (barErr b 5 (n + sc * 2 ^ 12) 0) := by
  rw [Barrier.init, if_neg hn, if_neg (by omega), if_neg (fun h => hdiff.elim (· h.2.1) (· h.2.2)), if_pos ⟨hinit, huse⟩]

theorem Barrier.init_fresh {e : Barrier} {n sc : Nat} (b : Nat) {pb : Word} (hn : n ≠ 0) (hpb : pb.toNat < 2 ^ 36)
    (h : e.initd = false ∨ (e.exp ≠ n ∨ e.scope ≠ sc) ∧ e.arr = 0 ∧ e.pend = 0) :
    e.init b n sc pb = .ok { e with initd := true, exp := n, scope := sc, pend := pb.toNat, arr := 0 } := by
  have hsame : ¬(e.initd = true ∧ e.exp = n ∧ e.scope = sc) := by
    rintro ⟨hinit, hexp, hsc⟩
    rcases h with h | ⟨h | h, -⟩
    · rw [h] at hinit
      cases hinit
    · exact h hexp
    · exact h hsc
  have huse : ¬(e.initd = true ∧ (e.arr ≠ 0 ∨ e.pend ≠ 0)) := by
    rintro ⟨hinit, hne⟩
    rcases h with h | ⟨-, harr, hpend⟩
    · rw [h] at hinit
      cases hinit
    · exact hne.elim (· harr) (· hpend)
  rw [Barrier.init, if_neg hn, if_neg (by omega), if_neg hsame, if_neg huse]

theorem Barrier.expect_over {e : Barrier} (b : Nat) {by_ : Word} (hinit : e.initd = true) (hover : 2 ^ 36 ≤ e.pend + by_.toNat) :
    e.expect b by_ = .error (barErr b 3 by_.toNat 0) := by
  rw [Barrier.expect, hinit]
  exact if_pos hover

theorem Barrier.expect_ok {e : Barrier} (b : Nat) {by_ : Word} (hinit : e.initd = true) (hroom : e.pend + by_.toNat < 2 ^ 36) :
    e.expect b by_ = .ok { e with pend := e.pend + by_.toNat } := by
  rw [Barrier.expect, hinit]
  exact if_neg (Nat.not_le.2 hroom)

/-- The outcome of an arrival is that of its entry (R248). -/
theorem State.arriveOp_of_order {b cnt : Nat} {m : BitVec 16} (hdone : s.g.batchesDone m = true)
    (hin : s.g.inOrder o.q o.oid = true) : s.arriveOp o b cnt m = match s.arriveAt o.q b cnt m with
      | .error e => s.opFail o e
      | .ok (t, e) => t.opResult o (BitVec.ofNat 64 ((if e.phase then 1 else 0) + 2 * e.arr)) := by
  unfold State.arriveOp
  exact if_neg (by simp [hdone, hin])

theorem State.arriveAt_uninit {l : Launch} {q b cnt : Nat} {m : BitVec 16} (hl : s.launch s.g.info.lid = some l)
    (h : (s.barrier l b).initd = false) : s.arriveAt q b cnt m = .error (barErr b 1 0 0) := by
  unfold State.arriveAt
  rw [hl]
  exact if_pos (by rw [h]; rfl)

theorem State.arriveAt_over {l : Launch} {q b cnt : Nat} {m : BitVec 16} (hl : s.launch s.g.info.lid = some l)
    (h : (s.barrier l b).initd = true) (hover : (s.barrier l b).exp < (s.barrier l b).arr + cnt) :
    s.arriveAt q b cnt m = .error (barErr b 2 cnt 0) := by
  unfold State.arriveAt
  rw [hl]
  exact (if_neg (by simp [h])).trans (if_pos hover)

theorem State.arriveAt_ok {l : Launch} {q b cnt : Nat} {m : BitVec 16} (hl : s.launch s.g.info.lid = some l)
    (h : (s.barrier l b).initd = true) (hroom : (s.barrier l b).arr + cnt ≤ (s.barrier l b).exp) (hwrote : s.g.wrote = [])
    (hunseen : s.unseen = []) :
    let e := { s.barrier l b with arr := (s.barrier l b).arr + cnt }.note s.g.gid s.myDie (s.g.seq q).pts
    s.arriveAt q b cnt m = .ok (s.barEvent l b e, e) := by
  unfold State.arriveAt
  rw [hl]
  dsimp only
  rw [if_neg (by simp [h]), if_neg (by omega), State.publishBatches_of_nil hwrote hunseen]

/-! Queues (R295, R296). -/

theorem State.tookPoint_mem (s : State) (q n p : Nat) : (s.tookPoint q n p).mem = s.mem := by
  unfold State.tookPoint
  dsimp only
  split <;> rfl

theorem State.pushOp_scope {desc pk sub : Nat} (h : s.scopeFault (s.qdesc desc) = some sub) :
    s.pushOp o desc pk = s.opFail o ⟨.qscope, infoOf sub 0, 0⟩ := by
  unfold State.pushOp
  dsimp only
  rw [h]

theorem State.pushOp_full {desc pk : Nat} (h : s.scopeFault (s.qdesc desc) = none)
    (hfull : (s.qdesc desc).ridx + (s.qdesc desc).rsize ≤ (s.qdesc desc).widx) :
    s.pushOp o desc pk = s.opResult o (BitVec.allOnes 64) := by
  unfold State.pushOp
  dsimp only
  rw [h]
  exact if_pos hfull

/-- What a QPUSH with room leaves: the packet in its slot, and then the write index. -/
def State.pushed (s : State) (o : TokOp) (desc pk pa : Nat) : State :=
  let d := s.qdesc desc
  let u := s.noteUse (homeDie desc) d.part [(d.slotVa d.widx, 1)]
  let a := u.publish d.scope (u.g.seq o.q).pts fun _ => false
  let r := a.1.readAt a.2 pk 64
  let b := r.1.seen pk 64
  let w := b.1.writeAt r.2 pa b.2
  (w.1.tookPoint o.q o.oid w.2).rPut o.q (desc + 0x10) 8 (d.widx + 1)

theorem State.pushed_mem (o : TokOp) (desc pk pa : Nat) (h : s.unseen = []) :
    (s.pushed o desc pk pa).mem = (s.mem.put pa (s.mem.bytes pk 64)).put (desc + 0x10) (leBytes 8 ((s.qdesc desc).widx + 1)) := by
  have hread (u : State) (p : Nat) (hu : u.unseen = []) :
      (u.readAt p pk 64).1.seen pk 64 = ((u.readAt p pk 64).1, u.mem.bytes pk 64) := by
    rw [State.seen_published _ _ _ ((u.readAt_unseen p pk 64).trans hu), State.readAt_mem]
  unfold State.pushed
  dsimp only
  rw [State.rPut_mem, State.tookPoint_mem, State.writeAt_mem,
    hread _ _ (State.publish_unseen ((State.noteUse_same (·.unseen) (fun _ _ _ => rfl) _ _ _ _).trans h) _ _ _ _)]
  dsimp only
  rw [State.readAt_mem, State.publish_mem, State.noteUse_same (·.mem) (fun _ _ _ => rfl)]

/-- A packet that has room stands in its slot before the write index shows it. -/
theorem State.pushOp_room {desc pk pa : Nat} (h : s.scopeFault (s.qdesc desc) = none)
    (hroom : (s.qdesc desc).widx < (s.qdesc desc).ridx + (s.qdesc desc).rsize)
    (haddr : s.agentAddr (homeDie desc) (s.qdesc desc).part ((s.qdesc desc).slotVa (s.qdesc desc).widx) 1 = .ok pa) :
    s.pushOp o desc pk = (s.pushed o desc pk pa).opResult o (BitVec.ofNat 64 (s.qdesc desc).widx) := by
  unfold State.pushOp
  dsimp only
  rw [h, haddr]
  exact if_neg (by omega)

theorem State.reserveOp_scope {desc sub : Nat} {n : Word} (h : s.scopeFault (s.qdesc desc) = some sub) :
    s.reserveOp o desc n = s.opFail o ⟨.qscope, infoOf sub 0, 0⟩ := by
  unfold State.reserveOp
  dsimp only
  rw [h]

theorem State.reserveOp_full {desc : Nat} {n : Word} (h : s.scopeFault (s.qdesc desc) = none)
    (hfull : n = 0 ∨ (s.qdesc desc).ridx + (s.qdesc desc).rsize < (s.qdesc desc).widx + n.toNat) :
    s.reserveOp o desc n = s.opResult o (BitVec.allOnes 64) := by
  unfold State.reserveOp
  dsimp only
  rw [h]
  exact if_pos hfull

theorem State.noteSlot_mem (s : State) (d : QDesc) (die idx : Nat) : (s.noteSlot d die idx).mem = s.mem := by
  unfold State.noteSlot
  split <;> rfl

/-- A reservation advances the write index alone. -/
theorem State.reserveOp_room {desc : Nat} {n : Word} (h : s.scopeFault (s.qdesc desc) = none) (hn : n ≠ 0)
    (hroom : (s.qdesc desc).widx + n.toNat ≤ (s.qdesc desc).ridx + (s.qdesc desc).rsize) :
    ∃ u : State, s.reserveOp o desc n = u.opResult o (BitVec.ofNat 64 (s.qdesc desc).widx) ∧
      u.mem = s.mem.put (desc + 0x10) (leBytes 8 ((s.qdesc desc).widx + n.toNat)) := by
  unfold State.reserveOp
  dsimp only
  rw [h]
  refine ⟨_, if_neg (not_or.2 ⟨hn, by omega⟩), ?_⟩
  rw [State.foldl_same (·.mem) _ (fun _ _ => State.noteSlot_mem _ _ _ _)]
  exact s.rPut_mem _ _ _ _

/-! SIG, ECOMMIT and SEGLD (R297, R315, R106). -/

theorem State.tookPoint_launches (s : State) (q n p : Nat) : (s.tookPoint q n p).launches = s.launches := by
  unfold State.tookPoint
  dsimp only
  split <;> rfl

/-- What a SIG leaves at its signal's key. -/
def State.signalled (s : State) (o : TokOp) (key : Nat) (set : Bool) (v : Word) (m : BitVec 16) : State :=
  let u := s.publishBatches 3 o.q m
  let r := u.atomicAt (u.g.seq o.q).pts key 8 fun x => if set then v.toNat else (x + v.toNat) % 2 ^ 64
  r.1.tookPoint o.q o.oid r.2.1

theorem State.signalled_mem (o : TokOp) (key : Nat) (set : Bool) (v : Word) (m : BitVec 16) (h : s.unseen = []) :
    (s.signalled o key set v m).mem =
      s.mem.put key (leBytes 8 (if set then v.toNat else (s.mem.le key 8 + v.toNat) % 2 ^ 64)) := by
  unfold State.signalled
  rw [State.tookPoint_mem, (State.atomicAt_published _ _ _ _ _ (State.publishBatches_unseen h 3 o.q m)).1,
    State.publishBatches_mem]

theorem State.sigOp_performed {key : Nat} {set : Bool} {v : Word} {m : BitVec 16} (hfence : s.g.fenced o.q o.oid m = true)
    (hin : s.g.inOrder o.q o.oid = true) : s.sigOp o key set v m = (s.signalled o key set v m).endOp o := by
  unfold State.sigOp
  exact if_neg (by simp [hfence, hin])

theorem State.segOp_of_frame {seg : Nat} {f : SegFrame} (hsys : s.g.inSys = o.sys) (hf : s.frameOf seg = some f) :
    (f.fill = .resident → s.segOp o seg = s.endOp o) ∧ (f.fill = .filling → s.segOp o seg = s) := by
  have hgo : ¬(s.g.inSys != o.sys) = true := by simp [hsys]
  constructor
  · intro hfill
    rw [State.segOp, if_neg hgo, hf]
    dsimp only
    rw [hfill]
  · intro hfill
    rw [State.segOp, if_neg hgo, hf]
    dsimp only
    rw [hfill]

theorem State.commitOp_again {l : Launch} {m : BitVec 16} (hl : s.launch s.g.info.lid = some l)
    (hfence : s.g.fencedAll o.oid m = true) (hin : s.g.inOrder o.q o.oid = true) (hdone : l.tally.committed = true) :
    s.commitOp o m = s.opResult o 1 := by
  unfold State.commitOp
  rw [hl]
  exact (if_neg (by simp [hfence, hin])).trans (if_pos hdone)

/-- The state in which the first ECOMMIT of a launch has committed it. -/
def State.committed (s : State) (l : Launch) : State :=
  s.updLaunch l.info.lid fun l => { l with tally := { l.tally with committed := true } }

/-- The first ECOMMIT of a launch without a record, once everything before it is performed and published. -/
theorem State.commitOp_first {l : Launch} {m : BitVec 16} (hl : s.launch s.g.info.lid = some l)
    (hfence : s.g.fencedAll o.oid m = true) (hin : s.g.inOrder o.q o.oid = true) (hfirst : l.tally.committed = false)
    (hwrote : s.g.wrote = []) (hunseen : s.unseen = []) (hrec : s.recordAt l.info.home l.info.part l.crec = .ok none) :
    s.commitOp o m = (s.committed l).opResult o 2 := by
  unfold State.commitOp
  rw [hl]
  refine (if_neg (by simp [hfence, hin])).trans ((if_neg (by simp [hfirst])).trans ?_)
  rw [hrec, State.publishBatches_of_nil hwrote hunseen]
  rfl

/-- The state in which it has written its record too. -/
def State.recorded (s : State) (o : TokOp) (l : Launch) (pa : Nat) : State :=
  let t := (s.committed l).noteUse l.info.home l.info.part [(l.crec, 1)]
  let w := t.writeAt (max t.g.q0.pts t.g.q1.pts) pa (t.launchRecord l 1 t.g.egReason)
  w.1.tookPoint o.q o.oid w.2

/-- The first ECOMMIT of a launch with a record. -/
theorem State.commitOp_record {l : Launch} {m : BitVec 16} {pa : Nat} (hl : s.launch s.g.info.lid = some l)
    (hfence : s.g.fencedAll o.oid m = true) (hin : s.g.inOrder o.q o.oid = true) (hfirst : l.tally.committed = false)
    (hwrote : s.g.wrote = []) (hunseen : s.unseen = []) (hrec : s.recordAt l.info.home l.info.part l.crec = .ok (some pa)) :
    s.commitOp o m = (s.recorded o l pa).opResult o 0 := by
  unfold State.commitOp
  rw [hl]
  refine (if_neg (by simp [hfence, hin])).trans ((if_neg (by simp [hfirst])).trans ?_)
  rw [hrec, State.publishBatches_of_nil hwrote hunseen]
  rfl

/-- The record that an ECOMMIT writes is of its launch as it was before, at the same time. -/
theorem State.launchRecord_noteUse (s : State) (l k : Launch) (die part : Nat) (u : List (Nat × Acc)) (a b : Nat) :
    ((s.committed k).noteUse die part u).launchRecord l a b = s.launchRecord l a b := by
  unfold State.launchRecord
  rw [State.noteUse_now]
  rfl

theorem State.recorded_mem (o : TokOp) (l : Launch) (pa : Nat) :
    (s.recorded o l pa).mem = s.mem.put pa (s.launchRecord l 1 s.g.egReason) := by
  unfold State.recorded
  dsimp only
  rw [State.tookPoint_mem, State.writeAt_mem, State.launchRecord_noteUse, State.noteUse_same (·.mem) (fun _ _ _ => rfl),
    State.noteUse_same (·.g.egReason) (fun _ _ _ => rfl)]
  rfl

theorem State.recorded_launches (o : TokOp) (l : Launch) (pa : Nat) : (s.recorded o l pa).launches = (s.committed l).launches := by
  unfold State.recorded
  dsimp only
  rw [State.tookPoint_launches, State.writeAt_launches, State.noteUse_same (·.launches) (fun _ _ _ => rfl)]

end

end Sys2Proof.Machine

open Sys2Proof Sys2Proof.Machine

/-- Settles O40: each kind of operation by the lemma of its kind, in the gang the event names. -/
theorem operationsTakeEffect : Obligations.OperationsTakeEffect := by
  unfold Obligations.OperationsTakeEffect
  intro s gid o hgang t back ev ends gives holds hfind
  refine ⟨fun k hk hno => exec_tokenedOperation_waits hgang hfind hk hno, fun hreach => ?_⟩
  have hstep {u : State} (h : t.opStep o = u) : exec ev s = back u :=
    (exec_tokenedOperation hgang hfind hreach).trans (congrArg back h)
  refine ⟨fun n hk => hstep (State.opStep_prog hk), fun hk => hstep (State.opStep_vsetNone hk), fun hk => hstep (State.opStep_soon hk),
    fun ms hk hdone => hstep (State.opStep_bwait hk hdone), fun l hl hbar => ⟨?init, ?arrive, ?expect, ?test, ?ecommit⟩,
    fun desc holder hin => ⟨?qpush, ?qres⟩, ?sig, ?segld⟩
  case init =>
    intro b n sc pb hk e
    have hrun := State.opStep_barInit hk (hbar (by rw [hk]; rfl))
    refine ⟨fun hn => hstep (hrun.trans (State.barOp_of_error hl (if_pos hn))), fun hn hpb => hstep (hrun.trans
      (State.barOp_of_error hl ((if_neg hn).trans (if_pos hpb)))), fun hn hpb => ⟨fun hinit hexp hsc => ?_, fun hinit hdiff huse => ?_,
      fun hfresh => ?_⟩⟩
    · exact hstep (hrun.trans (State.barOp_of_ok hl (Barrier.init_again b hn hpb hinit hexp hsc)))
    · exact hstep (hrun.trans (State.barOp_of_error hl (Barrier.init_in_use b hn hpb hinit hdiff huse)))
    · exact hstep (hrun.trans (State.barOp_of_ok hl (Barrier.init_fresh b hn hpb hfresh)))
  case arrive =>
    intro b cnt m hk hdone hin e
    have hrun := (State.opStep_barArrive hk (hbar (by rw [hk]; rfl))).trans (State.arriveOp_of_order hdone hin)
    refine ⟨fun hinit => ?_, fun hinit hover => ?_, fun hinit hroom hwrote hunseen => ?_⟩
    · rw [State.arriveAt_uninit hl hinit] at hrun
      exact hstep hrun
    · rw [State.arriveAt_over hl hinit hover] at hrun
      exact hstep hrun
    · rw [State.arriveAt_ok hl hinit hroom hwrote hunseen] at hrun
      exact hstep hrun
  case expect =>
    intro b by_ hk e
    have hrun := State.opStep_barExpect hk (hbar (by rw [hk]; rfl))
    refine ⟨fun hinit => hstep (hrun.trans (State.barOp_of_error hl (if_pos (by rw [hinit]; rfl)))), fun hinit hover =>
      hstep (hrun.trans (State.barOp_of_error hl (Barrier.expect_over b hinit hover))), fun hinit hroom =>
      hstep (hrun.trans (State.barOp_of_ok hl (Barrier.expect_ok b hinit hroom)))⟩
  case test =>
    exact fun b hk => hstep ((State.opStep_barTest hk (hbar (by rw [hk]; rfl))).trans (State.testOp_of_launch hl))
  case ecommit =>
    intro m hk hfence hin
    have hrun := State.opStep_ecommit (s := t) hk
    refine ⟨fun hdone => hstep (hrun.trans (State.commitOp_again hl hfence hin hdone)), fun hfirst hwrote hunseen =>
      ⟨fun hrec => ⟨t.committed l, hstep (hrun.trans (State.commitOp_first hl hfence hin hfirst hwrote hunseen hrec)), rfl, rfl⟩,
      fun pa hrec => ⟨t.recorded o l pa, hstep (hrun.trans (State.commitOp_record hl hfence hin hfirst hwrote hunseen hrec)),
        State.recorded_mem o l pa, State.recorded_launches o l pa⟩⟩⟩
  case qpush =>
    intro pk hk
    have hrun := State.opStep_qpush hk holder hin
    refine ⟨fun sub hsub => hstep (hrun.trans (State.pushOp_scope hsub)), fun hscope => ⟨fun hfull =>
      hstep (hrun.trans (State.pushOp_full hscope hfull)), fun pa hroom hunseen haddr =>
      ⟨t.pushed o desc pk pa, hstep (hrun.trans (State.pushOp_room hscope hroom haddr)), State.pushed_mem o desc pk pa hunseen⟩⟩⟩
  case qres =>
    intro n hk
    have hrun := State.opStep_qres hk holder hin
    refine ⟨fun sub hsub => hstep (hrun.trans (State.reserveOp_scope hsub)), fun hscope => ⟨fun hfull =>
      hstep (hrun.trans (State.reserveOp_full hscope hfull)), fun hn hroom => ?_⟩⟩
    obtain ⟨u, hu, hmem⟩ := State.reserveOp_room (o := o) hscope hn hroom
    exact ⟨u, hstep (hrun.trans hu), hmem⟩
  case sig =>
    intro key set v m hk hfence hin hunseen
    exact ⟨t.signalled o key set v m, hstep ((State.opStep_sig hk).trans (State.sigOp_performed hfence hin)),
      State.signalled_mem o key set v m hunseen⟩
  case segld =>
    intro seg f hk hsys hf
    obtain ⟨hresident, hfilling⟩ := State.segOp_of_frame (o := o) hsys hf
    exact ⟨fun hfill => hstep ((State.opStep_segld hk).trans (hresident hfill)),
      fun hfill => hstep ((State.opStep_segld hk).trans (hfilling hfill))⟩

end

section
/-! The events of a sequencer between its bundles (R40, R41, R45, R96, R100, R107, R322, R325, R371). -/

namespace Sys2Proof.Machine

/-- What the statement of a turn says is that the sequencer is among those that take one (R96, R321). -/
theorem Gang.mem_turns {g : Gang} {q : Nat} :
    q ∈ g.turns ↔ (g.mode = .user ∧ (q = 0 ∨ q = 1 ∧ g.split = true)) ∨ ∃ h, g.mode = .sys h ∧ h.q = q := by
  unfold Gang.turns
  cases hm : g.mode with
  | sys h =>
    rw [List.mem_singleton]
    exact ⟨fun hq => .inr ⟨h, rfl, hq.symm⟩, fun hq => hq.elim nofun fun ⟨m, hm, hq⟩ => by cases hm; exact hq.symm⟩
  | user =>
    cases hs : g.split with
    | false => simp
    | true => simp

theorem Gang.fetches_iff {g : Gang} {q : Nat} : g.fetches q = true ↔
    g.place.running = true ∧ g.stopping = false ∧ g.frozen = false ∧ q ∈ g.turns ∧ (g.seq q).block = .none := by
  simp only [Gang.fetches, Bool.and_eq_true, Bool.not_eq_true', List.contains_iff_mem, beq_iff_eq, and_assoc]

section
variable {s : State} {gid q : Nat}

/-- A sequencer that may not fetch raises no fault of fetch or decode. -/
theorem execFetchFault_idle (h : s.hasGang gid) (hno : (s.focus gid).g.fetches q = false) :
    execFetchFault gid q s = .next ((s.focus gid).focus s.g.gid) := by
  rw [execFetchFault, State.withGang_at _ h]
  exact congrArg (fun u : State => Host.Outcome.next (u.focus s.g.gid)) (if_pos (by rw [hno]; rfl))

theorem execReservedEncoding_idle (h : s.hasGang gid) (hno : (s.focus gid).g.fetches q = false) :
    execReservedEncoding gid q s = .next ((s.focus gid).focus s.g.gid) := by
  rw [execReservedEncoding, State.withGang_at _ h]
  exact congrArg (fun u : State => Host.Outcome.next (u.focus s.g.gid)) (if_pos (by rw [hno]; rfl))

/-- A fetch that faults traps at the address fetched (R107, R324). -/
theorem execFetchFault_fault (h : s.hasGang gid) (hgo : (s.focus gid).g.fetches q = true) {pc : Nat} {e : Exc}
    (hfetch : (s.focus gid).fetch ((s.focus gid).g.seq q).pc ((s.focus gid).g.seq q).atEnd = .fault pc e) :
    execFetchFault gid q s = .next (((((if e.cause = .ecc then (s.focus gid).countHard else s.focus gid).dropFailed
      (pc / 2 ^ 16)).trapEnter q e pc (e.pastSegment pc))).focus s.g.gid) := by
  rw [execFetchFault, State.withGang_at _ h]
  refine congrArg (fun u : State => Host.Outcome.next (u.focus s.g.gid)) ((if_neg (by rw [hgo]; nofun)).trans ?_)
  rw [hfetch]

/-- A fetch whose segment's table entry is refused traps where the sequencer stands (R105, R107). -/
theorem execFetchFault_absent (h : s.hasGang gid) (hgo : (s.focus gid).g.fetches q = true) {seg : Nat} {e : Exc}
    (hfetch : (s.focus gid).fetch ((s.focus gid).g.seq q).pc ((s.focus gid).g.seq q).atEnd = .absent seg)
    (hask : ((s.focus gid).forSeq q).askSegment seg 7 = .trap e) :
    execFetchFault gid q s = .next (((s.focus gid).trapEnter q e ((s.focus gid).g.seq q).pc).focus s.g.gid) := by
  rw [execFetchFault, State.withGang_at _ h]
  refine congrArg (fun u : State => Host.Outcome.next (u.focus s.g.gid)) ((if_neg (by rw [hgo]; nofun)).trans ?_)
  rw [hfetch]
  dsimp only
  rw [hask]

/-- A refused head or line traps with the first fault that decode finds in it (R40). -/
theorem execReservedEncoding_bad (h : s.hasGang gid) (hgo : (s.focus gid).g.fetches q = true) {head n k : Nat} {b : Bundle} {e : Exc}
    (hfetch : (s.focus gid).fetch ((s.focus gid).g.seq q).pc ((s.focus gid).g.seq q).atEnd = .bad head b)
    (hfault : ((s.focus gid).atBundle q head head b).decodeFault b true = some (n, k, e, none)) :
    execReservedEncoding gid q s = .next (((s.focus gid).trapEnter q e head).focus s.g.gid) := by
  rw [execReservedEncoding, State.withGang_at _ h]
  refine congrArg (fun u : State => Host.Outcome.next (u.focus s.g.gid)) ((if_neg (by rw [hgo]; nofun)).trans ?_)
  rw [hfetch]
  dsimp only
  rw [hfault]

/-- A bundle in which decode finds a fault that no slot's own instruction raises traps at its head (R41). -/
theorem execReservedEncoding_bundle (h : s.hasGang gid) (hgo : (s.focus gid).g.fetches q = true) {head next n k : Nat} {b : Bundle}
    {e : Exc} (hfetch : (s.focus gid).fetch ((s.focus gid).g.seq q).pc ((s.focus gid).g.seq q).atEnd = .bundle head next b)
    (hfault : ((s.focus gid).atBundle q head next b).decodeFault b = some (n, k, e, none)) :
    execReservedEncoding gid q s = .next (((s.focus gid).trapEnter q e head).focus s.g.gid) := by
  rw [execReservedEncoding, State.withGang_at _ h]
  refine congrArg (fun u : State => Host.Outcome.next (u.focus s.g.gid)) ((if_neg (by rw [hgo]; nofun)).trans ?_)
  rw [hfetch]
  dsimp only
  rw [hfault]

theorem execReservedEncoding_sound (h : s.hasGang gid) (hgo : (s.focus gid).g.fetches q = true) {head next : Nat} {b : Bundle}
    (hfetch : (s.focus gid).fetch ((s.focus gid).g.seq q).pc ((s.focus gid).g.seq q).atEnd = .bundle head next b)
    (hfault : ((s.focus gid).atBundle q head next b).decodeFault b = none) :
    execReservedEncoding gid q s = .next ((s.focus gid).focus s.g.gid) := by
  rw [execReservedEncoding, State.withGang_at _ h]
  refine congrArg (fun u : State => Host.Outcome.next (u.focus s.g.gid)) ((if_neg (by rw [hgo]; nofun)).trans ?_)
  rw [hfetch]
  dsimp only
  rw [hfault]

end

/-! What decode finds (R40, R41, R96). -/

section
variable {s : State} {b : Bundle}

theorem State.copiedEnd_of_whole (h : s.g.isFragment s.cur.q = false) : s.copiedEnd = false := by
  rw [State.copiedEnd, h]
  rfl

/-- A head whose line holds none of its words is refused itself. -/
theorem State.decodeFault_bad_head (hc : s.copiedEnd = false) (hw : b.words = []) :
    ∃ n, s.decodeFault b true = some (n, 7, headExc 5 b.head.bits, none) := by
  unfold State.decodeFault
  rw [hc, hw]
  exact ⟨_, rfl⟩

/-- A word that stands alone in its bundle is what its decoding refuses. -/
theorem State.decodeFault_reservedOpcode {n : Nat} {w : Slotword} (hc : s.copiedEnd = false) (hw : b.words = [(n, w)])
    (hd : decodeWord (slotKindOf n) w = .error .reservedOpcode) : s.decodeFault b = some (0, n, illWord 1 w n, none) := by
  unfold State.decodeFault
  rw [hc, hw]
  simp only [List.filterMap_cons, hd]
  rfl

theorem State.decodeFault_reservedField {n : Nat} {w : Slotword} (hc : s.copiedEnd = false) (hw : b.words = [(n, w)])
    (hd : decodeWord (slotKindOf n) w = .error .reservedField) : s.decodeFault b = some (1, n, illWord 2 w n, none) := by
  unfold State.decodeFault
  rw [hc, hw]
  simp only [List.filterMap_cons, hd]
  rfl

/-- A bundle without words is at fault only at the END of a copied frame, once its wait mask is clear. -/
theorem State.decodeFault_no_words (hw : b.words = []) :
    s.decodeFault b = if s.copiedEnd && s.maskClear b then some (11, 7, headExc 9 b.head.bits, none) else none := by
  have hmay : s.mayIssue b = s.maskClear b := by
    rw [State.mayIssue, State.onWords, hw]
    exact Bool.and_true _
  unfold State.decodeFault
  rw [hmay, hw]
  cases s.copiedEnd && s.maskClear b <;> rfl

/-- The wait mask of a bundle is clear when no token it waits for is set (R42). -/
theorem State.maskClear_iff :
    s.maskClear b = true ↔ ∀ k < 8, ¬(b.head.wait.getLsbD k = true ∧ s.tokenSet (BitVec.ofNat 3 k) = true) := by
  simp only [State.maskClear, Bool.not_eq_true', List.any_eq_false, List.mem_range, Bool.and_eq_true]

end

/-- The first cause that is held traps at the next head (R371). -/
theorem execDeferredTrap_first {s : State} {gid k lane : Nat} {e : Exc} {r : List (Nat × Nat × Exc)} (h : s.hasGang gid)
    (hd : (s.focus gid).g.deferred = (k, lane, e) :: r) (hrun : (s.focus gid).g.place.running = true)
    (hmode : (s.focus gid).g.mode = .user) (hstop : (s.focus gid).g.stopping = false) :
    execDeferredTrap gid s = .next ((if (s.focus gid).g.holdsCauses then s.focus gid else
      ((s.focus gid).wakeSlot.updG fun g => { g with deferred := r, found := min g.found r.length }).trapNext
        (if (s.focus gid).g.split then k else 0) e).focus s.g.gid) := by
  have hsys : (s.focus gid).g.inSys = false := by rw [Gang.inSys, hmode]
  rw [execDeferredTrap, State.withGang_at _ h, hd]
  simp only [hrun, hsys, hstop]
  cases (s.focus gid).g.holdsCauses <;> rfl

/-- A fragment that is over joins its gang (R96). -/
theorem execFragmentEnd_over {s : State} {gid : Nat} (h : s.hasGang gid) (hsplit : (s.focus gid).g.split = true)
    (hover : (s.focus gid).g.q1.block = .fragmentOver) (htoks : ∀ n ∈ (s.focus gid).g.q1.toks, n = 0)
    (hsb : (s.focus gid).g.q1.sb = []) (hmode : (s.focus gid).g.mode = .user) :
    execFragmentEnd gid s = .next (((s.focus gid).updG Gang.joinFragment).focus s.g.gid) := by
  have hsys : (s.focus gid).g.inSys = false := by rw [Gang.inSys, hmode]
  have hdone : (s.focus gid).g.fragmentDone = true := by rw [Gang.fragmentDone, hover]; rfl
  have htoks' : (s.focus gid).g.q1.toks.all (· == 0) = true := List.all_eq_true.2 fun n hn => beq_iff_eq.2 (htoks n hn)
  rw [execFragmentEnd, State.withGang_at _ h]
  exact congrArg (fun u : State => Host.Outcome.next (u.focus s.g.gid))
    (if_pos ⟨hsplit, hdone, htoks', by rw [hsb]; rfl, by rw [hsys]; rfl⟩)

/-- A handler that has run for 50 us is killed (R325). -/
theorem execWatchdogExpiry_late {s : State} {gid : Nat} {m : Handler} (h : s.hasGang gid) (hmode : (s.focus gid).g.mode = .sys m)
    (hlate : m.since + 50000 ≤ (s.focus gid).now (s.focus gid).myDie) :
    execWatchdogExpiry gid s = .next (((s.focus gid).killNow 7
      (faultWord (s.focus gid).g.trapCause.toNat (s.focus gid).g.trapInfo)).focus s.g.gid) := by
  rw [execWatchdogExpiry, State.withGang_at _ h, hmode]
  exact congrArg (fun u : State => Host.Outcome.next (u.focus s.g.gid)) (if_pos hlate)

/-- An uncorrectable soft error of a gang on its slot: its slot number is a free choice. -/
def softExc (sub lane n : Nat) : Exc := ⟨.soft, if sub = 2 then infoOf 2 (lane % 16) else infoOf 1 0, (Config.softSlot n).toNat⟩

theorem execSoft_running {s : State} {gid : Nat} (sub lane : Nat) (h : s.hasGang gid) (hrun : (s.focus gid).g.place.running = true)
    (hstop : (s.focus gid).g.stopping = false) :
    let u : State := { (s.focus gid).countHard with free := (s.focus gid).free + 1 }
    let e := softExc sub lane (s.focus gid).free
    execSoft gid sub lane s = .next ((if (s.focus gid).g.frozen then u.updG fun g => g.defer 0 0 e
      else u.wakeSlot.trapNext 0 e).focus s.g.gid) := by
  rw [execSoft, State.withGang_at _ h]
  exact congrArg (fun u : State => Host.Outcome.next (u.focus s.g.gid)) (if_pos (by rw [hrun, hstop]; rfl))

end Sys2Proof.Machine

open Sys2Proof Sys2Proof.Machine

/-- Settles O37: each event by the lemma of its condition, in the gang it names. -/
theorem sequencerEvents : Obligations.SequencerEvents := by
  unfold Obligations.SequencerEvents
  intro s gid q hgang t x back turn fetching
  have hfetches : fetching → t.g.fetches q = true := fun ⟨hrun, hstop, hfrozen, hturn, hblock⟩ =>
    Gang.fetches_iff.2 ⟨hrun, hstop, hfrozen, Gang.mem_turns.2 hturn, hblock⟩
  have hidle : ¬fetching → t.g.fetches q = false := fun hno => Bool.eq_false_iff.2 fun h => hno <| by
    obtain ⟨hrun, hstop, hfrozen, hturn, hblock⟩ := Gang.fetches_iff.1 h
    exact ⟨hrun, hstop, hfrozen, Gang.mem_turns.1 hturn, hblock⟩
  refine ⟨fun hno => ⟨execFetchFault_idle hgang (hidle hno), execReservedEncoding_idle hgang (hidle hno)⟩, fun hblock => ?wait,
    fun k lane e r hd hrun hmode hstop => ⟨fun hkeep => ?kept, fun hkeep => ?taken⟩,
    fun hgo pc e hfetch => execFetchFault_fault hgang (hfetches hgo) hfetch,
    fun hgo seg e hfetch hask => execFetchFault_absent hgang (hfetches hgo) hfetch hask, fun hgo head b hfetch hw hwhole => ?head,
    fun hgo head next b n w hfetch hw hwhole => ⟨fun hd => ?opcode, fun hd => ?field⟩,
    fun hgo head next b f hfetch hw hfrag hf hcopied hfin => ⟨fun hclear => ?copied, fun hwaits => ?copiedWaits⟩,
    fun hsplit hover htoks hsb hmode => ?fragment, ?landing, ?pts, fun m hmode hlate => ?watchdog,
    fun sub lane hrun hstop => ?soft⟩
  case wait =>
    show execWaitCountExpiry gid q s = _
    rw [execWaitCountExpiry, State.withGang_at _ hgang]
    exact congrArg back (if_pos hblock)
  case kept =>
    exact (execDeferredTrap_first hgang hd hrun hmode hstop).trans (congrArg back (if_pos hkeep))
  case taken =>
    exact (execDeferredTrap_first hgang hd hrun hmode hstop).trans (congrArg back (if_neg (by rw [hkeep]; nofun)))
  case head =>
    obtain ⟨n, hfault⟩ := State.decodeFault_bad_head (s := t.atBundle q head head b) (State.copiedEnd_of_whole hwhole) hw
    exact execReservedEncoding_bad hgang (hfetches hgo) hfetch hfault
  case opcode =>
    exact execReservedEncoding_bundle hgang (hfetches hgo) hfetch
      (State.decodeFault_reservedOpcode (s := t.atBundle q head next b) (State.copiedEnd_of_whole hwhole) hw hd)
  case field =>
    exact execReservedEncoding_bundle hgang (hfetches hgo) hfetch
      (State.decodeFault_reservedField (s := t.atBundle q head next b) (State.copiedEnd_of_whole hwhole) hw hd)
  case copied =>
    have hfault := State.decodeFault_no_words (s := t.atBundle q head next b) hw
    have hends : (t.atBundle q head next b).copiedEnd = !t.g.inSys := by
      have hany : (x.frames.any fun f => f.copied && f.fin == head) = true :=
        List.any_eq_true.2 ⟨f, hf, by rw [hcopied, hfin]; exact beq_self_eq_true head⟩
      show (t.g.isFragment q && !t.g.inSys && x.frames.any fun f => f.copied && f.fin == head) = _
      rw [hfrag, hany, Bool.and_true, Bool.true_and]
    rw [hends, State.maskClear_iff.2 hclear, Bool.and_true] at hfault
    cases hmode : t.g.mode with
    | user =>
      rw [Gang.inSys, hmode] at hfault
      exact execReservedEncoding_bundle hgang (hfetches hgo) hfetch hfault
    | sys m =>
      rw [Gang.inSys, hmode] at hfault
      exact execReservedEncoding_sound hgang (hfetches hgo) hfetch hfault
  case copiedWaits =>
    obtain ⟨k, hk, hset⟩ := hwaits
    have hmask : (t.atBundle q head next b).maskClear b = false :=
      Bool.eq_false_iff.2 fun h => State.maskClear_iff.1 h k hk hset
    have hfault := State.decodeFault_no_words (s := t.atBundle q head next b) hw
    rw [hmask, Bool.and_false] at hfault
    exact execReservedEncoding_sound hgang (hfetches hgo) hfetch hfault
  case fragment =>
    exact ⟨t.updG Gang.joinFragment, execFragmentEnd_over hgang hsplit hover htoks hsb hmode, rfl, rfl, rfl, rfl, rfl, rfl, rfl⟩
  case landing =>
    show execResultLanding gid s = _
    rw [execResultLanding, State.withGang_at _ hgang]
    rfl
  case pts =>
    show execPtsAdvance gid q s = _
    rw [execPtsAdvance, State.withGang_at _ hgang]
    rfl
  case watchdog =>
    exact ⟨t.killNow 7 (faultWord t.g.trapCause.toNat t.g.trapInfo), execWatchdogExpiry_late hgang hmode hlate, rfl, rfl⟩
  case soft =>
    have hsoft := execSoft_running sub lane hgang hrun hstop
    exact ⟨softExc sub lane t.free, rfl, rfl, fun hfrozen => hsoft.trans (congrArg back (if_neg (by rw [hfrozen]; nofun))),
      fun hfrozen => hsoft.trans (congrArg back (if_pos hfrozen))⟩

end

section
/-! What an M-slot instruction reads (R221): each active lane reads the engine as it stood at issue, for neither the unit it
occupies nor what another lane does, parking or landing words of its own accumulators, is seen there. -/

namespace Sys2Proof.Machine

/-- Lane l of a state reads, for the M unit, as that of another does: the M unit's own occupation is not read. -/
def State.ReadsAs (s t : State) (l : Nat) : Prop :=
  t.g.info = s.g.info ∧ ∃ n, t.g.accLane l = { s.g.accLane l with m := n }

/-- What the accumulator results of a list of landings come to in the store of lane l. -/
def landedInto (l : Nat) (fl : List Landing) (m : Memory) : Memory :=
  fl.foldl (fun m x => x.what.foldl (Landed.intoAcc l) m) m

theorem Gang.accLane_eq (g : Gang) (l : Nat) :
    g.accLane l = { g.lane l with store := landedInto l g.fl (g.lane l).store } := rfl

/-- An M-slot word that stands in a slot of its kind stands in slot 3. -/
theorem State.slot_three {s : State} {i : Instr} {w : Slotword} (hw : i.encode = some (.M, w)) (h : s.slotOk i = true) :
    s.cur.slot = 3 := by
  simp only [State.slotOk, hw] at h
  revert h
  unfold slotKindOf
  split <;> simp_all

/-- Occupying the M unit of one lane changes no lane in anything else. -/
theorem State.lane_updLane_m (s : State) (a n l : Nat) :
    ∃ k, (s.updLane a fun e => { e with m := n }).g.lane l = { s.g.lane l with m := k } := by
  by_cases hl : l = a
  · subst hl
    by_cases hlt : l < s.g.lanes.length
    · exact ⟨n, State.lane_updLane hlt _⟩
    · have hout : (updAt l (fun e : Lane => { e with m := n }) s.g.lanes).length ≤ l := by
        rw [length_updAt]; exact Nat.le_of_not_lt hlt
      exact ⟨(s.g.lane l).m, (List.getD_eq_default _ _ hout).trans (List.getD_eq_default _ _ (Nat.le_of_not_lt hlt)).symm⟩
  · refine ⟨(s.g.lane l).m, ?_⟩
    show (updAt a _ s.g.lanes).getD l Lane.start = s.g.lanes.getD l Lane.start
    rw [List.getD_eq_getElem?_getD, getElem?_updAt_of_ne _ hl, ← List.getD_eq_getElem?_getD]

/-- Occupying the M unit of some lanes changes nothing but that unit of lanes. -/
theorem State.foldl_updLane_m (n : Nat) : ∀ (ls : List Nat) (s : State), ∃ lanes,
    ls.foldl (fun s l => s.updLane l fun e => { e with m := n }) s = { s with g := { s.g with lanes := lanes } } ∧
      ∀ l, ∃ k, lanes.getD l Lane.start = { s.g.lane l with m := k }
  | [], s => ⟨s.g.lanes, rfl, fun l => ⟨(s.g.lane l).m, rfl⟩⟩
  | a :: ls, s => by
    obtain ⟨lanes, hfold, hlanes⟩ := State.foldl_updLane_m n ls (s.updLane a fun e => { e with m := n })
    refine ⟨lanes, hfold, fun l => ?_⟩
    obtain ⟨k, hk⟩ := hlanes l
    obtain ⟨k', hk'⟩ := State.lane_updLane_m s a n l
    exact ⟨k, by rw [hk, hk']⟩

/-- An instruction of the M slot takes that unit and leaves everything else. -/
theorem State.occupy_M {s : State} (i : Instr) (hslot : s.cur.slot = 3) : ∃ lanes,
    s.occupy i = { s with g := { s.g with lanes := lanes } } ∧ ∀ l, ∃ k, lanes.getD l Lane.start = { s.g.lane l with m := k } := by
  unfold State.occupy
  rw [hslot]
  exact State.foldl_updLane_m _ _ s

theorem State.occupy_M_actives {s : State} (i : Instr) (hslot : s.cur.slot = 3) : (s.occupy i).actives = s.actives := by
  obtain ⟨lanes, hocc, -⟩ := State.occupy_M i hslot
  rw [hocc]
  rfl

theorem State.readsAs_occupy {s : State} (i : Instr) (hslot : s.cur.slot = 3) (l : Nat) : s.ReadsAs (s.occupy i) l := by
  obtain ⟨lanes, hocc, hlanes⟩ := State.occupy_M i hslot
  obtain ⟨k, hk⟩ := hlanes l
  have hlane : (s.occupy i).g.lane l = { s.g.lane l with m := k } := by rw [hocc]; exact hk
  have hfl : (s.occupy i).g.fl = s.g.fl := by rw [hocc]
  exact ⟨by rw [hocc], k, by rw [Gang.accLane_eq, Gang.accLane_eq, hlane, hfl]⟩

theorem State.ReadsAs.fmt {s t : State} {l : Nat} (h : s.ReadsAs t l) (n : BitVec 3) : t.fmt n = s.fmt n := by
  unfold State.fmt
  rw [h.1]

theorem State.ReadsAs.latM {s t : State} {l : Nat} (h : s.ReadsAs t l) (x : MF) : t.latM x = s.latM x := by
  unfold State.latM
  rw [h.fmt, h.fmt]

/-- A lane that parks leaves what every lane reads. -/
theorem State.ReadsAs.park {s t : State} {l : Nat} (h : s.ReadsAs t l) (p : Nat) (c : Cause) (w : Word) :
    s.ReadsAs (t.park p c w) l := by
  have hpark : (t.park p c w).g.info = t.g.info ∧ (t.park p c w).g.accLane l = t.g.accLane l := by
    simp only [State.park, State.updG, Gang.park]
    split <;> exact ⟨rfl, rfl⟩
  obtain ⟨hinfo, hacc⟩ := hpark
  obtain ⟨hsame, n, hread⟩ := h
  exact ⟨hinfo.trans hsame, n, hacc.trans hread⟩

/-- A lane's words in flight are its own, and so are those it gives up. -/
theorem Landed.intoAcc_yieldAcc {l p : Nat} (h : l ≠ p) (a : BitVec 2) (rows : List (Nat × List Byte)) (m : Memory)
    (w : Landed) : Landed.intoAcc l m (Landed.yieldAcc p a rows w) = Landed.intoAcc l m w := by
  cases w with
  | acc p' a' old =>
    by_cases hp : p' = p ∧ a' = a
    · simp [Landed.yieldAcc, Landed.intoAcc, hp.1, Ne.symm h, hp.2]
    · rw [Landed.yieldAcc, if_neg hp]
  | _ => rfl

/-- What another lane gives up changes nothing for a lane. -/
theorem landedInto_yieldAcc {l p : Nat} (h : l ≠ p) (lat : Nat) (a : BitVec 2) (rows : List (Nat × List Byte))
    (fl : List Landing) (m : Memory) :
    landedInto l (fl.map fun x => if lat < x.left then { x with what := x.what.map (Landed.yieldAcc p a rows) } else x) m =
      landedInto l fl m := by
  unfold landedInto
  rw [List.foldl_map]
  refine List.foldl_ext _ _ _ fun m x _ => ?_
  split
  · simp only [List.foldl_map, Landed.intoAcc_yieldAcc h]
  · rfl

/-- A lane that lands words of an accumulator leaves what the other lanes read. -/
theorem State.ReadsAs.landsWords {s t : State} {l p : Nat} (h : s.ReadsAs t l) (hl : l ≠ p) (lat : Nat) (a : BitVec 2)
    (ws : List (Nat × Nat × List (Nat × FlagBits))) : s.ReadsAs (t.landsWords lat p a ws) l := by
  obtain ⟨hinfo, n, hread⟩ := h
  have hnew (rows : List (Nat × List Byte)) (fl : FlagBits) (m : Memory) :
      landedInto l [⟨lat, .acc p a rows :: if fl = 0 then [] else [.flags p fl], true⟩] m = m := by
    unfold landedInto
    split <;> simp [Landed.intoAcc, hl.symm]
  have hfl (m : Memory) : landedInto l (t.landsWords lat p a ws).g.fl m = landedInto l t.g.fl m :=
    List.foldl_append.trans ((hnew _ _ _).trans (landedInto_yieldAcc hl ..))
  exact ⟨hinfo, n, by rw [← hread, Gang.accLane_eq, hfl]; rfl⟩

/-- Two ways of doing something lane by lane agree when they agree on every lane that is as it has to be, and when no lane
changes that of another. -/
theorem foldl_lanes_congr {f g : State → Nat → State} {P : State → Nat → Prop} (hfg : ∀ t l, P t l → f t l = g t l)
    (hkeep : ∀ t l l', l' ≠ l → P t l' → P (g t l) l') : ∀ (ls : List Nat), ls.Nodup → ∀ t, (∀ l ∈ ls, P t l) →
      ls.foldl f t = ls.foldl g t
  | [], _, _, _ => rfl
  | l :: ls, hnodup, t, hP => by
    obtain ⟨hl, hls⟩ := List.nodup_cons.1 hnodup
    rw [List.foldl_cons, List.foldl_cons, hfg t l (hP l (List.mem_cons_self ..))]
    exact foldl_lanes_congr hfg hkeep ls hls _ fun l' hl' =>
      hkeep t l l' (fun he => hl (he ▸ hl')) (hP l' (List.mem_cons_of_mem l hl'))

/-- An instruction of the M slot that goes: each active lane parks or lands words, by what it reads at issue. -/
theorem State.run_eachLane_words {s : State} {i : Instr} {w : Slotword} {f : State → Nat → State}
    {bad : Nat → Option (Cause × Word)} {lat : Nat} {a : BitVec 2} {ws : Nat → List (Nat × Nat × List (Nat × FlagBits))}
    (hgo : s.goes i) (hw : i.encode = some (.M, w))
    (hbad : ∀ t l c v, s.ReadsAs t l → bad l = some (c, v) → f t l = t.park l c v)
    (hland : ∀ t l, s.ReadsAs t l → bad l = none → f t l = t.landsWords lat l a (ws l)) :
    (s.run i fun s => s.eachLane f) = s.eachOr i bad fun l t => t.landsWords lat l a (ws l) := by
  have hslot := State.slot_three hw hgo.1
  rw [State.run_go _ hgo.2, State.eachLane, State.occupy_M_actives i hslot, State.eachOr]
  refine foldl_lanes_congr (P := s.ReadsAs) (fun t l hread => ?agree) (fun t l l' hne hread => ?keep) _
    (List.nodup_range.filter _) _ fun l _ => State.readsAs_occupy i hslot l
  case agree =>
    cases hb : bad l with
    | none => exact hland t l hread hb
    | some p => exact hbad t l p.1 p.2 hread hb
  case keep =>
    cases bad l with
    | none => exact hread.landsWords hne lat a (ws l)
    | some p => exact hread.park l p.1 p.2

end Sys2Proof.Machine
end

section
/-! An accumulator as the M unit reads it (R221): the words in flight stand where they will land. -/

namespace Sys2Proof.Machine

theorem Gang.accLane_of_idle {g : Gang} (h : g.fl = []) (l : Nat) : g.accLane l = g.lane l := by
  rw [Gang.accLane, h]
  rfl

/-- A run of bytes outside what is written reads as before. -/
theorem Memory.bytes_put_outside {m : Memory} (h : m.wf = true) {a : Nat} {bs : List Byte} :
    ∀ (n b : Nat), (b + n ≤ a ∨ a + bs.length ≤ b) → (m.put a bs).bytes b n = m.bytes b n
  | 0, _, _ => rfl
  | n + 1, b, hout => by
    rw [Memory.bytes_succ, Memory.bytes_succ, Memory.get_put_outside h (by omega),
      Memory.bytes_put_outside h n (b + 1) (by omega)]

/-- One word of an accumulator written: it reads so, and the other words as before. -/
theorem Lane.accWord_put {e : Lane} (h : e.store.wf = true) (a : BitVec 2) {r j r' j' v : Nat} (hv : v < 2 ^ 32) (hj : j < 64)
    (hj' : j' < 64) : ({ e with store := e.store.put (accBase a + (256 * r + 4 * j)) (leBytes 4 v) } : Lane).accWord a r' j' =
      if r' = r ∧ j' = j then v else e.accWord a r' j' := by
  simp only [Lane.accWord]
  split
  case isTrue hsame =>
    obtain ⟨rfl, rfl⟩ := hsame
    rw [Nat.add_assoc, Memory.le_put_leBytes h, Nat.mod_eq_of_lt hv]
  case isFalse hother =>
    rw [Memory.le, Memory.bytes_put_outside h, Memory.le]
    rw [leBytes_length]
    omega

/-- One word of an accumulator in flight: it reads as it will land, and the other words as they stand. -/
theorem Gang.accWord_inFlight {g : Gang} {l n : Nat} {a : BitVec 2} {r j r' j' v : Nat} {b : Bool}
    (hwf : (g.lane l).store.wf = true) (hv : v < 2 ^ 32) (hfl : g.fl = [⟨n, [.acc l a [(256 * r + 4 * j, leBytes 4 v)]], b⟩])
    (hj : j < 64) (hj' : j' < 64) :
    (g.accLane l).accWord a r' j' = if r' = r ∧ j' = j then v else (g.lane l).accWord a r' j' := by
  have hacc : g.accLane l =
      { g.lane l with store := (g.lane l).store.put (accBase a + (256 * r + 4 * j)) (leBytes 4 v) } := by
    simp [Gang.accLane, hfl, Landed.intoAcc, Memory.putRows]
  rw [hacc, Lane.accWord_put hwf a hv hj hj']

theorem leValue_lt : ∀ bs : List Byte, leValue bs < 256 ^ bs.length
  | [] => Nat.one_pos
  | b :: bs => by
    have hb := b.isLt
    have hbs := leValue_lt bs
    rw [leValue, List.length_cons, Nat.pow_succ]
    omega

theorem Lane.accWord_lt (e : Lane) (a : BitVec 2) (i j : Nat) : e.accWord a i j < 2 ^ 32 := by
  have h := leValue_lt (e.store.bytes (accBase a + 256 * i + 4 * j) 4)
  rw [Memory.bytes_length] at h
  exact h

end Sys2Proof.Machine
end

section
/-! The words of a dense product (R224, R225): the operands as the model lists them, and their chunks, element by element. -/

namespace Sys2Proof.Machine

theorem chunksOf_range_map {α : Type} (n : Nat) : ∀ (m : Nat) (f : Nat → α),
    chunksOf n m ((List.range (m * n)).map f) = (List.range m).map fun c => (List.range n).map fun k => f (c * n + k)
  | 0, _ => rfl
  | m + 1, f => by
    have hsplit : (List.range ((m + 1) * n)).map f =
        (List.range n).map f ++ (List.range (m * n)).map fun k => f (n + k) := by
      rw [Nat.succ_mul, Nat.add_comm, List.range_add, List.map_append, List.map_map]
      rfl
    have hlen : ((List.range n).map f).length = n := by simp
    rw [chunksOf, hsplit, List.take_left' hlen, List.drop_left' hlen, chunksOf_range_map n m fun k => f (n + k),
      List.range_succ_eq_map, List.map_cons, List.map_map]
    congr 1
    · simp
    · refine List.map_congr_left fun c _ => List.map_congr_left fun k _ => ?_
      exact congrArg f (by rw [Nat.succ_mul]; omega)

theorem zipIdx_range_map {α β : Type} (n : Nat) (f : Nat → α) (g : α × Nat → β) :
    (((List.range n).map f).zipIdx).map g = (List.range n).map fun k => g (f k, k) := by
  refine List.ext_getElem (by simp) fun k _ _ => ?_
  simp

/-- The sum over chunks of the sums over each is the sum over all. -/
theorem sum_range_chunks (f : Nat → Int) (n : Nat) : ∀ m : Nat,
    ((List.range m).map fun c => ((List.range n).map fun k => f (c * n + k)).sum).sum = ((List.range (m * n)).map f).sum
  | 0 => by simp
  | m + 1 => by
    rw [List.range_succ, List.map_append, List.sum_append, sum_range_chunks f n m, Nat.succ_mul, List.range_add,
      List.map_append, List.sum_append, List.map_map, List.map_singleton, List.sum_singleton]
    rfl

theorem widthOf_cases (elem : Nat) : widthOf elem = 4 ∨ widthOf elem = 8 ∨ widthOf elem = 16 ∨ widthOf elem = 32 := by
  unfold widthOf
  split <;> simp

/-- The decoded elements of a row that a tile has. -/
theorem Lane.vals_eq {e : Lane} {f : Word} {t : BitVec 4} {n : Nat} (h : n ≤ e.perRow f t) (i : Nat) :
    e.vals f t i n = (List.range n).map fun j => decodeF f (e.elem (widthOf (fElem f)) t i j) := by
  unfold Lane.vals
  have hmin : min n (e.rowBytes t * 8 / widthOf (fElem f)) = n := Nat.min_eq_left h
  rw [Lane.rowElems_eq (widthOf_cases _), ← List.map_take, List.take_range, hmin, List.map_map]
  rfl

/-- B at k of column j: tb[k][j], and for MMAT tb[j][k] (R225). -/
def Lane.bValue (e : Lane) (x : MF) (fb : Word) (trans : Bool) (k j : Nat) : Val :=
  decodeF fb (if trans then e.elem (widthOf (fElem fb)) x.tb j k else e.elem (widthOf (fElem fb)) x.tb k j)

/-- A at (i, k): ta[i][k] (R225). -/
def Lane.aValue (e : Lane) (x : MF) (fa : Word) (i k : Nat) : Val := decodeF fa (e.elem (widthOf (fElem fa)) x.ta i k)

section
variable (e : Lane) (x : MF) (fa fb : Word)

theorem Lane.denseSize_m (trans : Bool) : (e.denseSize x fa fb trans).m = e.rows x.ta := by cases trans <;> rfl

theorem Lane.denseSize_k_le_a (trans : Bool) : (e.denseSize x fa fb trans).k ≤ e.perRow fa x.ta := by
  cases trans <;> exact (Nat.min_le_left _ _).trans (Nat.min_le_left _ _)

theorem Lane.bColumns_eq (trans : Bool) : e.bColumns x fb (e.denseSize x fa fb trans) trans =
    (List.range (e.denseSize x fa fb trans).n).map fun j =>
      (List.range (e.denseSize x fa fb trans).k).map fun k => e.bValue x fb trans k j := by
  cases trans with
  | true =>
    exact List.map_congr_left fun j _ => Lane.vals_eq ((Nat.min_le_left _ _).trans (Nat.min_le_right _ _)) j
  | false =>
    refine List.map_congr_left fun j hj => ?_
    rw [List.map_map]
    refine List.map_congr_left fun k _ => ?_
    have hn : (e.denseSize x fa fb false).n ≤ e.perRow fb x.tb := Nat.min_le_left _ _
    rw [Function.comp_apply, Lane.vals_eq hn]
    simp [List.getD_eq_getElem?_getD, List.mem_range.1 hj, Lane.bValue]

/-- Both operands are integers without scale, so that the words of the accumulator are integers (R224). -/
def BothInts : Prop := isInt (fElem fa) = true ∧ isInt (fElem fb) = true ∧ fSmode fa = 0 ∧ fSmode fb = 0

theorem bothInts_iff :
    (isInt (fElem fa) && isInt (fElem fb) && fSmode fa == 0 && fSmode fb == 0) = true ↔ BothInts fa fb := by
  simp [BothInts, and_assoc]

/-- Row i of A along k. -/
def Lane.aRow (k i : Nat) : List Val := (List.range k).map fun q => e.aValue x fa i q

/-- Column j of B along k. -/
def Lane.bColumn (trans : Bool) (k j : Nat) : List Val := (List.range k).map fun q => e.bValue x fb trans q j

/-- The accumulator word that a dense product starts from: 0 for MMAZ (R225). -/
def Lane.oldWord (zero : Bool) (i j : Nat) : Nat := if zero then 0 else e.accWord x.acc i j

/-- One word of a dense product (R76, R77, R225). -/
def Lane.denseWord (zero trans : Bool) (i j : Nat) : Nat × FlagBits :=
  let d := e.denseSize x fa fb trans
  if isInt (fElem fa) && isInt (fElem fb) && fSmode fa == 0 && fSmode fb == 0 then
    denseInt (fSat fa) d (e.oldWord x zero i j) (e.aRow x fa d.k i) (e.bColumn x fb trans d.k j)
  else e.denseFloat x fa fb trans d i j (e.oldWord x zero i j) (e.aRow x fa d.k i) (e.bColumn x fb trans d.k j)

/-- The words that a dense product lands, by the rows that its mask selects. -/
def Lane.denseRows (zero trans : Bool) : List (Nat × Nat × List (Nat × FlagBits)) :=
  (e.picked x.k (e.rows x.ta)).map fun i =>
    (i, 0, (List.range (e.denseSize x fa fb trans).n).map fun j => e.denseWord x fa fb zero trans i j)

/-- The fault of a K that is no multiple of the chunk (R224). -/
def Lane.denseFault (trans : Bool) : Option (Cause × Word) :=
  let d := e.denseSize x fa fb trans
  if d.k % d.chunk = 0 then none else some (.shape, infoOf 3 (d.k + d.chunk * 256))

end

theorem State.landAcc_eq (s : State) (lat l : Nat) (a : BitVec 2) (ws : List (Nat × Nat × List (Nat × FlagBits))) :
    s.landAcc lat l a ws = s.landsWords lat l a ws := by
  unfold State.landsWords
  rw [List.foldl_map]
  rfl

/-- A dense product in a lane that parks. -/
theorem State.denseLane_parks {x : MF} {zero trans : Bool} {s : State} {l : Nat} {c : Cause} {w : Word}
    (h : (s.g.accLane l).denseFault x (s.fmt x.fsA) (s.fmt x.fsB) trans = some (c, w)) :
    s.denseLane x zero trans l = s.park l c w := by
  simp only [Lane.denseFault] at h
  split at h
  case isTrue => cases h
  case isFalse hk =>
    cases h
    exact if_pos hk

/-- A dense product in a lane that lands its words. -/
theorem State.denseLane_lands {x : MF} {zero trans : Bool} {s : State} {l : Nat}
    (h : (s.g.accLane l).denseFault x (s.fmt x.fsA) (s.fmt x.fsB) trans = none) :
    s.denseLane x zero trans l =
      s.landsWords (s.latM x) l x.acc ((s.g.accLane l).denseRows x (s.fmt x.fsA) (s.fmt x.fsB) zero trans) := by
  simp only [Lane.denseFault] at h
  split at h
  case isFalse => cases h
  case isTrue hk =>
    unfold State.denseLane
    rw [if_neg (not_not_intro hk), State.landAcc_eq]
    congr 1
    rw [Lane.denseSize_m]
    refine List.map_congr_left fun i _ => ?_
    rw [Lane.bColumns_eq, Lane.vals_eq (Lane.denseSize_k_le_a ..)]
    exact congrArg (fun ws => (i, 0, ws)) (zipIdx_range_map ..)

/-- A dense product that goes: each active lane parks or lands its words. -/
theorem State.run_dense {s : State} {i : Instr} {w : Slotword} (x : MF) (zero trans : Bool) (hgo : s.goes i)
    (hw : i.encode = some (.M, w)) : (s.run i fun s => s.eachLane (State.denseLane x zero trans)).next =
      .next (s.eachOr i (fun l => (s.g.accLane l).denseFault x (s.fmt x.fsA) (s.fmt x.fsB) trans) fun l t =>
        t.landsWords (s.latM x) l x.acc ((s.g.accLane l).denseRows x (s.fmt x.fsA) (s.fmt x.fsB) zero trans)) := by
  refine congrArg State.next
    (State.run_eachLane_words hgo hw (fun t l c v hread hbad => ?parks) fun t l hread hgood => ?lands)
  case parks =>
    obtain ⟨-, n, hacc⟩ := id hread
    exact State.denseLane_parks (by rw [hacc, hread.fmt, hread.fmt]; exact hbad)
  case lands =>
    obtain ⟨-, n, hacc⟩ := id hread
    rw [State.denseLane_lands (by rw [hacc, hread.fmt, hread.fmt]; exact hgood), hacc, hread.fmt, hread.fmt, hread.latM]
    rfl

end Sys2Proof.Machine
end

section
/-! The integer words of a dense product (R77). -/

namespace Sys2Proof.Machine

theorem sextNat_emod (v n : Nat) : sextNat v n % 2 ^ n = ((v % 2 ^ n : Nat) : Int) := by
  simp only [sextNat]
  split <;> simp

/-- A number below 2^32 is what it stands for as a signed number, modulo 2^32. -/
theorem toNat_sextNat_emod {v : Nat} (h : v < 2 ^ 32) : (sextNat v 32 % 2 ^ 32).toNat = v := by
  rw [sextNat_emod, Nat.mod_eq_of_lt h, Int.toNat_natCast]

/-- Reading a wrapped sum as a signed number and adding to it wraps as adding to the sum itself does. -/
theorem sextNat_toNat_add_emod (u v : Int) : (sextNat (u % 2 ^ 32).toNat 32 + v) % 2 ^ 32 = (u + v) % 2 ^ 32 := by
  have hpos : (0 : Int) ≤ u % 2 ^ 32 := Int.emod_nonneg _ (by decide)
  rw [Int.add_emod, sextNat_emod, Int.natCast_emod, Int.toNat_of_nonneg hpos]
  simp

/-- Without saturation the chunks join to one sum modulo 2^32. -/
theorem chunkInt_wraps : ∀ (sums : List Int) (acc : Nat × FlagBits), acc.1 < 2 ^ 32 →
    sums.foldl (chunkInt false) acc = (((sextNat acc.1 32 + sums.sum) % 2 ^ 32).toNat, acc.2)
  | [], acc, h => by rw [List.foldl_nil, List.sum_nil, Int.add_zero, toNat_sextNat_emod h]
  | u :: us, acc, h => by
    have hstep : chunkInt false acc u = (((sextNat acc.1 32 + u) % 2 ^ 32).toNat, acc.2) := by simp [chunkInt]
    have hlt : ((sextNat acc.1 32 + u) % 2 ^ 32).toNat < 2 ^ 32 := by
      generalize sextNat acc.1 32 + u = v
      omega
    rw [List.foldl_cons, List.sum_cons, hstep, chunkInt_wraps us _ hlt, sextNat_toNat_add_emod, Int.add_assoc]

/-- With saturation a chunk's sum stops at the ends of the range. -/
theorem chunkInt_saturates (acc : Nat × FlagBits) (sum : Int) : chunkInt true acc sum =
    let v := sextNat acc.1 32 + sum
    if v < -2 ^ 31 then (0x80000000, acc.2 ||| fOverflow)
    else if 2 ^ 31 ≤ v then (0x7FFFFFFF, acc.2 ||| fOverflow)
    else ((v % 2 ^ 32).toNat, acc.2) := by
  simp only [chunkInt, intRange, true_and]
  generalize sextNat acc.1 32 + sum = v
  have hlow : v < -2147483648 ↔ v < -2 ^ 31 := Iff.rfl
  have hhigh : 2147483647 < v ↔ 2 ^ 31 ≤ v := by omega
  simp only [hlow, hhigh]
  by_cases hlo : v < -2 ^ 31
  · simp only [if_pos hlo, if_pos (Or.inl hlo)]
    rfl
  · by_cases hhi : 2 ^ 31 ≤ v
    · simp only [if_neg hlo, if_pos hhi, if_pos (Or.inr hhi)]
      rfl
    · simp only [if_neg hlo, if_neg hhi, if_neg (not_or.2 ⟨hlo, hhi⟩)]

/-- An integer word, chunk by chunk. -/
theorem denseInt_range {d : Dense} (h : d.k % d.chunk = 0) (sat : Bool) (c : Nat) (a b : Nat → Val) :
    denseInt sat d c ((List.range d.k).map a) ((List.range d.k).map b) =
      (List.range (d.k / d.chunk)).foldl (fun acc q => chunkInt sat acc
        ((List.range d.chunk).map fun k => intVal (a (q * d.chunk + k)) * intVal (b (q * d.chunk + k))).sum) (c, 0) := by
  have hk : d.k / d.chunk * d.chunk = d.k := Nat.div_mul_cancel (Nat.dvd_of_mod_eq_zero h)
  have hchunks := chunksOf_range_map d.chunk (d.k / d.chunk) fun k => (a k, b k)
  rw [hk] at hchunks
  unfold denseInt
  rw [List.zip_map', hchunks, List.foldl_map]
  simp only [List.map_map, List.sum_eq_foldl]
  rfl

section
variable {e : Lane} {x : MF} {fa fb : Word} {zero trans : Bool} {d : Dense}

theorem Lane.oldWord_lt (i j : Nat) : e.oldWord x zero i j < 2 ^ 32 := by
  unfold Lane.oldWord
  split
  · exact Nat.two_pow_pos 32
  · exact e.accWord_lt ..

theorem Lane.denseWord_of_ints (hd : e.denseSize x fa fb trans = d) (hk : d.k % d.chunk = 0) (i j : Nat)
    (hint : BothInts fa fb) : e.denseWord x fa fb zero trans i j = (List.range (d.k / d.chunk)).foldl (fun acc c =>
      chunkInt (fSat fa) acc ((List.range d.chunk).map fun k => intVal (e.aValue x fa i (c * d.chunk + k)) *
        intVal (e.bValue x fb trans (c * d.chunk + k) j)).sum) (e.oldWord x zero i j, 0) := by
  subst hd
  exact (if_pos ((bothInts_iff fa fb).2 hint)).trans (denseInt_range hk ..)

/-- Integers without saturation: the sum over k modulo 2^32. -/
theorem Lane.denseWord_wraps (hd : e.denseSize x fa fb trans = d) (hk : d.k % d.chunk = 0) (i j : Nat)
    (hint : BothInts fa fb) (hsat : fSat fa = false) : e.denseWord x fa fb zero trans i j =
      (((sextNat (e.oldWord x zero i j) 32 +
        ((List.range d.k).map fun k => intVal (e.aValue x fa i k) * intVal (e.bValue x fb trans k j)).sum) % 2 ^ 32).toNat,
        0) := by
  have hmul := Nat.div_mul_cancel (Nat.dvd_of_mod_eq_zero hk)
  have hsum := sum_range_chunks (fun k => intVal (e.aValue x fa i k) * intVal (e.bValue x fb trans k j)) d.chunk (d.k / d.chunk)
  rw [hmul] at hsum
  have hwrap := chunkInt_wraps ((List.range (d.k / d.chunk)).map fun c => ((List.range d.chunk).map fun k =>
    intVal (e.aValue x fa i (c * d.chunk + k)) * intVal (e.bValue x fb trans (c * d.chunk + k) j)).sum)
    (e.oldWord x zero i j, 0) (Lane.oldWord_lt i j)
  rw [hsum, List.foldl_map] at hwrap
  rw [Lane.denseWord_of_ints hd hk i j hint, hsat]
  exact hwrap

/-- Integers with saturation: each chunk's sum stops at the ends of the range. -/
theorem Lane.denseWord_saturates (hd : e.denseSize x fa fb trans = d) (hk : d.k % d.chunk = 0) (i j : Nat)
    (hint : BothInts fa fb) (hsat : fSat fa = true) : e.denseWord x fa fb zero trans i j =
      (List.range (d.k / d.chunk)).foldl (fun acc c =>
        let v := sextNat acc.1 32 + ((List.range d.chunk).map fun k => intVal (e.aValue x fa i (c * d.chunk + k)) *
          intVal (e.bValue x fb trans (c * d.chunk + k) j)).sum
        if v < -2 ^ 31 then (0x80000000, acc.2 ||| fOverflow)
        else if 2 ^ 31 ≤ v then (0x7FFFFFFF, acc.2 ||| fOverflow)
        else ((v % 2 ^ 32).toNat, acc.2)) (e.oldWord x zero i j, 0) := by
  rw [Lane.denseWord_of_ints hd hk i j hint, hsat]
  simp only [chunkInt_saturates]

end

end Sys2Proof.Machine
end

section
/-! The other words of a dense product (R76): exact sums of chunks, with the scales. -/

namespace Sys2Proof

/-- The scale register of A in a dense product (R225). -/
def MF.denseScaleA (x : MF) : BitVec 2 := if x.mod.getLsbD 0 then 2 else 0

/-- The scale register of B in a dense product (R225). -/
def MF.denseScaleB (x : MF) : BitVec 2 := if x.mod.getLsbD 0 then 3 else 1

end Sys2Proof

namespace Sys2Proof.Machine

/-- One is neutral in every product, and raises nothing. -/
theorem Val.mul_one (v : Val) : v.mul (.ofInt 1) = (v, 0) := by
  cases v <;> simp [Val.ofInt, Val.mul, Val.neg]

theorem Val.isNan_one : (Val.ofInt 1).isNan = false := rfl

theorem Val.live_one : (Val.ofInt 1).live = .ofInt 1 := rfl

theorem Val.eq_nan_of_isNan : ∀ {v : Val}, v.isNan = true → v = .nan
  | .nan, _ => rfl

/-- Without scales along k, the term of two elements is their product. -/
theorem scaledProd_one (a b : Val) : scaledProd a (.ofInt 1) b (.ofInt 1) = [a.mul b] := by
  simp [scaledProd, Val.live_one, Val.mul_one, Val.isNan_one]

/-- A sum with a NaN among its terms is NaN. -/
theorem sumFormed_nan_of_mem {ts : List Formed} (h : ∃ t ∈ ts, t.1.isNan = true) (mode : Nat) :
    (sumFormed mode ts).1.isNan = true := by
  obtain ⟨t, ht, hnan⟩ := h
  have hany : (ts.map (·.1)).any (·.isNan) = true := List.any_eq_true.2 ⟨t.1, List.mem_map_of_mem ht, hnan⟩
  simp only [sumFormed, sumVals, hany, if_true]
  split <;> rfl

/-- A chunk without constant scales is the exact sum of its terms. -/
theorem chunkScaled_one (terms : List Formed) :
    chunkScaled terms (.ofInt 1) (.ofInt 1) = sumFormed 0 ((.zero false, 0) :: terms) := by
  simp only [chunkScaled, Val.live_one, Val.mul_one, Val.isNan_one, Bool.or_false]
  refine Prod.ext ?_ (by simp)
  by_cases hsum : (sumFormed 0 ((.zero false, 0) :: terms)).1.isNan = true
  · simp only [hsum, if_true]
    exact (Val.eq_nan_of_isNan hsum).symm
  · have hkeep : (terms.filter fun t => !t.1.isNan) = terms := List.filter_eq_self.2 fun t ht => by
      cases hb : t.1.isNan with
      | false => rfl
      | true => exact absurd (sumFormed_nan_of_mem ⟨t, List.mem_cons_of_mem _ ht, hb⟩ 0) hsum
    simp only [hkeep, if_neg hsum]

theorem headD_range_map_add (n c : Nat) : ((List.range n).map fun k => c * n + k).headD 0 = c * n := by
  cases n with
  | zero => rfl
  | succ n => rw [List.range_succ_eq_map]; rfl

/-- The scales of B vary along k (R225). -/
def bAlong (fb : Word) (trans : Bool) : Bool := decide (fSmode fb = if trans then 2 else 1)

theorem scaleAt_of_none {f : Word} (h : fSmode f = 0) (e : Lane) (n : BitVec 2) (colDir : Bool) (i k : Nat) :
    e.scaleAt n f colDir i k = .ofInt 1 := if_pos h

section
variable {e : Lane} {x : MF} {fa fb : Word} {zero trans : Bool} {d : Dense}

/-- The terms of chunk c of a word, with the scales that vary along k. -/
def Lane.denseTerms (e : Lane) (x : MF) (fa fb : Word) (trans : Bool) (i j n c : Nat) : List Formed :=
  (List.range n).flatMap fun k => scaledProd
    (e.aValue x fa i (c * n + k))
    (if decide (fSmode fa = 2) then e.scaleAt x.denseScaleA fa false i (c * n + k) else .ofInt 1)
    (e.bValue x fb trans (c * n + k) j)
    (if bAlong fb trans then e.scaleB x.denseScaleB fb trans (c * n + k) j else .ofInt 1)

/-- Other words, chunk by chunk: the scales that vary along k are in the sum, and the others multiply it. -/
theorem Lane.denseWord_floats (hd : e.denseSize x fa fb trans = d) (hk : d.k % d.chunk = 0) (i j : Nat)
    (hint : ¬BothInts fa fb) : e.denseWord x fa fb zero trans i j = (List.range (d.k / d.chunk)).foldl (fun acc c =>
      chunkFloat acc (e.denseTerms x fa fb trans i j d.chunk c)
        (if decide (fSmode fa = 2) then .ofInt 1 else e.scaleAt x.denseScaleA fa false i (c * d.chunk))
        (if bAlong fb trans then .ofInt 1 else e.scaleB x.denseScaleB fb trans (c * d.chunk) j)) (e.oldWord x zero i j, 0) := by
  subst hd
  have hmul := Nat.div_mul_cancel (Nat.dvd_of_mod_eq_zero hk)
  refine (if_neg (mt (bothInts_iff fa fb).1 hint)).trans ?_
  generalize e.denseSize x fa fb trans = d at *
  have hchunks := chunksOf_range_map d.chunk (d.k / d.chunk) fun k => (k, e.aValue x fa i k, e.bValue x fb trans k j)
  rw [hmul] at hchunks
  have hzip : (List.range d.k).zip ((e.aRow x fa d.k i).zip (e.bColumn x fb trans d.k j)) =
      (List.range d.k).map fun k => (k, e.aValue x fa i k, e.bValue x fb trans k j) := by
    rw [Lane.aRow, Lane.bColumn, List.zip_map']
    have hindex := List.zip_map' (l := List.range d.k) (f := id) (g := fun k => (e.aValue x fa i k, e.bValue x fb trans k j))
    rwa [List.map_id] at hindex
  have hregA : scReg (if x.mod.getLsbD 0 then 2 else 0) = x.denseScaleA := by unfold MF.denseScaleA; split <;> rfl
  have hregB : scReg (if x.mod.getLsbD 0 then 3 else 1) = x.denseScaleB := by unfold MF.denseScaleB; split <;> rfl
  simp only [Lane.denseFloat, hzip, hchunks, hregA, hregB, List.foldl_map, List.map_map, List.flatMap_map]
  refine List.foldl_ext _ _ _ fun acc c _ => ?_
  have hhead := headD_range_map_add d.chunk c
  simp only [Function.comp_def, hhead]
  rfl

/-- Other words without scales: the chunked sums. -/
theorem Lane.denseWord_sums (hd : e.denseSize x fa fb trans = d) (hk : d.k % d.chunk = 0) (i j : Nat)
    (hint : ¬BothInts fa fb) (ha : fSmode fa = 0) (hb : fSmode fb = 0) : e.denseWord x fa fb zero trans i j =
      chunkSums (e.oldWord x zero i j) (d.k / d.chunk) fun c => (List.range d.chunk).map fun k =>
        (e.aValue x fa i (c * d.chunk + k)).mul (e.bValue x fb trans (c * d.chunk + k) j) := by
  have hvaryA : decide (fSmode fa = 2) = false := by simp [ha]
  have hvaryB : bAlong fb trans = false := by cases trans <;> simp [bAlong, hb]
  have hscaleB (c : Nat) : e.scaleB x.denseScaleB fb trans c j = .ofInt 1 := by
    cases trans <;> exact scaleAt_of_none hb ..
  have hterms (c : Nat) : e.denseTerms x fa fb trans i j d.chunk c = (List.range d.chunk).map fun k =>
      (e.aValue x fa i (c * d.chunk + k)).mul (e.bValue x fb trans (c * d.chunk + k) j) := by
    simp only [Lane.denseTerms, hvaryA, hvaryB, Bool.false_eq_true, if_false, scaledProd_one]
    exact List.flatMap_pure_eq_map ..
  rw [Lane.denseWord_floats hd hk i j hint, chunkSums]
  refine List.foldl_ext _ _ _ fun acc c _ => ?_
  rw [hterms, hvaryA, hvaryB, scaleAt_of_none ha, hscaleB]
  simp only [Bool.false_eq_true, if_false, chunkFloat, chunkScaled_one]
  rfl

end

end Sys2Proof.Machine
end

section
/-! The obligation: MMA, MMAZ and MMAT at issue. -/

open Sys2Proof Sys2Proof.Machine

/-- Settles O31: each active lane parks or lands the words of `Lane.denseWord`, by what it reads at issue
(`State.run_dense`), and each clause on a word is a law of that function. -/
theorem denseProducts : Obligations.DenseProducts := by
  unfold Obligations.DenseProducts
  intro x s fa fb
  have hword (l : Nat) (zero trans : Bool) {d : Dense} (hd : (s.g.accLane l).denseSize x fa fb trans = d)
      (hk : d.k % d.chunk = 0) (r j : Nat) :=
    And.intro (Lane.denseWord_wraps (zero := zero) hd hk r j) <| And.intro (Lane.denseWord_saturates (zero := zero) hd hk r j) <|
      And.intro (Lane.denseWord_sums (zero := zero) hd hk r j) (Lane.denseWord_floats (zero := zero) hd hk r j)
  exact ⟨
    fun hgo => ⟨fun l r j => (s.g.accLane l).denseWord x fa fb false false r j, State.run_dense x false false hgo rfl,
      fun l r j hK _ _ => hword l false false rfl hK r j⟩,
    fun hgo => ⟨fun l r j => (s.g.accLane l).denseWord x fa fb true false r j, State.run_dense x true false hgo rfl,
      fun l r j hK _ _ => hword l true false rfl hK r j⟩,
    fun hgo => ⟨fun l r j => (s.g.accLane l).denseWord x fa fb false true r j, State.run_dense x false true hgo rfl,
      fun l r j hK _ _ => hword l false true rfl hK r j⟩,
    fun h l => Gang.accLane_of_idle h l,
    fun l a r j v n b hwf hv hfl _ hj r' j' _ hj' => Gang.accWord_inFlight hwf hv hfl hj hj'⟩

end

section
/-! A JOIN of a handler that a trap has started while a split runs: R320 bars it before its stack is looked at. -/

namespace Sys2Proof.Machine

/-- A handler is about to issue its first bundle on the primary, whose stack has the entry of a running split on top. -/
def State.splitTrapped : State :=
  { State.reset with
    g := { Gang.empty with
      split := true, mode := .sys ⟨0, 0, [], none, .none, 0, false, false⟩
      q0 := { Seq.start with ds := [⟨0, 0, 0, 0, false, 1⟩] } }
    cur := Issue.idle }

/-- JOIN with every field zero. -/
def SR.joinZero : SR := ⟨0, 0, 0, 0, 0⟩

/-- In SYS mode JOIN is a cause, and does not wait (R320). -/
theorem State.splitTrapped_gate_join :
    State.splitTrapped.gate (.join SR.joinZero) = .trap (State.splitTrapped.ill (.join SR.joinZero) 0x09) := by decide

end Sys2Proof.Machine

open Sys2Proof Sys2Proof.Machine

/-- Refutes O11: a JOIN that finds the entry of a running split waits in USER mode alone; in SYS mode, as in the
counterexample's state, it is a double fault, which kills the gang (R320). -/
theorem not_divergence : ¬ Obligations.Divergence := by
  unfold Obligations.Divergence
  intro h
  obtain ⟨T, -, -, -, -, -, -, -, hstack, -⟩ := h ⟨0, 0, 0⟩ SR.joinZero State.splitTrapped
  obtain ⟨-, -, -, -, -, -, hwaits, -⟩ := hstack ⟨0, 0, 0, 0, false, 1⟩ [] rfl
  have hsame := hwaits rfl rfl (by decide) rfl (by decide) (by decide) (by decide)
  rw [exec_of_trap rfl State.splitTrapped_gate_join] at hsame
  have hstops := congrArg (fun o : Host.Outcome State Fault Refusal => match o with
    | .next t => t.g.stopping
    | _ => false) hsame
  exact absurd hstops (by decide)

end

section
/-! SPLIT at issue, and the start of the fragment after its delay bundles (R53, R92, R95). -/

namespace Sys2Proof.Machine

theorem getLsbD_laneBit {l k : Nat} (hk : k < 16) : (laneBit l).getLsbD k = decide (l = k) := by
  rw [laneBit, BitVec.getLsbD_ofNat, Nat.testBit_two_pow, decide_eq_true hk, Bool.true_and]

/-- A mask gathered lane by lane. -/
theorem getLsbD_foldl_laneBit {k : Nat} (hk : k < 16) : ∀ (ls : List Nat) (m : Lanes),
    (ls.foldl (fun m l => m ||| laneBit l) m).getLsbD k = (m.getLsbD k || decide (k ∈ ls))
  | [], m => by simp
  | l :: ls, m => by
    rw [List.foldl_cons, getLsbD_foldl_laneBit hk ls, BitVec.getLsbD_or, getLsbD_laneBit hk, Bool.or_assoc]
    simp [eq_comm]

/-- The lanes that take the then side of IF or SPLIT: the active ones that satisfy its condition (R92). -/
theorem State.thenLanes_getLsbD (s : State) (x : SB) {l : Nat} (hl : l < 16) : (s.thenLanes x).getLsbD l =
    (s.act.getLsbD l && ((x.p == 0 || (s.g.lane l).c.getLsbD (x.p.toNat - 1)) != (x.n == 1))) := by
  rw [State.thenLanes, getLsbD_foldl_laneBit hl, show (0 : Lanes).getLsbD l = false from BitVec.getLsbD_zero,
    Bool.false_or, Bool.eq_iff_iff]
  simp only [decide_eq_true_eq, List.mem_filter, State.actives, lanesOf, List.mem_range, hl, true_and, Bool.and_eq_true]
  rfl

theorem State.thenLanes_eq {s : State} {x : SB} {T : Lanes} (h : ∀ l < 16, T.getLsbD l = (s.act.getLsbD l &&
    ((x.p == 0 || (s.g.lane l).c.getLsbD (x.p.toNat - 1)) != (x.n == 1)))) : s.thenLanes x = T :=
  BitVec.eq_of_getLsbD_eq fun l hl => (s.thenLanes_getLsbD x hl).trans (h l hl).symm

theorem State.splits_eq_true {s : State} {x : SB} : s.splits x = true ↔ s.g.info.width = 16 ∧ s.thenLanes x ≠ 0 ∧
    s.act &&& ~~~ s.thenLanes x ≠ 0 ∧ s.g.split = false ∧ s.cur.q = 0 := by
  simp only [State.splits, Bool.and_eq_true, beq_iff_eq, bne_iff_ne, Bool.not_eq_true', and_assoc]

/-- The machine once SPLIT has taken the number by which accesses before it are known. -/
def State.splitFrom (s : State) : State := { s with tkt := s.tkt + 1, g := { s.g with splitTkt := s.tkt } }

/-- The primary keeps the then side, and on a tie too (R95). -/
theorem State.splitGang_then {s : State} {x : SB}
    (h : laneCount (s.act &&& ~~~ s.thenLanes x) ≤ laneCount (s.thenLanes x)) : s.splitGang x =
      (s.splitFrom.pushDs (s.ifEntry x (s.act &&& ~~~ s.thenLanes x) 1 false)).pending none (some (s.thenLanes x))
        (.startFragment true (s.act &&& ~~~ s.thenLanes x)) := if_pos h

/-- The primary takes the else side where more lanes do (R95). -/
theorem State.splitGang_else {s : State} {x : SB}
    (h : laneCount (s.thenLanes x) < laneCount (s.act &&& ~~~ s.thenLanes x)) : s.splitGang x =
      (s.splitFrom.pushDs (s.ifEntry x (s.act &&& ~~~ s.thenLanes x) 1 true)).pending (some (s.sbDst x).toNat)
        (some (s.act &&& ~~~ s.thenLanes x)) (.startFragment false (s.thenLanes x)) := if_neg (Nat.not_le.2 h)

/-- The JOINPC of an entry, by the literal (R92). -/
theorem State.joinDst_toNat (s : State) (x : SB) : (s.joinDst x).toNat = (match s.cur.lit with
    | some w => ((s.cur.head : Int) + 2 * w.toInt).toNat
    | none => ((s.cur.head : Int) + 2 * x.disp.toInt).toNat) := by
  unfold State.joinDst
  cases s.cur.lit <;> rfl

/-- A SPLIT that splits the gang starts its fragment at the last of its delay bundles (R95). -/
theorem Gang.complete_startFragment {g : Gang} {d : DsEntry} {r : List DsEntry} (h : g.q0.ds = d :: r) (dst : Option Nat)
    (own : Lanes) (e : Bool) (m : Lanes) (fall : Nat) (fallEnd : Bool) :
    g.complete 0 ⟨dst, 1, some own, .startFragment e m⟩ fall fallEnd = { g with
      split := true, q0 := g.q0.arrive ⟨dst, 1, some own, .startFragment e m⟩ fall fallEnd
      q1 := { Seq.start with
        pc := if e then d.elsePc else fall, atEnd := !e && fallEnd, ds := [{ d with kind := 2, phase := e }], exec := m
        block := .starting, utlb := g.q1.utlb, l0 := g.q1.l0, pts := g.q0.pts } } := by
  unfold Gang.complete
  cases e <;> simp [h, Seq.arrive]

/-- The gang after the second delay bundle of such a SPLIT, where no frame is open. -/
theorem State.finish_g_startFragment {s : State} {dst : Option Nat} {own m : Lanes} {e : Bool}
    (hq : s.cur.q = 0) (hd : s.cur.delay = true) (hframes : s.g.q0.frames = [])
    (hx : s.g.q0.xfer = some ⟨dst, 1, some own, .startFragment e m⟩) :
    s.finish.g = (s.g.updSeq 0 fun y => y.moveOn ([], s.cur.next, false) (ranOff s.cur.head s.cur.next)).complete 0
      ⟨dst, 1, some own, .startFragment e m⟩ s.cur.next (ranOff s.cur.head s.cur.next) := by
  have hseq : s.seq = s.g.q0 := by rw [State.seq, hq, Gang.seq_zero]
  have hnil : s.seq.frames = [] := by rw [hseq, hframes]
  rw [State.finish_of_last (by rw [hseq, hx]) hd le_rfl, State.movedOn, State.passed_nil hnil, State.ranPast_nil hnil, hq]
  rfl

/-- A fragment that starts has the primary's registers and frames, and goes on where it stands (R95). -/
theorem Gang.startFragment_copies {g : Gang} (h : g.q1.block = .starting) : let f := g.startFragment
    f.q1.s = f.q0.s ∧ f.q1.p = f.q0.p ∧ f.q1.frames = f.q0.frames.map (fun x => { x with copied := true }) ∧
      f.q1.block = .none ∧ f.q1.pts = f.q0.pts ∧ f.q1.pc = g.q1.pc ∧ f.q1.exec = g.q1.exec ∧ f.q1.ds = g.q1.ds := by
  simp [Gang.startFragment, h]

/-- While the counts go down the fragment stands where it will start. -/
theorem Gang.countDown_q1 (g : Gang) (ls : List LineInfo) :
    (g.countDown ls).q1.block = g.q1.block.tick ∧ (g.countDown ls).q1.pc = g.q1.pc ∧
    (g.countDown ls).q1.exec = g.q1.exec ∧ (g.countDown ls).q1.ds = g.q1.ds := by
  unfold Gang.countDown Gang.ageLeases Gang.agePts
  split <;> split <;> exact ⟨rfl, rfl, rfl, rfl⟩

/-- With nothing in flight, or a scalar of the primary that lands, the fragment's sequencer only counts before it starts. -/
theorem State.tick_starts {s : State} {fl : List Landing} (hmode : s.g.mode = .user)
    (hland : fl = [] ∨ ∃ r v, fl = [⟨1, [.sreg 0 r v], false⟩]) (hfl : s.g.fl = fl) :
    ∃ g : Gang, g.q1 = (s.g.countDown s.lines).q1 ∧ s.tick.g = g.startFragment := by
  rcases hland with rfl | ⟨r, v, rfl⟩
  · obtain ⟨hfl', -⟩ := s.g.countDown_frame s.lines
    have hnone : s.countDown.g.fl = [] := hfl'.trans (by rw [hfl]; rfl)
    refine ⟨s.dueOut.g, rfl, ?_⟩
    rw [State.tick_user hmode, State.landDue_eq, hnone]
    rfl
  · refine ⟨(s.dueOut.landOne (.sreg 0 r v)).g, rfl, ?_⟩
    rw [State.tick_lands hmode hfl]
    rfl

end Sys2Proof.Machine

open Sys2Proof Sys2Proof.Machine

/-- Settles O12: the two sides at issue, the fragment at the end of the second delay bundle, and its copies a cycle later. -/
theorem splitting : Obligations.Splitting := by
  unfold Obligations.Splitting
  intro x s T hgo hT
  have hthen : s.thenLanes x = T := State.thenLanes_eq hT
  refine ⟨?issue, ?fragment, ?copies⟩
  case issue =>
    intro hsplit
    have hrun : exec (.split x) s = .next (s.splitGang x) := by
      show Host.Outcome.next (s.runTransfer _ _) = _
      rw [State.runTransfer_S hgo rfl nofun nofun]
      exact congrArg _ (if_pos (State.splits_eq_true.2 (by rw [hthen]; exact hsplit)))
    subst hthen
    constructor
    · intro hle
      rw [hrun, State.splitGang_then hle, State.ifEntry, State.joinDst_toNat]
      rfl
    · intro hlt
      rw [hrun, State.splitGang_else hlt, State.ifEntry, State.joinDst_toNat]
      rfl
  case fragment =>
    intro u dst own e m d r hq hd hframes hds hx f past
    simp only [f]
    rw [State.finish_g_startFragment hq hd hframes hx, Gang.complete_startFragment (d := d) (r := r) (by exact hds)]
    exact ⟨rfl, rfl, rfl, hds, rfl, rfl, rfl, rfl, rfl, rfl, rfl, rfl, rfl, rfl, rfl⟩
  case copies =>
    intro u fl hmode hblock hland hfl v
    obtain ⟨g, hg, htick⟩ := State.tick_starts hmode hland hfl
    obtain ⟨hstart, hpc, hexec, hds⟩ := u.g.countDown_q1 u.lines
    have hv : v = g.startFragment := htick
    rw [hv, ← hpc, ← hexec, ← hds, ← hg]
    exact Gang.startFragment_copies (by rw [hg, hstart, hblock]; rfl)

end

section
/-! Hardware loops: the frame that LOOP and LOOPI open, the END step, LBRK, and the stage predicates (R84 to R89). -/

namespace Sys2Proof.Machine

/-- The frame of a loop that opens: it starts at the bundle that fetch finds next (R85). -/
def State.newFrame (s : State) (fin n stages : Nat) : Frame :=
  ⟨s.headAt s.cur.next (ranOff s.cur.head s.cur.next), fin, n, n, 0, stages, false⟩

theorem State.headAt_bundle {s : State} {pc h a : Nat} {atEnd : Bool} {b : Bundle} (hf : s.fetch pc atEnd = .bundle h a b) :
    s.headAt pc atEnd = h := by
  rw [State.headAt, hf]

theorem State.openLoop_of_pos {s : State} {n : Nat} (h : n ≠ 0) (stages : Nat) (disp : Int) :
    s.openLoop n stages disp =
      s.updSeq fun q => { q with frames := s.newFrame (s.relDst disp).toNat n stages :: q.frames } := if_neg h

theorem State.openLoop_zero {s : State} {stages endHead after : Nat} {disp : Int} {b : Bundle}
    (h : s.fetch (s.relDst disp).toNat false = .bundle endHead after b) :
    s.openLoop 0 stages disp = s.finishWith after (ranOff endHead after) := by
  unfold State.openLoop
  rw [if_pos rfl, h]

/-! The END step (R85, R88, R89). -/

theorem Gang.drainKind_none {g : Gang} (h : g.drain = .none) : g.drainKind = .none := by rw [Gang.drainKind, h]

theorem Gang.drainKind_preempt {g : Gang} {since : Nat} {live : Bool} (h : g.drain = .preempt since live) :
    g.drainKind = .keep := by rw [Gang.drainKind, h]

section endStep

variable {f : Frame} {fs : List Frame} {next : Nat} (hcopied : f.copied = false)
include hcopied

/-- The END step of a frame that makes it. -/
theorem loopEnd_here (d : DrainKind) : loopEnd f.fin d next (f :: fs) =
    let neff := if d = .none then f.neff else min f.neff (f.j + 1)
    let left : Frame := { f with n := f.n - neff, neff := f.n - neff, j := 0 }
    if neff + f.s ≤ f.j + 2 then
      match d with
      | .discard => ([], next, true)
      | .keep => (left :: fs, if f.n = neff then next else f.start, true)
      | .none => if neff < f.n then (left :: fs, f.start, false) else loopEnd f.fin d next fs
    else ({ f with neff := neff, j := f.j + 1 } :: fs, f.start, false) := by
  rw [loopEnd]
  exact if_neg (by simp [hcopied])

/-- Passes are left (R85). -/
theorem loopEnd_again (h : f.j + 2 < f.neff + f.s) :
    loopEnd f.fin .none next (f :: fs) = ({ f with j := f.j + 1 } :: fs, f.start, false) := by
  rw [loopEnd_here hcopied]
  exact if_neg (Nat.not_le.2 h)

/-- The last pass of a frame that no drain has cut short (R85). -/
theorem loopEnd_over (h : f.neff + f.s ≤ f.j + 2) (hneff : f.neff = f.n) :
    loopEnd f.fin .none next (f :: fs) = loopEnd f.fin .none next fs := by
  rw [loopEnd_here hcopied]
  exact (if_pos h).trans (if_neg (by simp [hneff]))

/-- Under a pre-emption passes are left of those that have begun (R88). -/
theorem loopEnd_keep_again (h : f.j + 2 < min f.neff (f.j + 1) + f.s) : loopEnd f.fin .keep next (f :: fs) =
    ({ f with neff := min f.neff (f.j + 1), j := f.j + 1 } :: fs, f.start, false) := by
  rw [loopEnd_here hcopied]
  exact if_neg (Nat.not_le.2 h)

/-- Under a pre-emption the frame exits, and is kept as what is left to restart (R89). -/
theorem loopEnd_keep_over (h : min f.neff (f.j + 1) + f.s ≤ f.j + 2) : loopEnd f.fin .keep next (f :: fs) =
    ({ f with n := f.n - min f.neff (f.j + 1), neff := f.n - min f.neff (f.j + 1), j := 0 } :: fs,
      if f.n = min f.neff (f.j + 1) then next else f.start, true) := by
  rw [loopEnd_here hcopied]
  exact if_pos h

end endStep

/-- Frames whose innermost one has its END elsewhere stay (R85). -/
theorem loopEnd_elsewhere {fs : List Frame} {head : Nat} (h : ∀ g, fs.head? = some g → g.fin ≠ head) (d : DrainKind)
    (next : Nat) : loopEnd head d next fs = (fs, next, false) := by
  cases fs with
  | nil => rfl
  | cons g fs => exact loopEnd_of_ne (h g rfl) d next

/-- While an LBRK is pending only a frame that its delay bundles have opened makes the END step (R87). -/
theorem loopAbove_elsewhere {opened fs : List Frame} {head : Nat} (h : ∀ g, opened.head? = some g → g.fin ≠ head)
    (d : DrainKind) (next : Nat) : loopAbove fs.length head d next (opened ++ fs) = (opened ++ fs, next, false) := by
  unfold loopAbove
  simp only [List.length_append, Nat.add_sub_cancel, List.take_left, List.drop_left, loopEnd_elsewhere h]
  rfl

/-! The sequencer after a bundle of USER mode that is no delay bundle's last. -/

/-- A bundle with no transfer pending leaves the frames and the address of the END step (R85). -/
theorem State.finish_seq_loop {s : State} (hmode : s.g.mode = .user) (hx : s.seq.xfer = none) :
    ∃ atEnd, s.finish.seq = s.seq.moveOn (loopEnd s.cur.head s.g.drainKind s.cur.next s.seq.frames) atEnd := by
  have hpassed : s.passed s.cur.next = loopEnd s.cur.head s.g.drainKind s.cur.next s.seq.frames := by
    rw [State.passed, Gang.inSys_of_user hmode, Seq.after, hx]
    rfl
  refine ⟨s.ranPast, ?_⟩
  rw [State.finish_of_no_xfer hx, State.doneHere_seq, State.withG_seq, State.movedOn_seq, hpassed]

/-- LBRK at its destination leaves the frame that was innermost at its issue (R87). -/
theorem Gang.complete_seq_popLoop (g : Gang) (q : Nat) {x : Xfer} {n : Nat} (fall : Nat) (fallEnd : Bool)
    (h : x.after = .popLoop n) : (g.complete q x fall fallEnd).seq q = { (g.seq q).arrive x fall fallEnd with
      frames := (g.seq q).frames.eraseIdx ((g.seq q).frames.length - n) } := by
  unfold Gang.complete
  rw [h]
  dsimp only
  rw [Gang.updSeq_seq, Gang.updSeq_seq]
  rfl

/-! The stage predicates (R85, R86). -/

/-- A number of four bits made bit by bit. -/
theorem getLsbD_four_bits : ∀ a b c d : Bool, let n₁ := if a then 0 + 2 ^ 0 else 0; let n₂ := if b then n₁ + 2 ^ 1 else n₁
    let n₃ := if c then n₂ + 2 ^ 2 else n₂; let v := BitVec.ofNat 4 (if d then n₃ + 2 ^ 3 else n₃)
    v.getLsbD 0 = a ∧ v.getLsbD 1 = b ∧ v.getLsbD 2 = c ∧ v.getLsbD 3 = d := by decide

/-- The stage predicates of a frame, as a mask holds them. -/
theorem getLsbD_stageBits (p : Nat → Bool) : ∀ k < 4,
    (BitVec.ofNat 4 ((List.range 4).foldl (fun a k => if p k then a + 2 ^ k else a) 0)).getLsbD k = p k := by
  obtain ⟨h0, h1, h2, h3⟩ := getLsbD_four_bits (p 0) (p 1) (p 2) (p 3)
  intro k hk
  match k, hk with
  | 0, _ => exact h0
  | 1, _ => exact h1
  | 2, _ => exact h2
  | 3, _ => exact h3

theorem State.stages_eq {s : State} (h : s.cur.ready = false) : s.stages = s.seq.stages := by
  rw [State.stages, h]
  rfl

theorem State.readPred_no_frame {s : State} (hready : s.cur.ready = false) (h : s.seq.frames = []) (n : BitVec 3) :
    s.readPred n = s.seq.pred n := by
  rw [State.readPred, State.stages_eq hready, Seq.stages, h]

/-- While a frame is open p1 to p3 read as they do otherwise, and p4 to p7 as its stage predicates (R86). -/
theorem State.readPred_frame {s : State} {f : Frame} {fs : List Frame} (hready : s.cur.ready = false)
    (h : s.seq.frames = f :: fs) (n : BitVec 3) :
    s.readPred n = if n.toNat < 4 then s.seq.pred n else f.sp (n.toNat - 4) := by
  rw [State.readPred, State.stages_eq hready, Seq.stages, h]
  dsimp only
  split
  · rfl
  · exact getLsbD_stageBits f.sp _ (by omega)

end Sys2Proof.Machine

open Sys2Proof Sys2Proof.Machine

/-- Settles O10: the frame at issue, each outcome of the END step, LBRK at its destination, and the stage predicates. -/
theorem loops : Obligations.Loops := by
  unfold Obligations.Loops
  intro x y z s endHead after b N fin fin' dst u opens
  refine ⟨fun h hn => ?loop, fun h hn hf => ?loopNone, fun h hn => ?loopi, fun h hn hf => ?loopiNone, fun h ht => ?lbrk,
    fun h ht => ?lbrkNot, ?popped, ?ended, fun hready => ⟨fun hf n => ?noFrame, fun f fs hf => ⟨fun n hn => ?ordinary,
      fun k hk => ?stage⟩⟩⟩
  case loop =>
    refine ⟨_, ?_, fun _ _ _ hf => State.headAt_bundle hf⟩
    show Host.Outcome.next (s.run _ _) = _
    rw [State.run_S h rfl nofun nofun]
    exact congrArg _ (State.openLoop_of_pos hn _ _)
  case loopNone =>
    show Host.Outcome.next (s.run _ _) = _
    rw [State.run_S h rfl nofun nofun]
    exact congrArg _ ((congrArg (fun n => s.openLoop n _ _) hn).trans (State.openLoop_zero hf))
  case loopi =>
    refine ⟨_, ?_, fun _ _ _ hf => State.headAt_bundle hf⟩
    show Host.Outcome.next (s.run _ _) = _
    rw [State.run_S h rfl nofun nofun]
    exact congrArg _ (State.openLoop_of_pos (fun h0 => hn (BitVec.eq_of_toNat_eq h0)) _ _)
  case loopiNone =>
    show Host.Outcome.next (s.run _ _) = _
    rw [State.run_S h rfl nofun nofun, hn]
    exact congrArg _ (State.openLoop_zero hf)
  case lbrk =>
    show Host.Outcome.next (s.runTransfer _ _) = _
    rw [State.runTransfer_S h rfl nofun nofun, State.sbTaken_iff.2 ht]
    rfl
  case lbrkNot =>
    show Host.Outcome.next (s.runTransfer _ _) = _
    rw [State.runTransfer_S h rfl nofun nofun, Bool.eq_false_iff.2 (mt State.sbTaken_iff.1 (not_not.2 ht))]
    rfl
  case popped =>
    intro d opened f fs hx hdelay hmode hframes hopened
    have hpassed : s.passed s.cur.next = (opened ++ f :: fs, s.cur.next, false) := by
      rw [State.passed, Gang.inSys_of_user hmode, Seq.after, hx, hframes]
      exact loopAbove_elsewhere hopened ..
    simp only [u]
    rw [State.finish_of_last hx hdelay le_rfl, State.doneHere_seq, State.withG_seq,
      Gang.complete_seq_popLoop (n := fs.length + 1) _ _ _ _ rfl, State.movedOn_seq, hpassed]
    refine ⟨?_, rfl, rfl⟩
    simp [Seq.moveOn, List.eraseIdx_append_of_length_le]
  case ended =>
    intro f fs hmode hx hframes hcopied
    obtain ⟨atEnd, hu⟩ := State.finish_seq_loop hmode hx
    simp only [u, hu, hframes]
    refine ⟨fun hfin => ?_, fun hfin hdrain hneff => ⟨fun hleft => ?_, fun hover hothers => ?_⟩,
      fun hfin since live hdrain => ⟨fun hleft => ?_, fun hover => ?_⟩⟩
    · rw [loopEnd_of_ne hfin]
      exact ⟨rfl, rfl⟩
    · rw [Gang.drainKind_none hdrain, ← hfin, loopEnd_again hcopied (by omega)]
      exact ⟨rfl, rfl⟩
    · rw [Gang.drainKind_none hdrain, ← hfin, loopEnd_over hcopied (by omega) hneff,
        loopEnd_elsewhere fun g hg => hfin ▸ hothers g (List.mem_of_mem_head? hg)]
      exact ⟨rfl, rfl⟩
    · rw [Gang.drainKind_preempt hdrain, ← hfin, loopEnd_keep_again hcopied (by omega)]
      exact ⟨rfl, rfl, Bool.or_false _⟩
    · rw [Gang.drainKind_preempt hdrain, ← hfin, loopEnd_keep_over hcopied (by omega)]
      exact ⟨Bool.or_true _, rfl⟩
  case noFrame => exact State.readPred_no_frame hready hf n
  case ordinary => rw [State.readPred_frame hready hf, if_pos hn]
  case stage =>
    have hk' : (BitVec.ofNat 3 (4 + k)).toNat = 4 + k := by simp; omega
    rw [State.readPred_frame hready hf, hk', if_neg (by omega), Nat.add_sub_cancel_left, Frame.sp]
    simp [Bool.decide_and, Bool.and_assoc]

end

section
/-! The order of launches and of victims (R289, R290, R292): each is the order of a key in which the first component that
differs decides. -/

namespace Sys2Proof.Machine

/-- One component of such an order. -/
theorem ite_ne_eq_true {α : Type} {x y : α} [Decidable (x ≠ y)] {p q : Bool} (h : p = true → x ≠ y) :
    (if x ≠ y then p else q) = true ↔ p = true ∨ x = y ∧ q = true := by
  by_cases hxy : x = y
  · have hp : p = false := Bool.eq_false_iff.2 fun hp => h hp hxy
    simp [hxy, hp]
  · simp [hxy]

/-- A missing slack is infinite (R290). -/
theorem slackLt_iff {x y : Option Int} : slackLt x y = true ↔ ∃ i, x = some i ∧ ∀ j, y = some j → i < j := by
  cases x <;> cases y <;> simp [slackLt]

theorem slackLt_iff_lt {x y : Option Int} : slackLt x y = true ↔ (show WithTop ℤ from x) < (show WithTop ℤ from y) :=
  slackLt_iff.trans WithTop.lt_iff_exists.symm

theorem slackLt_ne {x y : Option Int} (h : slackLt x y = true) : x ≠ y := by
  rintro rfl
  exact lt_irrefl _ (slackLt_iff_lt.1 h)

/-- R289's order, component by component. -/
theorem Rank.before_iff (a b : Rank) : a.before b = true ↔ a.cls < b.cls ∨ a.cls = b.cls ∧
    (slackLt a.slack b.slack = true ∨ a.slack = b.slack ∧
      (a.admitted < b.admitted ∨ a.admitted = b.admitted ∧ (a.home < b.home ∨ a.home = b.home ∧
        (a.rl < b.rl ∨ a.rl = b.rl ∧ a.order < b.order)))) := by
  have hne {x y : Nat} (h : decide (x < y) = true) : x ≠ y := (of_decide_eq_true h).ne
  unfold Rank.before
  rw [ite_ne_eq_true hne, ite_ne_eq_true slackLt_ne, ite_ne_eq_true hne, ite_ne_eq_true hne, ite_ne_eq_true hne]
  simp only [decide_eq_true_eq]

/-- The components of a rank, of which the first that differs decides. -/
def Rank.key (r : Rank) : ℕ ×ₗ WithTop ℤ ×ₗ ℕ ×ₗ ℕ ×ₗ ℕ ×ₗ ℕ :=
  toLex (r.cls, toLex (show WithTop ℤ from r.slack, toLex (r.admitted, toLex (r.home, toLex (r.rl, r.order)))))

theorem Rank.before_iff_key {a b : Rank} : a.before b = true ↔ a.key < b.key := by
  rw [Rank.before_iff, slackLt_iff_lt]
  simp only [Rank.key, Prod.Lex.toLex_lt_toLex]
  rfl

theorem Rank.before_eq_false {a b : Rank} : a.before b = false ↔ b.key ≤ a.key := by
  rw [← Bool.not_eq_true, Rank.before_iff_key, not_lt]

/-- The slack of a context's launch, none for infinite. -/
def State.slackOf (s : State) (now : Nat) (g : Gang) : Option Int :=
  ((s.launch g.info.lid).map fun l => l.slack now).getD none

theorem State.slackOf_eq {s : State} {g : Gang} {l : Launch} (h : s.launch g.info.lid = some l) (now : Nat) :
    s.slackOf now g = l.slack now := by
  rw [State.slackOf, h]
  rfl

/-- R292's order of victims, component by component. -/
theorem State.worse_iff (s : State) (now : Nat) (a b : Gang) : s.worse now a b = true ↔
    b.info.cls < a.info.cls ∨ a.info.cls = b.info.cls ∧ (slackLt (s.slackOf now b) (s.slackOf now a) = true ∨
      s.slackOf now a = s.slackOf now b ∧ b.gid < a.gid) := by
  have hworse : s.worse now a b = if a.info.cls ≠ b.info.cls then decide (b.info.cls < a.info.cls)
      else if s.slackOf now a ≠ s.slackOf now b then slackLt (s.slackOf now b) (s.slackOf now a)
      else decide (b.gid < a.gid) := rfl
  rw [hworse, ite_ne_eq_true fun h => (of_decide_eq_true h).ne', ite_ne_eq_true fun h => (slackLt_ne h).symm]
  simp only [decide_eq_true_eq]

/-- The components of a context by which it is a victim. -/
def State.victimKey (s : State) (now : Nat) (g : Gang) : ℕ ×ₗ WithTop ℤ ×ₗ ℕ :=
  toLex (g.info.cls, toLex (show WithTop ℤ from s.slackOf now g, g.gid))

theorem State.worse_iff_key {s : State} {now : Nat} {a b : Gang} :
    s.worse now a b = true ↔ s.victimKey now b < s.victimKey now a := by
  rw [State.worse_iff, slackLt_iff_lt]
  simp only [State.victimKey, Prod.Lex.toLex_lt_toLex, eq_comm (a := a.info.cls), eq_comm (a := s.slackOf now a)]
  rfl

/-! Slack, as R290 tables it. -/

theorem Launch.slack_none {l : Launch} (h : l.info.dline = false) (now : Nat) : l.slack now = none := by
  rw [Launch.slack, h]
  rfl

/-- With a deadline, slack is what the time to it leaves beside the work to come. -/
theorem Launch.slack_dline {l : Launch} (h : l.info.dline = true) (now : Nat) : l.slack now =
    some ((l.info.deadline : Int) - now - (if l.progress = 0 then (l.est : Int) * l.unitNs
      else if l.est ≤ l.progress then 0
      else ((l.est - l.progress : Nat) * ((now : Int) - (l.t0.getD now : Nat))).tdiv l.progress)) := by
  rw [Launch.slack, h]
  rfl

/-! Lists sorted by an order of keys, and the element of a list with the greatest key. -/

theorem insertBy_eq {α : Type} (le : α → α → Bool) (a : α) :
    ∀ l : List α, insertBy le a l = l.orderedInsert (fun a b => le a b = true) a
  | [] => rfl
  | b :: l => by rw [insertBy, List.orderedInsert_cons, insertBy_eq le a l]

theorem sortBy_eq {α : Type} (le : α → α → Bool) :
    ∀ l : List α, sortBy le l = l.insertionSort fun a b => le a b = true
  | [] => rfl
  | a :: l => by
    rw [List.insertionSort_cons, ← sortBy_eq le l, ← insertBy_eq]
    rfl

theorem mem_ranked {now : Nat} {ls : List Launch} {l : Launch} : l ∈ ranked now ls ↔ l ∈ ls := by
  rw [ranked, sortBy_eq, List.mem_insertionSort]

/-- Launches in rank order: none comes before an earlier one. -/
theorem ranked_pairwise (now : Nat) (ls : List Launch) :
    (ranked now ls).Pairwise fun a b => (b.rank now).before (a.rank now) = false := by
  have hle (a b : Launch) : ((a.rank now).before (b.rank now) || !(b.rank now).before (a.rank now)) = true ↔
      (a.rank now).key ≤ (b.rank now).key := by
    rw [Bool.or_eq_true, Bool.not_eq_true', Rank.before_iff_key, Rank.before_eq_false]
    exact or_iff_right_of_imp le_of_lt
  have htotal : Std.Total fun a b : Launch =>
      ((a.rank now).before (b.rank now) || !(b.rank now).before (a.rank now)) = true :=
    ⟨fun a b => by rw [hle, hle]; exact le_total _ _⟩
  have htrans : IsTrans Launch fun a b =>
      ((a.rank now).before (b.rank now) || !(b.rank now).before (a.rank now)) = true :=
    ⟨fun a b c => by rw [hle, hle, hle]; exact le_trans⟩
  rw [ranked, sortBy_eq]
  exact (List.pairwise_insertionSort _ ls).imp fun h => Rank.before_eq_false.2 ((hle _ _).1 h)

/-- A step of a search for the element that beats the one found so far. -/
def better {α : Type} (beats : α → α → Bool) (best : Option α) (x : α) : Option α :=
  match best with
  | none => some x
  | some y => if beats x y then some x else some y

/-- A search by an order of keys finds the first element with the greatest key. -/
theorem foldl_better_eq_argmax {α β : Type} [LinearOrder β] {beats : α → α → Bool} {key : α → β}
    (h : ∀ x y, beats x y = true ↔ key y < key x) (l : List α) : l.foldl (better beats) none = l.argmax key := by
  have hstep : better beats = List.argAux fun b c => key c < key b := by
    funext best x
    cases best with
    | none => rfl
    | some y => exact if_congr (h x y) rfl rfl
  rw [hstep]
  rfl

end Sys2Proof.Machine
end

section
/-! What a die does for its candidates: a place, a pre-emption, or nothing (R289, R292). -/

namespace Sys2Proof.Machine

section
variable {s : State} {die : Nat}

theorem State.mem_candidates {l : Launch} : l ∈ s.candidates die ↔ l ∈ s.launches ∧
    (s.readyLaunch l = true ∨ ∃ g ∈ s.gangs, g.info.lid = l.info.lid ∧ g.away = true) := by
  simp only [State.candidates, mem_ranked, List.mem_filter, Bool.or_eq_true, List.any_eq_true, Bool.and_eq_true, beq_iff_eq]

/-- The first candidate that fits ranks before every ready launch that fits (R289). -/
theorem State.firstFit_spec {l : Launch} {sp : Nat × Nat} (h : s.firstFit die = some (l, sp)) :
    l ∈ s.launches ∧ s.spaceFor die l.info = some sp ∧ ∀ x ∈ s.launches, s.readyLaunch x = true →
      (s.spaceFor die x.info).isSome = true → (x.rank (s.now die)).before (l.rank (s.now die)) = false := by
  obtain ⟨pre, l', post, hlist, hfit, hpre⟩ := List.findSome?_eq_some_iff.1 h
  obtain ⟨sp', hspace, heq⟩ := Option.map_eq_some_iff.1 hfit
  obtain ⟨rfl, rfl⟩ := Prod.mk.inj heq
  have hmem : l' ∈ s.candidates die := hlist ▸ List.mem_append_right _ (List.mem_cons_self ..)
  refine ⟨(State.mem_candidates.1 hmem).1, hspace, fun x hx hready hfits => ?_⟩
  have hx' : x ∈ pre ++ l' :: post := hlist ▸ State.mem_candidates.2 ⟨hx, .inl hready⟩
  rcases List.mem_append.1 hx' with hpost | hpost
  · rw [Option.map_eq_none_iff.1 (hpre x hpost)] at hfits
    cases hfits
  · rcases List.mem_cons.1 hpost with rfl | hpost
    · exact Rank.before_eq_false.2 le_rfl
    · have hsorted := ranked_pairwise (s.now die) (s.launches.filter fun l =>
        s.readyLaunch l || s.gangs.any fun g => g.info.lid == l.info.lid && g.away)
      rw [show ranked _ _ = pre ++ l' :: post from hlist] at hsorted
      exact List.rel_of_pairwise_cons (List.pairwise_append.1 hsorted).2.1 hpost

theorem State.placeOne_of_space {l : Launch} {sp : Nat × Nat} (h : s.spaceFor die l.info = some sp) :
    s.placeOne die l = some (if s.readyLaunch l then s.startInstance die l sp else s) := by
  rw [State.placeOne, h]

theorem State.placeOne_of_full {l : Launch} (h : s.spaceFor die l.info = none) :
    s.placeOne die l = if s.readyLaunch l then s.preempt die l.info else none := by
  rw [State.placeOne, h]

theorem State.placeOne_eq_none {l : Launch} : s.placeOne die l = none ↔
    s.spaceFor die l.info = none ∧ (s.readyLaunch l = false ∨ s.preempt die l.info = none) := by
  cases h : s.spaceFor die l.info with
  | some sp => simp [State.placeOne_of_space h]
  | none =>
    rw [State.placeOne_of_full h]
    cases s.readyLaunch l <;> simp

theorem execInstancePlace_of_on (h : s.refereeOn die = true) :
    execInstancePlace die s = .next (((s.candidates die).findSome? (s.placeOne die)).getD s) := by
  rw [execInstancePlace, h]
  rfl

/-- The die does for the first candidate for which it can do something what it does for that one (R289, R292). -/
theorem execInstancePlace_at {pre post : List Launch} {l : Launch} {t : State} (hon : s.refereeOn die = true)
    (hlist : s.candidates die = pre ++ l :: post) (hpre : ∀ x ∈ pre, s.placeOne die x = none)
    (h : s.placeOne die l = some t) : execInstancePlace die s = .next t := by
  rw [execInstancePlace_of_on hon, List.findSome?_eq_some_iff.2 ⟨pre, l, post, hlist, h, hpre⟩]
  rfl

theorem execInstancePlace_none (hon : s.refereeOn die = true) (h : ∀ l ∈ s.candidates die, s.placeOne die l = none) :
    execInstancePlace die s = .next s := by
  rw [execInstancePlace_of_on hon, List.findSome?_eq_none_iff.2 h]
  rfl

end

/-! Victims (R292). -/

section
variable {s : State} {die : Nat} {i : LInfo}

/-- A context that a pre-emption for a class may have drain: it runs on the die, of a lower class, on a slot that the
pre-emptor fits once those that run there have drained. -/
def State.CanYield (s : State) (die : Nat) (i : LInfo) (g : Gang) : Prop :=
  g.place.running = true ∧ g.place.die = die ∧ i.cls < g.info.cls ∧ (s.die die).slotOn g.place.slot = true ∧
  (if i.width = 16 then (s.die die).halfFull g.place.slot 0 && (s.die die).halfFull g.place.slot 1
    else (s.die die).halfFull g.place.slot 0 || (s.die die).halfFull g.place.slot 1) = true ∧
  ∀ x ∈ s.onSlot die g.place.slot, if x.place.running = true then x.victim = true else x.blocks (i.cls == 0) = false

/-- Those contexts, by the model's test. -/
def State.victims (s : State) (die : Nat) (i : LInfo) : List Gang :=
  s.gangs.filter fun g =>
    g.place.running && g.place.die == die && decide (i.cls < g.info.cls)
      && ((s.die die).slotOn g.place.slot && if i.width = 16 then (s.die die).halfFull g.place.slot 0 &&
        (s.die die).halfFull g.place.slot 1 else (s.die die).halfFull g.place.slot 0 || (s.die die).halfFull g.place.slot 1)
      && !(s.onSlot die g.place.slot).any (fun x => !x.place.running && x.blocks (i.cls == 0))
      && (s.onSlot die g.place.slot).all fun x => x.victim || !x.place.running

/-- On a slot nothing that stays keeps the pre-emptor out, and all that runs can be asked to drain. -/
theorem slotYields_iff {on : List Gang} {live : Bool} :
    ((!on.any fun x => !x.place.running && x.blocks live) = true ∧ (on.all fun x => x.victim || !x.place.running) = true) ↔
      ∀ x ∈ on, if x.place.running = true then x.victim = true else x.blocks live = false := by
  rw [Bool.not_eq_true', List.any_eq_false, List.all_eq_true, ← forall₂_and]
  refine forall₂_congr fun x _ => ?_
  cases x.place.running <;> simp

theorem State.mem_victims {g : Gang} : g ∈ s.victims die i ↔ g ∈ s.gangs ∧ s.CanYield die i g := by
  simp only [State.victims, List.mem_filter, Bool.and_eq_true, beq_iff_eq, decide_eq_true_eq, State.CanYield, and_assoc,
    ← slotYields_iff]

theorem State.victimFor_eq : s.victimFor die i = (s.victims die i).argmax (s.victimKey (s.now die)) := by
  rw [← foldl_better_eq_argmax (beats := s.worse (s.now die)) fun _ _ => State.worse_iff_key]
  exact List.foldl_ext _ _ _ fun best _ _ => by cases best <;> rfl

theorem State.victimFor_none (h : s.victimFor die i = none) (g : Gang) (hg : g ∈ s.gangs) : ¬s.CanYield die i g := by
  rw [State.victimFor_eq, List.argmax_eq_none] at h
  intro hcan
  have hmem := State.mem_victims.2 ⟨hg, hcan⟩
  rw [h] at hmem
  cases hmem

/-- The victim is one of those contexts, and none of them comes before it (R292). -/
theorem State.victimFor_some {v : Gang} (h : s.victimFor die i = some v) :
    v ∈ s.gangs ∧ s.CanYield die i v ∧ ∀ g ∈ s.gangs, s.CanYield die i g → s.worse (s.now die) g v = false := by
  rw [State.victimFor_eq] at h
  obtain ⟨hv, hcan⟩ := State.mem_victims.1 (List.argmax_mem h)
  refine ⟨hv, hcan, fun g hg hgcan => ?_⟩
  rw [← Bool.not_eq_true, State.worse_iff_key]
  exact List.not_lt_of_mem_argmax (State.mem_victims.2 ⟨hg, hgcan⟩) h

/-- The contexts that run on the victim's slot. -/
def State.mates (s : State) (die : Nat) (v : Gang) : List Gang := (s.onSlot die v.place.slot).filter (·.place.running)

theorem State.preempt_of_victim {v : Gang} (h : s.victimFor die i = some v) : s.preempt die i =
    if s.preempting die ∨ (i.cls ≠ 0 ∧ s.spillRoom die < (s.mates die v).length) then none
    else some (s.mapGangs fun g =>
      if (s.mates die v).any (·.gid == g.gid) then g.askPreempt (s.now die) (i.cls == 0) else g) := by
  rw [State.preempt, h]
  rfl

theorem State.preempt_none (h : s.preempting die = true ∨ s.victimFor die i = none) : s.preempt die i = none := by
  cases hv : s.victimFor die i with
  | none => rw [State.preempt, hv]
  | some v => rw [State.preempt_of_victim hv, if_pos (.inl (h.resolve_right (by simp [hv])))]

end

end Sys2Proof.Machine
end

section
/-! A launch's next gang: its place, its scratchpads, and the launch's count (R20, R132, R289). -/

namespace Sys2Proof.Machine

/-- An address that nothing is listed for reads as 0. -/
theorem Memory.get_of_not_listed {a : Nat} : ∀ {m : Memory}, (∀ c ∈ m, c.1 ≠ a) → m.get a = 0
  | [], _ => rfl
  | c :: m, h => by
    rw [Memory.get, if_neg (h c (List.mem_cons_self ..))]
    split
    · rfl
    · exact Memory.get_of_not_listed fun x hx => h x (List.mem_cons_of_mem _ hx)

/-- What is listed after runs of bytes have been cleared lies in none of them. -/
theorem Memory.not_mem_clears {c : Host.Cell} : ∀ {rs : List (Nat × Nat)} {m : Memory},
    c ∈ rs.foldl (fun m r => m.clear r.1 r.2) m → c ∈ m ∧ ∀ r ∈ rs, ¬(r.1 ≤ c.1 ∧ c.1 < r.1 + r.2)
  | [], _, h => ⟨h, nofun⟩
  | r :: rs, m, h => by
    obtain ⟨hclear, hrest⟩ := Memory.not_mem_clears (rs := rs) h
    obtain ⟨hm, hout⟩ := List.mem_filter.1 hclear
    rw [Bool.or_eq_true, decide_eq_true_eq, decide_eq_true_eq] at hout
    exact ⟨hm, List.forall_mem_cons.2 ⟨by omega, hrest⟩⟩

/-- A byte of a run that has been cleared reads as 0, whatever else has been cleared. -/
theorem Memory.get_clears {rs : List (Nat × Nat)} {r : Nat × Nat} (hr : r ∈ rs) (m : Memory) {k : Nat} (hk : k < r.2) :
    (rs.foldl (fun m r => m.clear r.1 r.2) m).get (r.1 + k) = 0 := by
  refine Memory.get_of_not_listed fun c hc heq => ?_
  obtain ⟨-, hout⟩ := Memory.not_mem_clears hc
  exact hout r hr (by omega)

section
variable (s : State) (die slot half : Nat) (i : LInfo)

/-- Clearing a region changes memory and what is not published, and nothing else. -/
theorem State.clearRegion_same {α : Type} (p : State → α) (hsettle : ∀ (s : State) (k n : Nat), p (s.settle k n) = p s)
    (hmem : ∀ (s : State) (m : Memory), p { s with mem := m } = p s) : p (s.clearRegion die slot half i) = p s :=
  (State.foldl_same p _ (fun s _ => hmem s _) _ _).trans (State.foldl_same p _ (fun s _ => hsettle s _ _) _ s)

@[simp] theorem State.clearRegion_launches : (s.clearRegion die slot half i).launches = s.launches :=
  s.clearRegion_same die slot half i (·.launches) (fun _ _ _ => rfl) fun _ _ => rfl

@[simp] theorem State.clearRegion_dies : (s.clearRegion die slot half i).dies = s.dies :=
  s.clearRegion_same die slot half i (·.dies) (fun _ _ _ => rfl) fun _ _ => rfl

theorem State.clears_mem : ∀ (rs : List (Nat × Nat)) (s : State),
    (rs.foldl (fun s x => { s with mem := s.mem.clear x.1 x.2 }) s).mem = rs.foldl (fun m r => m.clear r.1 r.2) s.mem
  | [], _ => rfl
  | _ :: rs, _ => State.clears_mem rs _

theorem State.settleRegion_mem : (s.settleRegion die slot half i).mem = s.mem :=
  State.foldl_same (·.mem) (fun s (x : Nat × Nat) => s.settle x.1 x.2) (fun _ _ => rfl) _ s

theorem State.clearRegion_mem : (s.clearRegion die slot half i).mem =
    (i.regions die slot half).foldl (fun m r => m.clear r.1 r.2) s.mem := by
  rw [State.clearRegion, State.clears_mem, State.settleRegion_mem]

/-- The scratchpads of a region that has been cleared read as 0 (R132). -/
theorem State.clearRegion_get {e k : Nat} (he : e < i.width) (hk : k < if i.cls = 0 then 2 ^ 18 else 3 * 2 ^ 18) :
    (s.clearRegion die slot half i).mem.get (windowKey die slot ((if i.width = 8 then 8 * half else 0) + e)
      ((if i.cls = 0 then 3 * 2 ^ 18 else 0) + k)) = 0 := by
  have hmem : (windowKey die slot ((if i.width = 8 then 8 * half else 0) + e) (if i.cls = 0 then 0xC_0000 else 0),
      if i.cls = 0 then 262144 else 786432) ∈ i.regions die slot half :=
    List.mem_map.2 ⟨e, List.mem_range.2 he, rfl⟩
  have hlen : k < (if i.cls = 0 then 262144 else 786432) := hk
  rw [State.clearRegion_mem, show windowKey die slot _ _ = _ from (Nat.add_assoc ..).symm]
  exact Memory.get_clears hmem s.mem hlen

end

/-- The machine as the next gang of a launch is about to start: its number is taken, its scratchpads are cleared, and its launch
counts it. -/
def State.readied (s : State) (die : Nat) (l : Launch) (sp : Nat × Nat) : State :=
  (State.clearRegion { s with tkt := s.tkt + 1 } die sp.1 sp.2 l.info).updLaunch l.info.lid fun x =>
    { x with taken := x.taken + 1, t0 := x.t0.orElse fun _ => some (s.now die) }

section
variable (s : State) (die : Nat) (l : Launch) (sp : Nat × Nat)

theorem State.readied_die : (s.readied die l sp).die die = s.die die := by
  rw [State.die, State.readied, State.updLaunch_dies, State.clearRegion_dies]
  rfl

theorem State.startInstance_eq : s.startInstance die l sp =
    ((s.readied die l sp).takeOver die sp.1 (l.info.cls == 0)).addGang
      { newGang l.info s.tkt l.taken die sp.1 sp.2 (s.readied die l sp).topTime with
        slowed := (s.die die).health.span } := by
  rw [← State.readied_die s die l sp]
  rfl

theorem State.takeOver_mem (n : Nat) (live : Bool) : (s.takeOver die n live).mem = s.mem := by
  unfold State.takeOver
  split <;> rfl

theorem State.takeOver_launches (n : Nat) (live : Bool) : (s.takeOver die n live).launches = s.launches := by
  unfold State.takeOver
  split <;> rfl

theorem State.addGang_mem (g : Gang) : (s.addGang g).mem = s.mem := by
  unfold State.addGang
  split <;> rfl

theorem State.addGang_launches (g : Gang) : (s.addGang g).launches = s.launches := by
  unfold State.addGang
  split <;> rfl

theorem State.mem_addGang (g : Gang) : g ∈ (s.addGang g).gangs := by
  unfold State.addGang State.gangs
  split <;> simp

theorem State.startInstance_mem : (s.startInstance die l sp).mem = (s.clearRegion die sp.1 sp.2 l.info).mem := by
  rw [State.startInstance_eq, State.addGang_mem, State.takeOver_mem, State.readied, State.updLaunch_mem,
    State.clearRegion_mem, State.clearRegion_mem]

/-- The launch has one more of its gangs taken. -/
theorem State.startInstance_counts {x : Launch} (hx : x ∈ s.launches) (hlid : x.info.lid = l.info.lid) :
    ∃ y ∈ (s.startInstance die l sp).launches, y.info = x.info ∧ y.taken = x.taken + 1 := by
  rw [State.startInstance_eq, State.addGang_launches, State.takeOver_launches, State.readied, State.updLaunch,
    State.clearRegion_launches]
  exact ⟨_, List.mem_map_of_mem hx, by rw [if_pos hlid], by rw [if_pos hlid]⟩

/-- The new context is the launch's next gang, on its place, with the die's stretching behind it. -/
theorem State.startInstance_gang : ∃ x ∈ (s.startInstance die l sp).gangs, x =
    { newGang l.info s.tkt l.taken die sp.1 sp.2 0 with
      slowed := (s.die die).health.span
      q0 := { (newGang l.info s.tkt l.taken die sp.1 sp.2 0).q0 with pts := x.q0.pts } } := by
  rw [State.startInstance_eq]
  exact ⟨_, State.mem_addGang _ _, rfl⟩

end

/-- The coordinates of a gang give its number back (R20). -/
theorem LInfo.coords_number (i : LInfo) (k : Nat) : let c := i.coords k
    c.1 + i.nx * (c.2.1 + i.ny * (c.2.2.1 + i.nz * c.2.2.2)) = k := by
  simp only [LInfo.coords, ← Nat.div_div_eq_div_mul, Nat.mod_add_div]

end Sys2Proof.Machine
end

section
/-! The end of a gang's work (R99, R285), and what agents that write memory through a partition leave alone (R372). -/

namespace Sys2Proof.Machine

/-! Publication keeps the launches. -/

@[simp] theorem State.publishLines_launches (s : State) (p : Nat) (ls : List Nat) :
    (s.publishLines p ls).1.launches = s.launches := State.writeLines_launches _ _

@[simp] theorem State.notifyRange_launches (s : State) (k n : Nat) : (s.notifyRange k n).launches = s.launches :=
  State.notifyAll_launches _ _

theorem State.noteBars_launches (s : State) (bs : List Nat) (t : Nat) : (s.noteBars bs t).launches = s.launches := by
  unfold State.noteBars
  split
  · rfl
  · refine State.foldl_same (·.launches) _ ?_ _ _
    intro _ _
    rfl

theorem State.publish_launches (s : State) (c p : Nat) (f : Wrote → Bool) (own : Bool) :
    (s.publish c p f own).1.launches = s.launches := by
  unfold State.publish
  split
  · rfl
  · dsimp only
    split
    · refine (State.foldl_same (·.launches) _ (fun _ _ => State.notifyRange_launches _ _ _) _ _).trans ?_
      exact (State.noteBars_launches _ _ _).trans (State.publishLines_launches _ _ _)
    · exact (State.noteBars_launches _ _ _).trans (State.publishLines_launches _ _ _)

theorem State.publishAll_launches (s : State) (c q : Nat) : (s.publishAll c q).launches = s.launches :=
  s.publish_launches _ _ _ _

/-- A part of the machine that focus and f leave is left when f is done to one gang. -/
theorem State.withGang_same {α : Type} {p : State → α} {f : State → State} (hfocus : ∀ (s : State) (n : Nat), p (s.focus n) = p s)
    (hf : ∀ s, p (f s) = p s) (s : State) (n : Nat) : p (s.withGang n f) = p s := by
  unfold State.withGang
  dsimp only
  split
  · rw [hfocus, hf, hfocus]
  · rfl

theorem State.removeGang_mem (s : State) (gid : Nat) : (s.removeGang gid).mem = s.mem := by
  unfold State.removeGang
  split <;> [(split <;> rfl); rfl]

theorem State.removeGang_launches (s : State) (gid : Nat) : (s.removeGang gid).launches = s.launches := by
  unfold State.removeGang
  split <;> [(split <;> rfl); rfl]

/-- The machine once the copies of a gang that is over are published, its context is gone, and its launch counts it. -/
def State.ended (s : State) (g : Gang) : State :=
  ((s.withGang g.gid fun s => s.publishAll 3 0).removeGang g.gid).updLaunch g.info.lid fun l =>
    { l with arrived := l.arrived.filter (· != g.gid), tally := { l.tally with ended := l.tally.ended + 1 } }

theorem execInstanceEnd_over {s : State} {gid : Nat} {g : Gang} (hfind : s.gangs.find? (fun x => x.gid == gid) = some g)
    (hover : g.over = true) : execInstanceEnd gid s = .next
      (((List.range 4).foldl (fun t d => t.returnReserve g.info.lid d) (s.ended g)).checkLaunch g.info.lid) := by
  have hgid : g.gid = gid := by simpa using List.find?_some hfind
  subst hgid
  rw [execInstanceEnd, hfind]
  exact congrArg Host.Outcome.next (if_neg (by simp [hover]))

theorem State.ended_mem (s : State) (g : Gang) : (s.ended g).mem = s.mem := by
  rw [State.ended, State.updLaunch_mem, State.removeGang_mem]
  exact State.withGang_same (p := (·.mem)) State.focus_mem (fun s => State.publishAll_mem s _ _) s g.gid

theorem State.ended_counts {s : State} {g : Gang} {x : Launch} (hx : x ∈ s.launches) (hlid : x.info.lid = g.info.lid) :
    ∃ y ∈ (s.ended g).launches, y.info = x.info ∧ y.tally.ended = x.tally.ended + 1 := by
  have hsame : ((s.withGang g.gid fun s => s.publishAll 3 0).removeGang g.gid).launches = s.launches := by
    rw [State.removeGang_launches]
    exact State.withGang_same (p := (·.launches)) State.focus_launches (fun s => State.publishAll_launches s _ _) s g.gid
  rw [State.ended, State.updLaunch, hsame]
  exact ⟨_, List.mem_map_of_mem hx, by rw [if_pos hlid], by rw [if_pos hlid]⟩

/-! Agents (R372). -/

/-- An address that an agent uses leaves its translation in the die's shared TLB. -/
theorem State.agentUse_state {s t : State} {die part va pa : Nat} {acc : Acc} (h : s.agentUse die part va acc = .ok (t, pa)) :
    t = s.noteUse die part [(va, acc)] := by
  rw [State.agentUse] at h
  cases haddr : s.agentAddr die part va acc with
  | error e =>
    rw [haddr] at h
    cases h
  | ok a =>
    rw [haddr] at h
    exact (Prod.mk.inj (Except.ok.inj h)).1.symm

/-- A part of the machine that an agent leaves alone which writes memory or fills a shared TLB. -/
structure AgentLeaves {α : Type} (p : State → α) : Prop where
  fill : ∀ (s : State) (d : Nat) (e : TlbEnt), p (s.fillShared d e) = p s
  write : ∀ (s : State) (k : Nat) (bs : List Byte), p (s.agentWrite k bs) = p s

/-- One that a Referee leaves alone too which changes a line's pins or a residency slot. -/
structure ReleaseLeaves {α : Type} (p : State → α) : Prop extends AgentLeaves p where
  line : ∀ (s : State) (l : LineInfo), p (s.setLine l) = p s
  res : ∀ (s : State) (d n : Nat) (f : ResSlot → ResSlot), p (s.updRes d n f) = p s

theorem ReleaseLeaves.launches : ReleaseLeaves (·.launches) where
  fill _ _ _ := rfl
  write := State.agentWrite_launches
  line _ _ := rfl
  res _ _ _ _ := rfl

/-- What a die holds beside its shared TLB. -/
theorem AgentLeaves.die {α : Type} {p : Die → α} (h : ∀ (d : Die) (l : List TlbEnt), p { d with tlb := l } = p d) (n : Nat) :
    AgentLeaves fun s => p (s.die n) where
  fill s d e := State.die_updDie_of p (f := fun x => { x with tlb := tlbKeep 16384 e x.tlb }) (fun _ => h _ _) s d n
  write s k bs := by rw [State.die, State.agentWrite_dies]; rfl

theorem ReleaseLeaves.windows (n : Nat) : ReleaseLeaves fun s => (s.die n).windows where
  toAgentLeaves := AgentLeaves.die (p := (·.windows)) (fun _ _ => rfl) n
  line _ _ := rfl
  res s d m f := State.die_updDie_of (·.windows) (f := fun x => { x with ref := { x.ref with res := updAt m f x.ref.res } })
    (fun _ => rfl) s d n

section
variable {α : Type} {p : State → α} (hp : AgentLeaves p) (s : State) (die part : Nat)
include hp

theorem AgentLeaves.noteUse (l : List (Nat × Acc)) : p (s.noteUse die part l) = p s :=
  State.noteUse_same p hp.fill s die part l

theorem AgentLeaves.agentPut : ∀ (l : List (Nat × Nat)) (bs : List Byte) (s : State), p (s.agentPut bs l) = p s
  | [], _, _ => rfl
  | _ :: l, _, s => (AgentLeaves.agentPut l _ _).trans (hp.write s _ _)

theorem AgentLeaves.agentStore {va : Nat} {bs : List Byte} {t : State} (h : s.agentStore die part va bs = .ok t) :
    p t = p s := by
  rw [State.agentStore] at h
  cases hspan : s.agentSpan die part va bs.length 1 with
  | error e =>
    rw [hspan] at h
    cases h
  | ok l =>
    rw [hspan] at h
    obtain rfl := Except.ok.inj h
    exact (hp.agentPut l bs _).trans (hp.noteUse s die part _)

theorem AgentLeaves.setAdapt (h off n v : Nat) : p (s.setAdapt die part h off n v) = p s := by
  unfold State.setAdapt
  split
  · rename_i t ht
    exact hp.agentStore s die part ht
  · rfl

theorem AgentLeaves.bumpCount (h : Nat) (f : Nat → Nat) : p (s.bumpCount die part h f) = p s := by
  unfold State.bumpCount
  split
  · exact hp.setAdapt s die part _ _ _ _
  · rfl

theorem AgentLeaves.agentUse {va : Nat} {acc : Acc} {t : State} {pa : Nat} (h : s.agentUse die part va acc = .ok (t, pa)) :
    p t = p s := by
  rw [State.agentUse_state h]
  exact hp.noteUse s die part _

theorem AgentLeaves.signalAt (va : Nat) (f : Nat → Nat) : p (s.signalAt die part va f) = p s := by
  unfold State.signalAt
  split
  · rfl
  · split
    · rename_i t pa h
      exact (hp.write t pa _).trans (hp.agentUse s die part h)
    · rfl

end

section
variable {α : Type} {p : State → α} (hp : ReleaseLeaves p) (s : State) (die part : Nat)
include hp

theorem ReleaseLeaves.pinLine (up : Bool) (n : Nat) : p (s.pinLine up n) = p s := by
  unfold State.pinLine
  dsimp only
  split
  · split
    · rfl
    · exact hp.line s _
  · exact hp.line s _

theorem ReleaseLeaves.pinCopy (va len : Nat) (up : Bool) : p (s.pinCopy die part va len up) = p s := by
  refine (State.foldl_same p _ (fun t x => ?_) _ _).trans (hp.noteUse s die part _)
  split
  · exact hp.pinLine t _ _
  · rfl

theorem ReleaseLeaves.releaseHandle (lid h : Nat) : p (s.releaseHandle die part lid h) = p s := by
  unfold State.releaseHandle
  split
  · rfl
  · dsimp only
    split
    · exact hp.bumpCount s die part _ _
    · have hres (d n : Nat) (f : ResSlot → ResSlot) : p ((s.bumpCount die part h (· - 1)).updRes d n f) = p s :=
        (hp.res _ d n f).trans (hp.bumpCount s die part h _)
      split
      · exact (hp.pinCopy _ die part _ _ _).trans (hres _ _ _)
      · exact hres _ _ _

end

end Sys2Proof.Machine
end

section
/-! The completion of a launch (R284, R285, R288, R318). -/

namespace Sys2Proof.Machine

/-- STATUS and REASON, row by row (R318). -/
theorem Tally.outcome_table (t : Tally) (passed : Bool) : (t.aborted = true → t.outcome passed = (3, 0)) ∧
    (t.aborted = false → (∀ r w, t.killed = some (r, w) → t.outcome passed = (4, r)) ∧ (t.killed = none →
      (t.missed = true → t.outcome passed = (2, 4)) ∧ (t.missed = false →
        (passed = true → t.inEndgame = true → t.outcome passed = (2, 5)) ∧
        (passed = true → t.inEndgame = false → t.never ≠ 0 → t.outcome passed = (2, 6)) ∧
        (¬passed = true ∨ t.inEndgame = false ∧ t.never = 0 → t.outcome passed = (0, 0))))) := by
  refine ⟨fun h => ?_, fun ha => ⟨fun r w hk => ?_, fun hk => ⟨fun hm => ?_, fun hm =>
    ⟨fun hp he => ?_, fun hp he hn => ?_, ?_⟩⟩⟩⟩
  · simp [Tally.outcome, h]
  · simp [Tally.outcome, ha, hk]
  · simp [Tally.outcome, ha, hk, hm]
  · simp [Tally.outcome, ha, hk, hm, hp, he]
  · simp [Tally.outcome, ha, hk, hm, hp, he, hn]
  · rintro (hp | ⟨he, hn⟩)
    · simp [Tally.outcome, ha, hk, hm, hp]
    · simp [Tally.outcome, ha, hk, hm, he, hn]

theorem Launch.triggered_iff {l : Launch} : l.triggered = true ↔ l.trig ≠ [] ∨ l.trigAll = true := by
  simp [Launch.triggered]

theorem State.launch_lid {s : State} {lid : Nat} {l : Launch} (h : s.launch lid = some l) : l.info.lid = lid := by
  simpa using List.find?_some h

/-- A launch that is not over, or has no window yet, does not complete. -/
theorem State.checkLaunch_not {s : State} {l : Launch} (h : s.launch l.info.lid = some l)
    (hnot : ¬((l.stage = .ready ∨ l.stage = .loading) ∧ l.info.count ≤ l.tally.ended + l.tally.never)) :
    s.checkLaunch l.info.lid = s := by
  rw [State.checkLaunch, h]
  exact if_neg (by simpa [Launch.over] using hnot)

theorem State.checkLaunch_over {s : State} {l : Launch} (h : s.launch l.info.lid = some l)
    (hover : (l.stage = .ready ∨ l.stage = .loading) ∧ l.info.count ≤ l.tally.ended + l.tally.never) :
    s.checkLaunch l.info.lid = s.completeLaunch l := by
  rw [State.checkLaunch, h]
  exact if_pos (by simpa [Launch.over] using hover)

section
variable (s : State) (l : Launch)

/-- The window and the claims of a launch are given back. -/
def State.released : State :=
  l.handles.foldl (fun x h => x.releaseHandle l.info.home l.info.part l.info.lid h) (s.updDie l.info.home fun d =>
    { d with windows := d.windows.map fun w => if w = some l.info.lid then none else w })

/-- The packet of a launch is over in every queue that is its own. -/
def Die.closed (d : Die) : Die :=
  { d with ref := { d.ref with queues := d.ref.queues.map fun q =>
    if q.qd = l.qd then { q with open_ := q.open_.filter fun p => !(p.f 0 1 == 1 && p.idx == l.pkt) } else q } }

/-- A launch and its packet are gone. -/
def State.closed : State :=
  { s with dies := s.dies.map fun d => d.closed l, launches := s.launches.filter fun x => x.info.lid != l.info.lid }

/-- The state in which the record of a launch stands: as it was where ECOMMIT has written one, none is asked for, or its address
faults (R284). -/
def State.Records (t : State) : Prop :=
  let record := s.launchRecord l (l.tally.outcome l.triggered).1 (l.tally.outcome l.triggered).2
  if l.tally.committed = true ∨ l.crec = 0 then t = s
  else s.agentStore l.info.home l.info.part l.crec record = .ok t ∨
    t = s ∧ ∃ f, s.agentStore l.info.home l.info.part l.crec record = .error (some f)

variable {s l}

theorem State.recorded_eq {t : State} (h : s.Records l t) : (if l.tally.committed then some s
    else (s.storeRecord l.info.home l.info.part l.crec
      (s.launchRecord l (l.tally.outcome l.triggered).1 (l.tally.outcome l.triggered).2)).map (·.1)) = some t := by
  unfold State.Records at h
  by_cases hc : l.tally.committed = true
  · rw [if_pos (.inl hc)] at h
    rw [if_pos hc, h]
  · rw [if_neg hc]
    by_cases hz : l.crec = 0
    · rw [if_pos (.inr hz)] at h
      rw [State.storeRecord, if_pos hz, h]
      rfl
    · rw [if_neg (not_or.2 ⟨hc, hz⟩)] at h
      rw [State.storeRecord, if_neg hz]
      rcases h with h | ⟨rfl, f, h⟩
      · rw [h]
        rfl
      · rw [h]
        rfl

/-- A launch that completes, where no frame it writes is under a LOCK: its record, its window and claims, its signal, and its
packet (R285). -/
theorem State.completeLaunch_eq {t : State} (hsignal : s.signalLocked l.info.home l.info.part l.csig = false)
    (hadapt : s.adaptLocked l.info.home l.info.part l.handles = false)
    (hload : ∀ h ∈ l.handles, s.loadLocked l.info.home l.info.part h = false) (hrecord : s.Records l t)
    (hstage : l.stage = .ready ∨ l.handles = []) : s.completeLaunch l =
      State.closed ((t.released l).signalAt l.info.home l.info.part l.csig (· + minusOne)) l := by
  have hfree : ¬(s.signalLocked l.info.home l.info.part l.csig = true ∨
      s.adaptLocked l.info.home l.info.part l.handles = true ∨
      l.handles.any (s.loadLocked l.info.home l.info.part) = true) := by
    simpa [hsignal, hadapt] using hload
  have hloaded : (if l.stage = .loading then
      l.handles.foldl (fun s h => s.loadHandle l.info.home l.info.part (some l.info.lid) h) t else t) = t := by
    rcases hstage with hs | hs
    · exact if_neg (by simp [hs])
    · rw [hs]
      exact ite_self t
  unfold State.completeLaunch
  dsimp only
  rw [if_neg hfree, State.recorded_eq hrecord]
  dsimp only
  rw [hloaded]
  rfl

theorem State.records_leaves {α : Type} {p : State → α} (hp : AgentLeaves p) {t : State} (h : s.Records l t) : p t = p s := by
  unfold State.Records at h
  split at h
  · rw [h]
  · rcases h with h | ⟨rfl, -⟩
    · exact hp.agentStore s _ _ h
    · rfl

end

section
variable (s : State) (l : Launch)

theorem State.released_leaves {α : Type} {p : State → α} (hp : ReleaseLeaves p) : p (s.released l) =
    p (s.updDie l.info.home fun d =>
      { d with windows := d.windows.map fun w => if w = some l.info.lid then none else w }) :=
  State.foldl_same p _ (fun t h => hp.releaseHandle t _ _ _ h) _ _

/-- The launch's window is free. -/
theorem State.released_windows : some l.info.lid ∉ ((s.released l).die l.info.home).windows := by
  have hdie := getD_updAt (fun d : Die =>
    { d with windows := d.windows.map fun w => if w = some l.info.lid then none else w }) l.info.home l.info.home s.dies
    (Die.reset l.info.home) rfl
  rw [if_pos rfl] at hdie
  rw [State.released_leaves s l (ReleaseLeaves.windows l.info.home), State.die, State.updDie_dies, hdie]
  simp

@[simp] theorem State.closed_mem : (s.closed l).mem = s.mem := rfl

@[simp] theorem State.closed_launches : (s.closed l).launches = s.launches.filter fun x => x.info.lid != l.info.lid := rfl

theorem State.closed_die (n : Nat) : (s.closed l).die n = (s.die n).closed l :=
  List.getD_map s.dies (Die.reset n) fun d => d.closed l

/-- No queue of the launch holds its packet. -/
theorem Die.closed_queues {d : Die} {q : QState} (hq : q ∈ (d.closed l).ref.queues) (hqd : q.qd = l.qd) {x : Pkt}
    (hx : x ∈ q.open_) : ¬(x.f 0 1 = 1 ∧ x.idx = l.pkt) := by
  obtain ⟨q', -, rfl⟩ := List.mem_map.1 hq
  by_cases h : q'.qd = l.qd
  · rw [if_pos h] at hx
    exact not_and_or.2 (by simpa using (List.mem_filter.1 hx).2)
  · rw [if_neg h] at hqd
    exact absurd hqd h

end

section
variable {s : State} {die part va : Nat} (f : Nat → Nat)

theorem State.signalAt_none (h : va = 0) : s.signalAt die part va f = s := if_pos h

/-- An agent's atomic on a signal (R281). -/
theorem State.signalAt_mem {t : State} {pa : Nat} (hva : va ≠ 0) (h : s.agentUse die part va 2 = .ok (t, pa)) :
    (s.signalAt die part va f).mem = s.mem.put pa (leBytes 8 (f (leValue (t.agentBytes die pa 8)) % 2 ^ 64)) := by
  have hmem : t.mem = s.mem := by
    rw [State.agentUse_state h]
    exact State.noteUse_same (·.mem) (fun _ _ _ => rfl) s die part _
  rw [State.signalAt, if_neg hva, h]
  exact (State.agentWrite_mem _ _ _).trans (by rw [hmem])

end

/-- A claim that ends lowers the count of its slot, and lets go of the pins that are held for its launch (R287, R288). -/
theorem State.releaseHandle_eq {s : State} {die part lid h k : Nat} {b : List Byte} (hb : s.adaptEntry die part h = .ok b)
    (hk : s.slotHolding (byteField b 0x18 1) h = some k) :
    let t := (s.bumpCount die part h (· - 1)).updRes (byteField b 0x18 1) k fun r =>
      { r with count := r.count - 1, pinned := r.pinned.filter (· != lid) }
    s.releaseHandle die part lid h = if ((s.die (byteField b 0x18 1)).ref.slot k).pinned = some lid
      then t.pinCopy die part (byteField b 0x10 8) (byteField b 8 4) false else t := by
  have hdie (n : Nat) : ((s.bumpCount die part h (· - 1)).die n).ref = (s.die n).ref :=
    (AgentLeaves.die (p := (·.ref)) (fun _ _ => rfl) n).bumpCount s die part h _
  have hslot : (s.bumpCount die part h (· - 1)).slotHolding (byteField b 0x18 1) h = some k := by
    rw [State.slotHolding, hdie]
    exact hk
  unfold State.releaseHandle
  rw [hb]
  dsimp only
  rw [hslot, ← hdie]

end Sys2Proof.Machine
end

section
/-! Queues that move (R293). -/

namespace Sys2Proof.Machine

/-! What an agent's writes leave of contexts and dies. -/

theorem State.notifyOne_others (s : State) (d e a : Nat) : (s.notifyOne d e a).others = s.others := by
  unfold State.notifyOne State.takeFree
  dsimp only
  split <;> split <;> rfl

theorem State.agentWrite_others (s : State) (k : Nat) (bs : List Byte) : (s.agentWrite k bs).others = s.others :=
  (State.foldl_same (·.others) (fun (t : State) (x : Nat × Nat × Nat) => t.notifyOne x.1 x.2.1 x.2.2)
    (fun _ _ => State.notifyOne_others _ _ _ _) _ _).trans
    (State.foldl_same_pair (·.others) (fun a l => a.1.writeLineAt a.2 l) (fun _ _ => rfl) _ _)

theorem AgentLeaves.gangs : AgentLeaves State.gangs where
  fill _ _ _ := rfl
  write s k bs := by rw [State.gangs, State.agentWrite_g, State.agentWrite_others]; rfl

theorem AgentLeaves.dies_length : AgentLeaves (·.dies.length) where
  fill s d e := length_updAt _ d s.dies
  write s k bs := by rw [State.agentWrite_dies]

section
variable (s : State) {d n : Nat} (f : Referee → Referee)

theorem State.updRef_die_of_ne (h : n ≠ d) : (s.updRef d f).die n = s.die n := by
  rw [State.die, State.updRef, State.updDie_dies, List.getD_eq_getElem?_getD, getElem?_updAt_of_ne _ h,
    ← List.getD_eq_getElem?_getD]
  rfl

theorem State.updRef_ref (h : d < s.dies.length) : ((s.updRef d f).die d).ref = f (s.die d).ref := by
  rw [State.die, State.updRef, State.updDie_dies, List.getD_eq_getElem?_getD, getElem?_updAt_of_lt _ h (Die.reset d)]
  rfl

end

/-! Asking (R293). -/

section
variable {s : State} {die : Nat}

theorem execStealRequest_due {t : Nat} (hon : s.refereeOn die = true) (hidle : s.idleDie die = true)
    (hsince : (s.die die).ref.idleSince = some t) (hdue : t + 2000 ≤ s.now die) :
    execStealRequest die s = .next (s.updRef die fun r => { r with request := some (s.now die) }) := by
  rw [execStealRequest, hon, hidle, hsince]
  exact congrArg Host.Outcome.next (if_pos hdue)

/-! Which queue is handed over (R293). -/

/-- The queues a die may hand over. -/
def State.stealables (s : State) (die : Nat) : List QState := (s.die die).ref.queues.filter (s.stealable die)

theorem State.handOver_eq : s.handOver die = if (s.stealables die).length < 2 then none
    else (s.stealables die).argmax fun q => (s.headRank die q).key := by
  rw [← foldl_better_eq_argmax (beats := fun q x => (s.headRank die x).before (s.headRank die q))
    fun _ _ => Rank.before_iff_key]
  refine if_congr Iff.rfl rfl ?_
  exact List.foldl_ext _ _ _ fun best _ _ => by cases best <;> rfl

theorem State.handOver_eq_none : s.handOver die = none ↔ (s.stealables die).length < 2 := by
  rw [State.handOver_eq]
  split
  · rename_i h
    exact iff_of_true rfl h
  · rename_i h
    simp only [List.argmax_eq_none, h, iff_false]
    intro hnil
    simp [hnil] at h

/-- Of two or more queues the one whose head packet ranks lowest. -/
theorem State.handOver_some {q : QState} (h : s.handOver die = some q) : q ∈ s.stealables die ∧
    ∀ x ∈ s.stealables die, (s.headRank die q).before (s.headRank die x) = false := by
  rw [State.handOver_eq] at h
  split at h
  · cases h
  · exact ⟨List.argmax_mem h, fun x hx => Rank.before_eq_false.2 (List.le_of_mem_argmax (f := fun q => (s.headRank die q).key) hx h)⟩

theorem State.stealable_iff {q : QState} : s.stealable die q = true ↔ s.reaches q.qd = true ∧ (s.qdesc q.qd).bad = false ∧
    (s.qdesc q.qd).home = die ∧ (s.qdesc q.qd).state = 0 ∧ (s.qdesc q.qd).qflags = 1 ∧ 2 ≤ (s.qdesc q.qd).scope ∧
    q.unread (s.qdesc q.qd) < (s.qdesc q.qd).widx ∧ ∃ k, s.runEntry die q.qd = some k := by
  simp only [State.stealable, Bool.and_eq_true, Bool.not_eq_true', beq_iff_eq, decide_eq_true_eq, Option.isSome_iff_exists,
    and_assoc]

/-- The rank of a head packet that is no LAUNCH. -/
theorem State.headRank_plain {q : QState} {p : List Byte} (hp : s.agentRead die (s.qdesc q.qd).part
    ((s.qdesc q.qd).slotVa (q.unread (s.qdesc q.qd))) 64 = .ok p) (ht : byteField p 0 1 ≠ 1) :
    s.headRank die q = ⟨(s.qdesc q.qd).cls, none, s.now die, die, q.rl, 0⟩ := by
  unfold State.headRank
  dsimp only
  rw [hp]
  exact if_pos ht

/-- The rank of a LAUNCH, from the record that it names. -/
theorem State.headRank_launch {q : QState} {p b : List Byte} (hp : s.agentRead die (s.qdesc q.qd).part
    ((s.qdesc q.qd).slotVa (q.unread (s.qdesc q.qd))) 64 = .ok p) (ht : byteField p 0 1 = 1)
    (hb : s.agentRead die (s.qdesc q.qd).part (byteField p 8 8) 256 = .ok b) : s.headRank die q =
    ⟨byteField b 0x74 1, (recLaunch b (recInfo b 0 die (s.qdesc q.qd).part 0) ⟨q.qd, 0, p, false, false, 0⟩ q.rl).slack
      (s.now die), s.now die, die, q.rl, 0⟩ := by
  unfold State.headRank
  dsimp only
  rw [hp]
  dsimp only
  rw [if_neg (not_not.2 ht), hb]
  rfl

/-- The slack of a launch that its record alone gives: nothing of it is done. -/
theorem recLaunch_slack (b : List Byte) (lid part lrec : Nat) (x : Pkt) (rl now : Nat) :
    let l := recLaunch b (recInfo b lid die part lrec) x rl
    (byteField b 0x75 1 % 2 = 0 → l.slack now = none) ∧ (byteField b 0x75 1 % 2 = 1 → l.slack now =
      some ((byteField b 0x60 8 : Int) - now - byteField b 0x78 8 * (max 1 (byteField b 0x94 4) : Nat))) := by
  intro l
  have hline : l.info.dline = decide (byteField b 0x75 1 % 2 = 1) := Nat.testBit_zero _
  constructor
  · intro h
    exact Launch.slack_none (hline.trans (by simp [h])) now
  · intro h
    rw [Launch.slack_dline (hline.trans (by simp [h]))]
    rfl

end

/-! Handing over (R272, R293). -/

section
variable {s : State} {die : Nat}

theorem AgentLeaves.noteRanks {α : Type} {p : State → α} (hp : AgentLeaves p) (s : State) (die : Nat) :
    p (s.noteRanks die) = p s :=
  State.foldl_same p _ (fun t _ => hp.noteUse t _ _ _) _ s

theorem State.fillShared_runEntry (s : State) (n : Nat) (e : TlbEnt) (d qd : Nat) :
    (s.fillShared n e).runEntry d qd = s.runEntry d qd := by
  have hbase : ((s.fillShared n e).die d).rlbase = (s.die d).rlbase :=
    State.die_updDie_of (·.rlbase) (f := fun x => { x with tlb := tlbKeep 16384 e x.tlb }) (fun _ => rfl) s n d
  rw [State.runEntry, hbase]
  rfl

theorem State.noteRanks_runEntry (s : State) (n d qd : Nat) : (s.noteRanks n).runEntry d qd = s.runEntry d qd :=
  State.foldl_same (·.runEntry d qd) _
    (fun t _ => State.noteUse_same (·.runEntry d qd) (fun t n e => t.fillShared_runEntry n e d qd) t _ _ _) _ s

/-- Memory and caches once a queue's HOME and its run-list entries are written. -/
def State.rehomed (s : State) (from_ to_ k n qd : Nat) : State :=
  (((s.noteRanks from_).agentWrite (qd + 0x21) (leBytes 1 to_)).agentWrite ((s.die from_).rlbase.toNat + 8 * k)
    (leBytes 8 0)).agentWrite ((s.die to_).rlbase.toNat + 8 * n) (leBytes 8 qd)

theorem AgentLeaves.rehomed {α : Type} {p : State → α} (hp : AgentLeaves p) (s : State) (from_ to_ k n qd : Nat) :
    p (s.rehomed from_ to_ k n qd) = p s := by
  rw [State.rehomed, hp.write, hp.write, hp.write, hp.noteRanks]

theorem State.rehomed_mem (s : State) (from_ to_ k n qd : Nat) : (s.rehomed from_ to_ k n qd).mem =
    ((s.mem.put (qd + 0x21) [BitVec.ofNat 8 to_]).put ((s.die from_).rlbase.toNat + 8 * k) (leBytes 8 0)).put
      ((s.die to_).rlbase.toNat + 8 * n) (leBytes 8 qd) := by
  have hranks : (s.noteRanks from_).mem = s.mem :=
    State.foldl_same (·.mem) _ (fun t _ => State.noteUse_same (·.mem) (fun _ _ _ => rfl) t _ _ _) _ s
  rw [State.rehomed, State.agentWrite_mem, State.agentWrite_mem, State.agentWrite_mem, hranks]
  rfl

theorem State.moveQueue_eq {from_ to_ k n : Nat} {q : QState} (h : s.runEntry from_ q.qd = some k) :
    (s.noteRanks from_).moveQueue from_ to_ n q =
      ((s.rehomed from_ to_ k n q.qd).updRef from_ fun r => { r with queues := r.queues.filter (·.qd != q.qd) }).updRef to_
        fun r => { r with queues := r.queues ++ [{ q with rl := n }], request := none, idleSince := none } := by
  have hbase (d : Nat) : ((s.noteRanks from_).die d).rlbase = (s.die d).rlbase :=
    (AgentLeaves.die (p := (·.rlbase)) (fun _ _ => rfl) d).noteRanks s from_
  have hwrite (t : State) (a : Nat) (bs : List Byte) (d : Nat) : (t.agentWrite a bs).die d = t.die d := by
    rw [State.die, State.agentWrite_dies]
    rfl
  unfold State.moveQueue
  rw [State.noteRanks_runEntry, h]
  dsimp only
  rw [hwrite, hwrite, hwrite, hbase, hbase]
  rfl

/-- The dies of the ring are the others (R293). -/
theorem mem_stealRing : ∀ die < 4, ∀ d ∈ stealRing die, d < 4 ∧ d ≠ die := by decide

theorem State.moveQueue_refs {from_ to_ k n : Nat} {q : QState} (h : s.runEntry from_ q.qd = some k)
    (hne : from_ ≠ to_) (hfrom : from_ < s.dies.length) (hto : to_ < s.dies.length) :
    let u := (s.noteRanks from_).moveQueue from_ to_ n q
    (u.die from_).ref.queues = (s.die from_).ref.queues.filter (·.qd != q.qd) ∧ (u.die to_).ref = { (s.die to_).ref with
      queues := (s.die to_).ref.queues ++ [{ q with rl := n }], request := none, idleSince := none } := by
  have href (d : Nat) : ((s.rehomed from_ to_ k n q.qd).die d).ref = (s.die d).ref :=
    (AgentLeaves.die (p := (·.ref)) (fun _ _ => rfl) d).rehomed s from_ to_ k n q.qd
  have hlen : (s.rehomed from_ to_ k n q.qd).dies.length = s.dies.length :=
    AgentLeaves.dies_length.rehomed s from_ to_ k n q.qd
  rw [State.moveQueue_eq h]
  constructor
  · rw [State.updRef_die_of_ne _ _ hne, State.updRef_ref _ _ (hlen ▸ hfrom), href]
  · rw [State.updRef_ref, State.updRef_die_of_ne _ _ hne.symm, href]
    rw [State.updRef, State.updDie_dies, length_updAt, hlen]
    exact hto

theorem State.updRef_gangs (s : State) (d : Nat) (f : Referee → Referee) : (s.updRef d f).gangs = s.gangs := rfl

/-- A queue that moves changes its HOME and the two run-list entries in memory, and no launch and no context. -/
theorem State.moveQueue_frame {from_ to_ k n : Nat} {q : QState} (h : s.runEntry from_ q.qd = some k) :
    let u := (s.noteRanks from_).moveQueue from_ to_ n q
    u.mem = ((s.mem.put (q.qd + 0x21) [BitVec.ofNat 8 to_]).put ((s.die from_).rlbase.toNat + 8 * k) (leBytes 8 0)).put
      ((s.die to_).rlbase.toNat + 8 * n) (leBytes 8 q.qd) ∧ u.launches = s.launches ∧ u.gangs = s.gangs := by
  rw [State.moveQueue_eq h]
  refine ⟨?_, ?_, ?_⟩
  · rw [State.updRef_mem, State.updRef_mem, State.rehomed_mem]
  · rw [State.updRef_launches, State.updRef_launches]
    exact ReleaseLeaves.launches.rehomed s from_ to_ k n q.qd
  · rw [State.updRef_gangs, State.updRef_gangs]
    exact AgentLeaves.gangs.rehomed s from_ to_ k n q.qd

/-- What STEAL_HANDOVER does with what the Referees on the ring answer. -/
theorem execStealHandover_some {t n d : Nat} {pre post : List Nat} {q : QState} (hreq : (s.die die).ref.request = some t)
    (hrun : s.freeRun die = some n) (hring : stealRing die = pre ++ d :: post)
    (hpre : ∀ x ∈ pre, s.refereeOn x = true → s.handOver x = none) (hon : s.refereeOn d = true)
    (hq : s.handOver d = some q) : execStealHandover die s =
      .next (if q.inHand.isSome then s else (s.noteRanks d).moveQueue d die n q) := by
  have hfind : (stealRing die).findSome? (fun d => if s.refereeOn d then (s.handOver d).map fun q => (d, q) else none) =
      some (d, q) := by
    refine List.findSome?_eq_some_iff.2 ⟨pre, d, post, hring, by rw [if_pos hon, hq]; rfl, fun x hx => ?_⟩
    split
    · rename_i hx'
      rw [hpre x hx hx']
      rfl
    · rfl
  rw [execStealHandover, hreq, hrun]
  dsimp only
  rw [hfind]
  rfl

theorem execStealHandover_none {t n : Nat} (hreq : (s.die die).ref.request = some t) (hrun : s.freeRun die = some n)
    (h : ∀ x ∈ stealRing die, s.refereeOn x = true → s.handOver x = none) : execStealHandover die s =
      .next (s.updRef die fun r => { r with request := none, idleSince := some (s.now die) }) := by
  have hfind : (stealRing die).findSome? (fun d => if s.refereeOn d then (s.handOver d).map fun q => (d, q) else none) =
      none := by
    refine List.findSome?_eq_none_iff.2 fun x hx => ?_
    split
    · rename_i hx'
      rw [h x hx hx']
      rfl
    · rfl
  rw [execStealHandover, hreq, hrun]
  dsimp only
  rw [hfind]
  rfl

end

end Sys2Proof.Machine
end

section
/-! The obligation: work starts, pre-empts and completes, and queues move. -/

open Sys2Proof Sys2Proof.Machine

/-- Settles O45: the order of ranks, the first candidate that a die can do something for, victims, ends and completions, and the
queue that is handed over, each by the lemma of its event. -/
theorem workIsPlaced : Obligations.WorkIsPlaced := by
  unfold Obligations.WorkIsPlaced
  refine ⟨fun a b => ?order, fun l now => ⟨fun h => Launch.slack_none h now, fun h hp => ?notBegun, fun h hp hle => ?done,
    fun t0 h hp hlt ht => ?rate⟩, fun s die gid => ⟨fun l sp h => State.firstFit_spec h, fun l => State.mem_candidates,
    ranked_pairwise _ _, fun l => State.placeOne_eq_none, fun hon h => execInstancePlace_none hon h,
    fun pre l post hon hlist hpre => ⟨fun sp hsp hready => ?away, fun v hsp hready hv hfree hroom => ?preempts,
      fun sp hsp hready => ?starts⟩,
    fun i => ⟨State.preempt_none, fun v hv hcls hroom => ?noRoom, State.victimFor_none, fun v => State.victimFor_some⟩,
    fun a b la lb ha hb => ?worse, fun g hg hover => ?ends, fun l hl => ?completes,
    fun part h b k hb hk => State.releaseHandle_eq hb hk,
    fun t hon hidle hsince hdue => execStealRequest_due hon hidle hsince hdue, by decide,
    ⟨State.handOver_eq_none, fun q hq => ?lowest, fun q => ⟨State.stealable_iff, fun p hp => ?headRank⟩⟩, ?moves,
    fun t n hreq hrun hnone => execStealHandover_none hreq hrun hnone⟩⟩
  case order => rw [Rank.before_iff, slackLt_iff]
  case notBegun => rw [Launch.slack_dline h, if_pos hp]
  case done => rw [Launch.slack_dline h, if_neg hp, if_pos hle, sub_zero]
  case rate =>
    rw [Launch.slack_dline h, if_neg hp, if_neg (Nat.not_le.2 hlt), ht, Nat.cast_sub hlt.le]
    rfl
  case away =>
    exact execInstancePlace_at hon hlist hpre (by rw [State.placeOne_of_space hsp, hready]; rfl)
  case preempts =>
    have hpre' : ¬(s.preempting die = true ∨ l.info.cls ≠ 0 ∧ s.spillRoom die < (s.mates die v).length) := by
      rw [hfree]
      rintro (h | ⟨hcls, hlt⟩)
      · cases h
      · exact hroom.elim hcls fun hle => Nat.not_le.2 hlt hle
    exact execInstancePlace_at hon hlist hpre
      (by rw [State.placeOne_of_full hsp, if_pos hready, State.preempt_of_victim hv, if_neg hpre']; rfl)
  case starts =>
    refine ⟨execInstancePlace_at hon hlist hpre (by rw [State.placeOne_of_space hsp, if_pos hready]), ?_⟩
    exact ⟨s.startInstance_gang die l sp, s.startInstance_mem die l sp, fun x hx hlid => s.startInstance_counts die l sp hx hlid,
      rfl, rfl, l.info.coords_number l.taken, fun e he k hk => s.clearRegion_get die sp.1 sp.2 l.info he hk⟩
  case noRoom => rw [State.preempt_of_victim hv, if_pos (.inr ⟨hcls, hroom⟩)]
  case worse => rw [State.worse_iff, State.slackOf_eq ha, State.slackOf_eq hb]
  case ends =>
    exact ⟨s.ended g, execInstanceEnd_over hg hover, s.ended_mem g, fun x hx hlid => State.ended_counts hx hlid⟩
  case completes =>
    have hlid := State.launch_lid hl
    subst hlid
    intro i t passed o done
    obtain ⟨haborted, hrest⟩ := t.outcome_table l.triggered
    refine ⟨haborted, ?_, fun hnot => State.checkLaunch_not hl hnot, ?_⟩
    · rw [Launch.triggered_iff] at hrest
      exact hrest
    intro hdone hstage _ hadapt hsignal hload record r hr v u
    have hrec : s.Records l r := hr
    have hu : u = State.closed ((r.released l).signalAt i.home i.part l.csig (· + minusOne)) l :=
      (State.checkLaunch_over hl hdone).trans (State.completeLaunch_eq hsignal hadapt hload hrec hstage)
    have hkept : r.launches = s.launches := State.records_leaves ReleaseLeaves.launches.toAgentLeaves hrec
    have hlaunches : ((r.released l).signalAt i.home i.part l.csig (· + minusOne)).launches = s.launches := by
      rw [ReleaseLeaves.launches.signalAt, State.released_leaves r l ReleaseLeaves.launches]
      exact hkept
    rw [hu]
    refine ⟨fun hz => ?_, fun w pa hz huse => ?_, ?_, ?_, fun d q hq hqd p hp => ?_⟩
    · rw [State.closed_mem, State.signalAt_none _ hz]
      rfl
    · rw [State.closed_mem]
      exact State.signalAt_mem (s := r.released l) (· + minusOne) hz huse
    · rw [State.closed_launches, hlaunches]
    · rw [State.closed_die]
      show _ ∉ (State.die _ i.home).windows
      rw [(ReleaseLeaves.windows i.home).signalAt]
      exact r.released_windows l
    · rw [State.closed_die] at hq
      exact Die.closed_queues l hq hqd hp
  case lowest =>
    obtain ⟨hmem, hrank⟩ := State.handOver_some hq
    exact ⟨List.mem_filter.1 hmem, fun x hx => hrank x (List.mem_filter.2 hx)⟩
  case headRank =>
    refine ⟨fun ht => State.headRank_plain hp ht, fun b ht hb => ?_⟩
    rw [State.headRank_launch hp ht hb]
    exact ⟨rfl, recLaunch_slack b _ _ _ _ _ _⟩
  case moves =>
    intro t n pre d post q k hdie hlen hreq hrun hring hpre hon hq hk
    have hexec := execStealHandover_some hreq hrun hring hpre hon hq
    obtain ⟨hd, hne⟩ := mem_stealRing die hdie d (hring ▸ List.mem_append_right _ (List.mem_cons_self ..))
    constructor
    · intro hin
      rw [if_pos (Option.isSome_iff_ne_none.2 hin)] at hexec
      exact hexec
    · intro hin
      rw [if_neg (by simp [hin])] at hexec
      obtain ⟨hqueues, href⟩ := State.moveQueue_refs (q := q) (n := n) hk hne (hlen.symm ▸ hd) (hlen.symm ▸ hdie)
      obtain ⟨hmem, hlaunches, hgangs⟩ := State.moveQueue_frame (to_ := die) (n := n) hk
      exact ⟨(s.noteRanks d).moveQueue d die n q, hexec, hmem, hqueues, href, hlaunches, hgangs⟩

end

section
/-! The meanings of the scalar class at issue (R45, R109): an instruction that goes leaves its effect on the state it found. -/

namespace Sys2Proof.Machine

section fixed
variable {s : State} {i : Instr} {w : Slotword} (hgo : s.goes i) (hw : i.encode = some (.S, w)) (hdiv : ∀ x, i ≠ .div x)
  (hrem : ∀ x, i ≠ .rem x)
include hgo hw hdiv hrem

theorem State.next_run_S {t : State} {eff : State → State} (h : eff s = t) : (s.run i eff).next = .next t :=
  congrArg Host.Outcome.next ((State.run_S hgo hw hdiv hrem eff).trans h)

theorem State.next_fixed2_S {x : SR} {lat : Nat} {f : Word → Word → Word} {v : Word}
    (h : f (s.operand x.a) (s.operand x.b) = v) : (s.fixed2 i x lat f).next = .next (s.lands lat x.d v) :=
  State.next_run_S hgo hw hdiv hrem (congrArg (s.lands lat x.d) h)

theorem State.next_fixedI_S {x : SI} {f : Word → Word → Word} {v : Word}
    (h : f (s.operand x.a) (x.imm.signExtend 64) = v) : (s.fixedI i x f).next = .next (s.lands 1 x.d v) :=
  State.next_run_S hgo hw hdiv hrem (congrArg (s.lands 1 x.d) h)

end fixed

end Sys2Proof.Machine
end

section
/-! Integer arithmetic (R112): the high half of a product, and the lesser and the greater of two words. -/

namespace Sys2Proof.Machine

theorem mulHigh_signed (a b : Word) : mulHigh 0 a b = BitVec.ofInt 64 (a.toInt * b.toInt / 2 ^ 64) := rfl

theorem mulHigh_unsigned (a b : Word) : mulHigh 1 a b = BitVec.ofNat 64 (a.toNat * b.toNat / 2 ^ 64) := by
  have hcast : (a.toNat : Int) * b.toNat / 2 ^ 64 = ((a.toNat * b.toNat / 2 ^ 64 : Nat) : Int) := by push_cast; rfl
  rw [← BitVec.ofInt_natCast, ← hcast]
  rfl

theorem mulHigh_mixed (a b : Word) : mulHigh 2 a b = BitVec.ofInt 64 (a.toInt * (b.toNat : Int) / 2 ^ 64) := rfl

/-- Choosing by "less" and by "at most" comes to the same: what compares equal is equal. -/
theorem ite_lt_eq_ite_le {α β : Type} [LinearOrder β] {key : α → β} (hkey : ∀ x y, key x = key y → x = y) (g : Bool) (a b : α) :
    (if decide (key a < key b) = g then b else a) =
      if key a ≤ key b then (if g then b else a) else (if g then a else b) := by
  rcases lt_trichotomy (key a) (key b) with h | h | h
  · cases g <;> simp [h, h.le]
  · cases hkey a b h
    simp
  · cases g <;> simp [h.not_ge, h.not_gt]

theorem minMax_signed (g : Bool) (a b : Word) :
    minMax g 0 a b = if a.toInt ≤ b.toInt then (if g then b else a) else (if g then a else b) := by
  rw [← ite_lt_eq_ite_le (fun _ _ => BitVec.eq_of_toInt_eq), ← BitVec.slt_eq_decide]
  rfl

theorem minMax_unsigned (g : Bool) (a b : Word) :
    minMax g 1 a b = if a.toNat ≤ b.toNat then (if g then b else a) else (if g then a else b) := by
  rw [← ite_lt_eq_ite_le (fun _ _ => BitVec.eq_of_toNat_eq), ← BitVec.ult_eq_decide]
  rfl

end Sys2Proof.Machine

open Sys2Proof Sys2Proof.Machine

/-- Settles O1: each meaning lands its function of the two operands, and MULH, MIN and MAX by what theirs comes to. -/
theorem scalarArithmetic : Obligations.ScalarArithmetic := by
  unfold Obligations.ScalarArithmetic
  intro x y s A B
  refine ⟨fun h => State.next_fixed2_S h rfl nofun nofun rfl, fun h => State.next_fixed2_S h rfl nofun nofun rfl,
    fun h => State.next_fixedI_S h rfl nofun nofun rfl, fun h => State.next_fixed2_S h rfl nofun nofun rfl,
    fun h => State.next_fixed2_S h rfl nofun nofun rfl, fun h hf => State.next_fixed2_S h rfl nofun nofun ?_,
    fun h hf => State.next_fixed2_S h rfl nofun nofun ?_, fun h hf => State.next_fixed2_S h rfl nofun nofun ?_,
    fun h hf => State.next_fixed2_S h rfl nofun nofun ?_, fun h hf => State.next_fixed2_S h rfl nofun nofun ?_,
    fun h hf => State.next_fixed2_S h rfl nofun nofun ?_, fun h hf => State.next_fixed2_S h rfl nofun nofun ?_⟩ <;> rw [hf]
  · exact mulHigh_signed A B
  · exact mulHigh_unsigned A B
  · exact mulHigh_mixed A B
  · exact minMax_signed false A B
  · exact minMax_unsigned false A B
  · exact minMax_signed true A B
  · exact minMax_unsigned true A B

end

section
/-! Division (R113). The fixed result of the signed overflow is the quotient and the remainder as 64-bit words, so that one
equation gives both results for every divisor other than zero. -/

namespace Sys2Proof.Machine

/-- The number that an operand of DIV and REM stands for: signed for f = 0 (R113). -/
def divOperand (f : BitVec 3) (a : Word) : Int := if f = 0 then a.toInt else a.toNat

theorem wordOf_divOperand (f : BitVec 3) (a : Word) : wordOf (divOperand f a) = a := by
  unfold divOperand
  split
  · exact BitVec.ofInt_toInt
  · rw [wordOf, BitVec.ofInt_natCast, BitVec.ofNat_toNat, BitVec.setWidth_eq]

theorem divOperand_eq_zero {f : BitVec 3} {a : Word} : divOperand f a = 0 ↔ a = 0 := by
  constructor
  · intro h
    rw [← wordOf_divOperand f a, h]
    rfl
  · rintro rfl
    unfold divOperand
    split <;> rfl

theorem divRem_eq (f : BitVec 3) (a b : Word) : divRem f a b =
    if divOperand f b = 0 then (wordOf (-1), wordOf (divOperand f a))
    else if f = 0 ∧ divOperand f a = -(2 ^ 63) ∧ divOperand f b = -1 then (wordOf (-(2 ^ 63)), 0)
    else (wordOf ((divOperand f a).tdiv (divOperand f b)), wordOf ((divOperand f a).tmod (divOperand f b))) := rfl

theorem divRem_zero (f : BitVec 3) (a : Word) : divRem f a 0 = (BitVec.ofInt 64 (-1), a) := by
  rw [divRem_eq, if_pos (divOperand_eq_zero.2 rfl), wordOf_divOperand]
  rfl

theorem divRem_of_ne (f : BitVec 3) (a : Word) {b : Word} (hb : b ≠ 0) : divRem f a b =
    (wordOf ((divOperand f a).tdiv (divOperand f b)), wordOf ((divOperand f a).tmod (divOperand f b))) := by
  rw [divRem_eq, if_neg fun h => hb (divOperand_eq_zero.1 h)]
  split
  case isTrue h =>
    obtain ⟨-, hx, hy⟩ := h
    rw [hx, hy]
    decide
  case isFalse => rfl

/-- The signed results, as R113 tables them. -/
theorem divRem_signed (a b : Word) : divRem 0 a b =
    if b = 0 then (BitVec.ofInt 64 (-1), a)
    else if a = BitVec.intMin 64 ∧ b = BitVec.ofInt 64 (-1) then (BitVec.intMin 64, 0)
    else (BitVec.ofInt 64 (a.toInt.tdiv b.toInt), BitVec.ofInt 64 (a.toInt.tmod b.toInt)) := by
  split_ifs with hb hover
  · rw [hb, divRem_zero]
  · rw [hover.1, hover.2]
    decide
  · exact divRem_of_ne 0 a hb

/-- The unsigned results, as R113 tables them. -/
theorem divRem_unsigned (a b : Word) : divRem 1 a b =
    if b = 0 then (BitVec.ofInt 64 (-1), a) else (BitVec.ofNat 64 (a.toNat / b.toNat), BitVec.ofNat 64 (a.toNat % b.toNat)) := by
  split_ifs with hb
  · rw [hb, divRem_zero]
  · rw [divRem_of_ne 1 a hb, ← BitVec.ofInt_natCast, ← BitVec.ofInt_natCast, Int.ofNat_tdiv, Int.ofNat_tmod]
    rfl

/-- Quotient times divisor plus remainder is the dividend (R113). -/
theorem divRem_identity (f : BitVec 3) (a : Word) {b : Word} (hb : b ≠ 0) :
    (divRem f a b).1 * b + (divRem f a b).2 = a := by
  rw [divRem_of_ne f a hb]
  calc wordOf _ * b + wordOf _
      = wordOf ((divOperand f a).tdiv (divOperand f b)) * wordOf (divOperand f b) +
          wordOf ((divOperand f a).tmod (divOperand f b)) := by rw [wordOf_divOperand]
    _ = wordOf ((divOperand f a).tdiv (divOperand f b) * divOperand f b + (divOperand f a).tmod (divOperand f b)) := by
        simp only [wordOf, BitVec.ofInt_add, BitVec.ofInt_mul]
    _ = a := by rw [Int.tdiv_mul_add_tmod, wordOf_divOperand]

/-- The remainder of two signed words is below the divisor in magnitude, so that it is a signed word itself. -/
theorem toInt_divRem_signed (a : Word) {b : Word} (hb : b ≠ 0) : (divRem 0 a b).2.toInt = a.toInt.tmod b.toInt ∧
    (a.toInt.tmod b.toInt).natAbs < b.toInt.natAbs := by
  have hpos : 0 < b.toInt.natAbs := Int.natAbs_pos.2 fun h => hb (divOperand_eq_zero (f := 0).1 h)
  have hlt : (a.toInt.tmod b.toInt).natAbs < b.toInt.natAbs := Int.natAbs_tmod _ _ ▸ Nat.mod_lt _ hpos
  have hlo : -2 ^ 63 ≤ b.toInt := b.le_toInt
  have hhi : b.toInt < 2 ^ 63 := b.toInt_lt
  refine ⟨?_, hlt⟩
  rw [divRem_of_ne 0 a hb]
  exact BitVec.toInt_ofInt_eq_self (n := a.toInt.tmod b.toInt) (by decide) (by omega) (by omega)

/-- A remainder that is not zero has the sign of the dividend (R113). -/
theorem tmod_neg_iff {x y : Int} (h : x.tmod y ≠ 0) : x.tmod y < 0 ↔ x < 0 := by
  have hsign : (x.tmod y).sign = x.sign := by
    rw [Int.sign_tmod, if_neg fun hd => h (Int.tmod_eq_zero_of_dvd hd)]
  rw [← Int.sign_eq_neg_one_iff_neg, hsign, Int.sign_eq_neg_one_iff_neg]

/-- An instruction that takes the divider leaves it busy beside its result (R48). -/
theorem State.next_fixed2_divider {s : State} {i : Instr} (hgo : s.goes i) (hocc : s.occupy i = s.divBusy) {x : SR} {lat : Nat}
    {f : Word → Word → Word} {v : Word} (h : f (s.operand x.a) (s.operand x.b) = v) :
    (s.fixed2 i x lat f).next = .next (s.divBusy.lands lat x.d v) := by
  refine congrArg Host.Outcome.next ((State.run_go _ hgo.2).trans ?_)
  rw [hocc, ← h, State.landReg_eq, State.srA, State.srB, State.divBusy_operand, State.divBusy_operand]

theorem execDiv_goes {s : State} {x : SR} (hgo : s.goes (.div x)) {v : Word}
    (h : (divRem x.f (s.operand x.a) (s.operand x.b)).1 = v) : exec (.div x) s = .next (s.divBusy.lands 20 x.d v) :=
  State.next_fixed2_divider hgo (State.occupy_zero (State.slot_zero rfl hgo.1)) h

theorem execRem_goes {s : State} {x : SR} (hgo : s.goes (.rem x)) {v : Word}
    (h : (divRem x.f (s.operand x.a) (s.operand x.b)).2 = v) : exec (.rem x) s = .next (s.divBusy.lands 20 x.d v) :=
  State.next_fixed2_divider hgo (State.occupy_zero (State.slot_zero rfl hgo.1)) h

end Sys2Proof.Machine

open Sys2Proof Sys2Proof.Machine

/-- Settles O2: the results as `divRem_signed` and `divRem_unsigned` table them, and the identity from that of integers. -/
theorem division : Obligations.Division := by
  unfold Obligations.Division
  intro x s A B t
  refine ⟨fun h hf => execDiv_goes h ?quot, fun h hf => execDiv_goes h ?quotUnsigned, fun h hf => execRem_goes h ?rem,
    fun h hf => execRem_goes h ?remUnsigned, fun hd hr _ hb => ⟨_, _, execDiv_goes hd rfl, execRem_goes hr rfl,
      divRem_identity x.f A hb, fun h1 => ?below, fun h0 => ?signed⟩⟩
  case quot | rem =>
    rw [hf, divRem_signed]
    split_ifs <;> rfl
  case quotUnsigned | remUnsigned =>
    rw [hf, divRem_unsigned]
    split_ifs <;> rfl
  case below =>
    have hpos : 0 < B.toNat := Nat.pos_of_ne_zero fun h => hb (BitVec.eq_of_toNat_eq h)
    rw [h1, divRem_unsigned, if_neg hb, BitVec.toNat_ofNat]
    exact (Nat.mod_le _ _).trans_lt (Nat.mod_lt _ hpos)
  case signed =>
    obtain ⟨hm, hlt⟩ := toInt_divRem_signed A hb
    rw [h0, hm]
    exact ⟨hlt, fun hne => tmod_neg_iff fun hz => hne (BitVec.eq_of_toInt_eq (hm.trans hz))⟩

end

section
/-! Logic and shifts (R114, R115): each shift as the arithmetic of its operand's number. -/

namespace Sys2Proof.Machine

theorem word_shl (a : Word) (n : Nat) : a <<< n = BitVec.ofNat 64 (a.toNat * 2 ^ n) :=
  BitVec.eq_of_toNat_eq (by rw [BitVec.toNat_shiftLeft, BitVec.toNat_ofNat, Nat.shiftLeft_eq])

theorem word_shr (a : Word) (n : Nat) : a >>> n = BitVec.ofNat 64 (a.toNat / 2 ^ n) := by
  rw [← Nat.shiftRight_eq_div_pow, ← BitVec.toNat_ushiftRight, BitVec.ofNat_toNat, BitVec.setWidth_eq]

theorem word_sar (a : Word) (n : Nat) : a.sshiftRight n = BitVec.ofInt 64 (a.toInt / 2 ^ n) := by
  rw [← BitVec.ofInt_toInt (x := a.sshiftRight n), BitVec.toInt_sshiftRight, Int.shiftRight_eq_div_pow]
  norm_cast

/-- The low six bits of an immediate are those of its sign extension (R115). -/
theorem signExtend_imm9_mod (i : BitVec 9) : (i.signExtend 64).toNat % 64 = i.toNat % 64 := by
  rw [BitVec.toNat_signExtend, BitVec.toNat_setWidth]
  split <;> omega

end Sys2Proof.Machine

open Sys2Proof Sys2Proof.Machine

/-- Settles O3: the logic instructions land their function, the shifts by what shifting comes to in numbers. -/
theorem logicAndShifts : Obligations.LogicAndShifts := by
  unfold Obligations.LogicAndShifts
  intro x y s A B I n C k
  have hk : I.toNat % 64 = k := signExtend_imm9_mod y.imm
  exact ⟨fun h => State.next_fixed2_S h rfl nofun nofun rfl, fun h => State.next_fixed2_S h rfl nofun nofun rfl,
    fun h => State.next_fixed2_S h rfl nofun nofun rfl, fun h => State.next_fixed2_S h rfl nofun nofun rfl,
    fun h => State.next_fixedI_S h rfl nofun nofun rfl, fun h => State.next_fixedI_S h rfl nofun nofun rfl,
    fun h => State.next_fixedI_S h rfl nofun nofun rfl, fun h => State.next_fixed2_S h rfl nofun nofun (word_shl A n),
    fun h => State.next_fixed2_S h rfl nofun nofun (word_shr A n),
    fun h => State.next_fixed2_S h rfl nofun nofun (word_sar A n),
    fun h => State.next_fixedI_S h rfl nofun nofun (hk ▸ word_shl C _),
    fun h => State.next_fixedI_S h rfl nofun nofun (hk ▸ word_shr C _),
    fun h => State.next_fixedI_S h rfl nofun nofun (hk ▸ word_sar C _)⟩

end

section
/-! Compares and selection (R116 to R118): the conditions, the functions of PLOG, and the predicates as they read. -/

namespace Sys2Proof.Machine

theorem condHolds_iff (a b : Word) : ∀ c, condHolds c a b = true ↔ Cond116 c a b
  | 0 => beq_iff_eq
  | 1 => bne_iff_ne
  | 2 => BitVec.slt_iff_toInt_lt
  | 3 => BitVec.sle_iff_toInt_le
  | 4 => BitVec.slt_iff_toInt_lt
  | 5 => BitVec.sle_iff_toInt_le
  | 6 => BitVec.ult_iff_toNat_lt
  | _ + 7 => BitVec.ule_iff_toNat_le

theorem plogFn_iff (x y : Bool) : ∀ f, plogFn f x y = true ↔ Fun117 f (x = true) (y = true)
  | 0 => Bool.and_eq_true_iff
  | 1 => Bool.or_eq_true_iff
  | 2 => bne_iff_ne.trans (not_congr Bool.eq_iff_iff)
  | 3 => by simp [plogFn, Fun117]
  | 4 => by simp [plogFn, Fun117]
  | 5 => by simp [plogFn, Fun117, imp_iff_not_or]
  | 6 => by simp [plogFn, Fun117]
  | _ + 7 => beq_iff_eq.trans Bool.eq_iff_iff

/-- The condition number stands in the upper half of a CMP's destination field (R116). -/
theorem toNat_extract_cond (d : BitVec 6) : (d.extractLsb' 3 3).toNat = d.toNat / 8 := by
  have hd : d.toNat < 64 := d.isLt
  rw [BitVec.extractLsb'_toNat, Nat.shiftRight_eq_div_pow]
  omega

theorem State.readPred_zero (s : State) : s.readPred 0 = true := by
  unfold State.readPred
  split <;> rfl

theorem State.readPred_of_none {s : State} (h : s.stages = none) (p : BitVec 3) : s.readPred p = s.seq.pred p := by
  rw [State.readPred, h]

theorem State.readPred_of_some {s : State} {sp : BitVec 4} (h : s.stages = some sp) (p : BitVec 3) :
    s.readPred p = if p.toNat < 4 then s.seq.pred p else sp.getLsbD (p.toNat - 4) := by
  rw [State.readPred, h]

@[simp] theorem Seq.setPred_frames (q : Machine.Seq) (p : BitVec 3) (v : Bool) : (q.setPred p v).frames = q.frames := by
  unfold Seq.setPred
  split <;> rfl

theorem State.landOne_pred_seq (s : State) (q : Nat) (p : BitVec 3) (v : Bool) :
    (s.landOne (.pred q p v)).g.seq q = (s.g.seq q).setPred p v := Gang.updSeq_seq _ _ _

/-- A result for p0 is discarded (R109). -/
theorem State.landOne_pred_zero (s : State) (q : Nat) (v : Bool) : s.landOne (.pred q 0 v) = s :=
  congrArg (fun g => ({ s with g := g } : State)) (Gang.updSeq_id s.g q)

end Sys2Proof.Machine

open Sys2Proof Sys2Proof.Machine

/-- Settles O4: each predicate by the table of its instruction, its landing by the law of `Seq.setPred`, and how predicates
read by the stage predicates there are. -/
theorem comparesAndSelection : Obligations.ComparesAndSelection := by
  unfold Obligations.ComparesAndSelection
  intro x y s
  have hlow (r : BitVec 6) : r.extractLsb' 0 3 = r.setWidth 3 := (BitVec.setWidth_eq_extractLsb' (by decide)).symm
  simp only [hlow, toNat_extract_cond]
  exact ⟨fun h => ⟨_, State.next_run_S h rfl nofun nofun rfl, condHolds_iff ..⟩,
    fun h => ⟨_, State.next_run_S h rfl nofun nofun rfl, condHolds_iff ..⟩,
    fun h => ⟨_, State.next_run_S h rfl nofun nofun rfl, plogFn_iff ..⟩,
    fun h => State.next_run_S h rfl nofun nofun rfl,
    fun q p p' v => ⟨by rw [State.landOne_pred_seq, Seq.pred_setPred], by rw [State.landOne_pred_seq, Seq.setPred_frames],
      fun hp => hp ▸ State.landOne_pred_zero s q v⟩,
    s.readPred_zero, fun h => State.readPred_of_none h, fun sp h => State.readPred_of_some h⟩

end

section
/-! Moves and counts (R111, R119, R120). -/

namespace Sys2Proof.Machine

theorem State.operand_literal {s : State} {v : BitVec 32} (h : s.cur.lit = some v) : s.operand 63 = v.signExtend 64 := by
  rw [State.operand, if_pos rfl, State.literal, h]

/-- A word put above the low half of another (R119). -/
theorem shl_or_low_half (a b : Word) :
    (a <<< 32) ||| (b &&& 0xFFFFFFFF) = (a.setWidth 32 ++ b.setWidth 32 : BitVec (32 + 32)) := by
  refine BitVec.eq_of_getLsbD_eq fun k hk => ?_
  have hmask : (0xFFFFFFFF : Word).getLsbD k = decide (k < 32) :=
    (BitVec.getLsbD_ofNat ..).trans (by simpa [hk] using Nat.testBit_two_pow_sub_one 32 k)
  rw [BitVec.getLsbD_or, BitVec.getLsbD_and, BitVec.getLsbD_shiftLeft, hmask, BitVec.getLsbD_append, BitVec.getLsbD_setWidth,
    BitVec.getLsbD_setWidth]
  by_cases hlow : k < 32
  · simp [hk, hlow]
  · simp [hk, hlow, show k - 32 < 32 by omega]

/-- The number of leading zeros says between which powers of two a word lies (R120). -/
theorem leadingZeros_bounds (a : Word) : ∃ n ≤ 64, leadingZeros a = BitVec.ofNat 64 n ∧ a.toNat < 2 ^ (64 - n) ∧
    (n < 64 → 2 ^ (63 - n) ≤ a.toNat) := by
  by_cases ha : a = 0
  · exact ⟨64, le_rfl, if_pos ha, by simp [ha], nofun⟩
  · have hpos : a.toNat ≠ 0 := fun h => ha (BitVec.eq_of_toNat_eq h)
    have hlog : a.toNat.log2 < 64 := (Nat.log2_lt hpos).2 a.isLt
    refine ⟨63 - a.toNat.log2, by omega, if_neg ha, ?_, fun _ => ?_⟩
    · rw [show 64 - (63 - a.toNat.log2) = a.toNat.log2 + 1 by omega]
      exact Nat.lt_log2_self
    · rw [show 63 - (63 - a.toNat.log2) = a.toNat.log2 by omega]
      exact Nat.log2_self_le hpos

theorem oneBits_eq_countP (a : Word) : oneBits a = BitVec.ofNat 64 ((List.range 64).countP fun k => a.getLsbD k) :=
  congrArg (BitVec.ofNat 64) List.countP_eq_length_filter.symm

/-- NOP's guard is p0, whatever its field says (R111). -/
theorem State.goes_nop {s : State} {x : SR} (hslot : s.slotOk (.nop x) = true) (hready : s.cur.ready = true) :
    s.goes (.nop x) := by
  have hen : s.enabled (.nop x) = true := (Bool.and_true _).trans s.readPred_zero
  exact ⟨hslot, by rw [State.gate_ready hready, if_pos hen]⟩

end Sys2Proof.Machine

open Sys2Proof Sys2Proof.Machine

/-- Settles O5: each result by the lemma of its function; NOP's guard is p0. -/
theorem movesAndCounts : Obligations.MovesAndCounts := by
  unfold Obligations.MovesAndCounts
  intro x y s A
  refine ⟨fun h => State.next_run_S h rfl nofun nofun rfl, fun v => State.operand_literal,
    fun h => State.next_fixedI_S h rfl nofun nofun rfl, fun h => State.next_run_S h rfl nofun nofun ?high, fun h => ?zeros,
    fun h => State.next_run_S h rfl nofun nofun ?ones, fun h => State.next_run_S h rfl nofun nofun rfl, State.goes_nop⟩
  case high => exact congrArg (s.lands 1 y.d) (shl_or_low_half _ _)
  case zeros =>
    obtain ⟨n, hn, hzeros, hbounds⟩ := leadingZeros_bounds A
    exact ⟨n, hn, State.next_run_S h rfl nofun nofun (congrArg (s.lands 1 x.d) hzeros), hbounds⟩
  case ones => exact congrArg (s.lands 1 x.d) (oneBits_eq_countP A)

end

section
/-! Bit fields (R121): the field that B names as a word of the field's own width, and the two instructions bit by bit. -/

namespace Sys2Proof.Machine

theorem fieldOf_eq (b : Word) :
    fieldOf b = (b.toNat % 64, min (b.toNat / 256 % 128) (64 - b.toNat % 64)) := by
  simp [fieldOf, bits]

theorem sextNat_toNat {n : Nat} (x : BitVec n) : sextNat x.toNat n = x.toInt := by
  have hmsb : (n ≠ 0 ∧ x.toNat.testBit (n - 1) = true) ↔ x.msb = true := by
    rw [BitVec.msb_eq_getLsbD_last, BitVec.testBit_toNat]
    exact and_iff_right_of_imp fun h hn => absurd (BitVec.lt_of_getLsbD h) (by omega)
  rw [BitVec.toInt_eq_msb_cond, sextNat, Nat.mod_eq_of_lt x.isLt]
  simp only [hmsb]
  rfl

/-- The field of a word is its sign extension for f = 1, and its zero extension otherwise (R121). -/
theorem bitExtract_eq (f : BitVec 3) (a b : Word) : bitExtract f a b =
    if f = 1 then (a.extractLsb' (fieldOf b).1 (fieldOf b).2).signExtend 64
    else (a.extractLsb' (fieldOf b).1 (fieldOf b).2).setWidth 64 := by
  rw [bitExtract]
  obtain ⟨pos, w⟩ := fieldOf b
  dsimp only
  split_ifs with hw hf hf
  · subst hw
    simp
  · subst hw
    simp
  · rw [← BitVec.extractLsb'_toNat, sextNat_toNat]
    rfl
  · rw [← BitVec.extractLsb'_toNat, BitVec.ofNat_toNat]

theorem getLsbD_bitExtract (f : BitVec 3) (a b : Word) {k : Nat} (hk : k < 64) : (bitExtract f a b).getLsbD k =
    if k < (fieldOf b).2 then a.getLsbD ((fieldOf b).1 + k)
    else decide (f = 1 ∧ 0 < (fieldOf b).2) && a.getLsbD ((fieldOf b).1 + (fieldOf b).2 - 1) := by
  rw [bitExtract_eq]
  obtain ⟨pos, w⟩ := fieldOf b
  dsimp only
  split_ifs with hf hin hin
  · rw [BitVec.getLsbD_signExtend]
    simp [hk, hin]
  · rw [BitVec.getLsbD_signExtend, BitVec.msb_eq_getLsbD_last, BitVec.getLsbD_extractLsb']
    by_cases hw : 0 < w
    · simp [hk, hin, hf, hw, show pos + (w - 1) = pos + w - 1 by omega]
    · simp [hk, hin, hw]
  · simp [hk, hin]
  · rw [decide_eq_false fun h => hf h.1]
    simp [hin]

theorem getLsbD_bitInsert (old a b : Word) {k : Nat} (hk : k < 64) : (bitInsert old a b).getLsbD k =
    if (fieldOf b).1 ≤ k ∧ k < (fieldOf b).1 + (fieldOf b).2 then a.getLsbD (k - (fieldOf b).1) else old.getLsbD k := by
  rw [bitInsert]
  obtain ⟨pos, w⟩ := fieldOf b
  dsimp only
  have hmask : (BitVec.ofNat 64 ((2 ^ w - 1) * 2 ^ pos)).getLsbD k = decide (pos ≤ k ∧ k < pos + w) := by
    rw [BitVec.getLsbD_ofNat, Nat.testBit_mul_two_pow, Nat.testBit_two_pow_sub_one, decide_eq_true hk, Bool.true_and,
      ← Bool.decide_and]
    exact decide_eq_decide.2 (by omega)
  rw [BitVec.getLsbD_or, BitVec.getLsbD_and, BitVec.getLsbD_and, BitVec.getLsbD_not, BitVec.getLsbD_shiftLeft, hmask]
  split_ifs with hin
  · simp [hk, hin]
  · simp [hk, hin]

end Sys2Proof.Machine

open Sys2Proof Sys2Proof.Machine

/-- Settles O6: the field that B names, and each instruction's result bit by bit. -/
theorem bitFields : Obligations.BitFields := by
  unfold Obligations.BitFields
  intro x s A B pos w
  have hfield : fieldOf (s.operand x.b) = (pos, w) := fieldOf_eq _
  refine ⟨fun h => ⟨_, State.next_fixed2_S h rfl nofun nofun rfl, fun k hk => ?_⟩,
    fun h => ⟨_, State.next_run_S h rfl nofun nofun rfl, fun k hk => ?_⟩⟩
  · rw [getLsbD_bitExtract _ _ _ hk, hfield]
  · exact (getLsbD_bitInsert _ _ _ hk).trans (by rw [State.srB, hfield]; rfl)

end

section
/-! Queue registers (R123). -/

namespace Sys2Proof.Machine

/-- Two changes of an entry that agree on it are one. -/
theorem updAt_congr {α : Type} {f g : α → α} (d : α) : ∀ {n : Nat} {xs : List α}, f (xs.getD n d) = g (xs.getD n d) →
    updAt n f xs = updAt n g xs
  | _, [], _ => by rw [updAt, updAt]
  | 0, _ :: xs, h => congrArg (· :: xs) h
  | _ + 1, x :: _, h => congrArg (x :: ·) (updAt_congr d h)

/-- QPOP and QPEEK wait for nothing, and at issue they look at their queue register alone (R41, R123). -/
theorem State.checks_of_pop {s : State} {x : SR} {i : Instr} (hi : i = .qpop x ∨ i = .qpeek x) (hslot : s.cur.slot = 0) :
    s.structFree i = true ∧ s.issueCheck i = illUnless (!(s.queue x.a).isEmpty) ⟨.qund, infoOf x.a.toNat 0, s.cur.slot⟩ := by
  have hunits : s.unitsFree i = true := by
    rcases hi with rfl | rfl <;> simp only [State.unitsFree, hslot]
  have hsys : notInSys i = false := by rcases hi with rfl | rfl <;> rfl
  rw [State.issueCheck, hsys, Bool.and_false]
  rcases hi with rfl | rfl <;> exact ⟨congrArg (· && true) hunits, rfl⟩

/-- What stops QPOP and QPEEK of an empty queue register at issue, where nothing stops them before (R123). -/
theorem State.gate_qund {s : State} {x : SR} {i : Instr} (hi : i = .qpop x ∨ i = .qpeek x) (hready : s.cur.ready = false)
    (hstatic : s.staticFault i = none) (hen : s.enabled i = true) (hempty : s.queue x.a = []) (hslot : s.cur.slot = 0) :
    s.gate i = .trap ⟨.qund, infoOf x.a.toNat 0, 0⟩ := by
  obtain ⟨hfree, hcheck⟩ := State.checks_of_pop hi hslot
  rw [hempty, hslot] at hcheck
  simp only [State.gate, hready, hstatic, hen, hfree, hcheck]
  rfl

end Sys2Proof.Machine

open Sys2Proof Sys2Proof.Machine

/-- Settles O7: the effects at issue, and for an empty queue register the gate's verdict. -/
theorem queueRegisters : Obligations.QueueRegisters := by
  unfold Obligations.QueueRegisters
  intro x s Q
  refine ⟨fun h v r hQ => State.next_run_S h rfl nofun nofun ?pop, fun h v r hQ => State.next_run_S h rfl nofun nofun ?peek,
    fun h => State.next_run_S h rfl nofun nofun rfl, fun i hi hready hstatic hen hempty hslot => ?empty⟩
  case pop =>
    have hhead : (s.queue x.a).headD 0 = v := congrArg (·.headD 0) hQ
    have htail : updAt x.a.toNat (·.drop 1) s.seq.q = updAt x.a.toNat (fun _ => r) s.seq.q :=
      updAt_congr [] (congrArg (·.drop 1) hQ)
    rw [hhead]
    exact State.updSeq_congr (congrArg (fun l => ({ s.seq with q := l } : Machine.Seq)) htail)
  case peek => exact congrArg (s.lands 1 x.d) (congrArg (·.headD 0) hQ)
  case empty =>
    have hw : i.encode.isSome = true := by rcases hi with rfl | rfl <;> rfl
    exact exec_of_trap hw (State.gate_qund hi hready hstatic hen hempty hslot)

end

section
/-! Special registers (R124 to R128). -/

open Sys2Proof Sys2Proof.Machine

/-- Settles O8: the table of the special registers is the model's own, entry by entry, and each move lands what it names. -/
theorem specialRegisters : Obligations.SpecialRegisters := by
  unfold Obligations.SpecialRegisters
  intro x s A N l n m
  have hN : x.b.setWidth 4 = N := BitVec.setWidth_eq_extractLsb' (by decide)
  refine ⟨rfl, fun h => State.next_run_S h rfl nofun nofun rfl, fun h hd => State.next_run_S h rfl nofun nofun ?flags,
    fun h hd => State.next_run_S h rfl nofun nofun ?trappc, fun h => State.next_run_S h rfl nofun nofun ?eget,
    fun h => State.next_run_S h rfl nofun nofun ?eset⟩
  case flags =>
    have hflags : A.setWidth 5 = A.extractLsb' 0 5 := BitVec.setWidth_eq_extractLsb' (by decide)
    rw [if_pos hd, ← hflags]
    rfl
  case trappc => exact if_neg (hd ▸ by decide)
  case eget =>
    rw [hN]
    rfl
  case eset =>
    rw [hN]
    rfl

end

section
/-! A context leaves its slot: for shadow storage, the spill area, or a freeze where it is (R339 to R341). -/

namespace Sys2Proof.Machine

/-- An event that does something to one gang, by what it comes to with the gang in focus. -/
theorem State.withGang_next {s t : State} {gid : Nat} {f : State → State} (h : s.hasGang gid) (hf : f (s.focus gid) = t) :
    (s.withGang gid f).next = .next (t.focus s.g.gid) := by
  rw [State.withGang_at f h, hf]
  rfl

/-- In USER mode a gang has halted when its primary has (R99). -/
theorem Gang.halted_of_user {g : Gang} (h : g.mode = .user) : g.halted = (g.q0.block == .halted) := by
  rw [Gang.halted, h]
  exact Bool.or_false _

section
variable {s : State} {d sl h since : Nat}

/-- A context that is ready leaves its slot; what a pre-emption for a LIVE launch asked for stays open to accesses (R339, R341). -/
theorem State.saveStep_run (hplace : s.g.place = .run d sl h) (hready : s.g.saveReady = true) :
    (s.g.drain = .preempt since true → s.saveStep = s.updG fun g => g.toShadow d sl h none) ∧
    (s.g.drain = .preempt since false → s.saveStep = s.updG fun g => g.toShadow d sl h (some s.tkt)) ∧
    (∀ l, s.g.drain = .suspend since l → s.saveStep = s.updG fun g => g.toShadow d sl h (some s.tkt)) := by
  refine ⟨fun hdrain => ?_, fun hdrain => ?_, fun l hdrain => ?_⟩ <;>
  · rw [State.saveStep, hplace, hdrain]
    exact if_pos hready

/-- A result of the matrix class in flight keeps a context that is not frozen from having drained (R236). -/
theorem Gang.drained_of_matrix {g : Gang} (hfrozen : g.frozen = false) (hflight : ∃ f ∈ g.fl, f.matrix = true) :
    g.drained = false := by
  have hmatrix : g.matrixFlight = true := List.any_eq_true.2 hflight
  simp [Gang.drained, hfrozen, hmatrix]

/-- A context that runs and has not drained stays where it is (R340). -/
theorem State.saveStep_undrained (hrun : s.g.place.running = true) (hdrained : s.g.drained = false) : s.saveStep = s := by
  have hready : s.g.saveReady = false := by rw [Gang.saveReady, hdrained]; rfl
  unfold State.saveStep
  split
  case h_1 | h_2 | h_3 => rw [if_neg (by simp [hready])]
  case h_8 => rfl
  all_goals
    rename_i hplace _
    rw [hplace] at hrun
    cases hrun

theorem State.moveAway_one {p : Place} {u : State} (h : s.saveContext s.g p = some u) :
    s.moveAway [p] = (u.settleRegion u.myDie u.g.place.slot u.g.place.half u.g.info).updG fun g =>
      { g with place := p, drain := .none, closed := none } := by
  have hfold : [p].foldlM (fun (s : State) p => s.saveContext s.g p) s = some u :=
    (List.foldlM_cons ..).trans (by rw [h]; rfl)
  rw [State.moveAway, hfold]
  rfl

/-- A context in shadow storage moves to the free entry of the spill area, and waits while there is none (R340, R341). -/
theorem State.saveStep_spill (hplace : s.g.place = .shadow d sl h) (hdrain : s.g.drain = .preempt since false)
    (hmovable : s.g.movable = true) (huntargeted : s.untargeted s.g = true) :
    (s.spillFree d = none → s.saveStep = s) ∧ ∀ e, s.spillFree d = some e → s.saveStep = s.moveAway [.spill d e] := by
  have hstep : s.saveStep = s.spillStep d := by rw [State.saveStep, hplace, hdrain]
  have hleaves : (s.g.movable && s.untargeted s.g) = true := by rw [hmovable, huntargeted]; rfl
  rw [hstep, State.spillStep, if_pos hleaves]
  exact ⟨fun hnone => by rw [hnone], fun e hfree => by rw [hfree]⟩

end

/-- The bound of R339: 15 us for a LIVE pre-emptor, 20 us otherwise and for a SUSPEND. -/
theorem Gang.overran_of {g : Gang} {now : Nat} (h : (∃ since l, g.drain = .suspend since l ∧ since + 20000 < now) ∨
    ∃ since live, g.drain = .preempt since live ∧ since + (if live then 15000 else 20000) < now) : g.overran now = true := by
  rcases h with ⟨since, l, hdrain, hlate⟩ | ⟨since, live, hdrain, hlate⟩ <;>
  · rw [Gang.overran, hdrain]
    exact decide_eq_true hlate

/-- A context that has overrun its bound is frozen where it is (R340). -/
theorem execPreemptFreeze_overran {s : State} {gid : Nat} (h : s.hasGang gid) (hrun : (s.focus gid).g.place.running = true)
    (hmode : (s.focus gid).g.mode = .user) (hstop : (s.focus gid).g.stopping = false)
    (hblock : (s.focus gid).g.q0.block ≠ .halted)
    (hover : (s.focus gid).g.overran ((s.focus gid).now (s.focus gid).myDie) = true) :
    execPreemptFreeze gid s = .next (((s.focus gid).updG fun g => { g with frozen := true }).focus s.g.gid) := by
  have hhalted : (s.focus gid).g.halted = false := by rw [Gang.halted_of_user hmode]; exact beq_eq_false_iff_ne.2 hblock
  refine State.withGang_next h (if_pos ?_)
  rw [hrun, Gang.inSys_of_user hmode, hstop, hhalted, hover]
  rfl

/-! A context comes back to its half (R292, R341). -/

/-- A launch with work for the die that ranks before another and fits the die's free space. -/
def State.Outranks (s : State) (die : Nat) (y x : Launch) : Prop :=
  x ∈ s.candidates die ∧ (x.rank (s.now die)).before (y.rank (s.now die)) = true ∧ (s.spaceFor die x.info).isSome = true

theorem State.outranked_iff {s : State} {die : Nat} {g : Gang} :
    s.outranked die g = true ↔ ∃ y, s.launch g.info.lid = some y ∧ ∃ x, s.Outranks die y x := by
  unfold State.outranked State.Outranks
  cases s.launch g.info.lid <;> simp

/-- What becomes of a context in shadow storage that no drain keeps there: it resumes, unless it is outranked. -/
theorem execContextRestore_shadow {s : State} {gid die sl h : Nat} {g : Gang}
    (hfind : s.gangs.find? (fun x => x.gid == gid && !x.stopping) = some g) (hplace : g.place = .shadow die sl h)
    (hdrain : g.drain = .none) (hslot : (s.die die).slotOn sl = true)
    (hfree : ∀ x ∈ s.onSlot die sl, x.place.running = true → x.info.cls ≠ 0) :
    execContextRestore gid die s = .next (if s.outranked die g = true then s else
      s.mapGangs fun x => if x.gid = gid then x.resume (.run die sl h) (s.die die).health.span else x) := by
  have hawaited : s.awaited g = false := by rw [State.awaited, hdrain]
  have hlive : ((s.onSlot die sl).any fun x => x.place.running && x.info.cls == 0) = false :=
    List.any_eq_false.2 fun x hx => by simpa using hfree x hx
  rw [execContextRestore, hfind]
  simp only [hplace, hawaited, hslot, hlive]
  cases s.outranked die g <;> rfl

end Sys2Proof.Machine
end

section
/-! The trigger and the deadline of a launch (R306, R310). -/

namespace Sys2Proof.Machine

/-- How a context takes a request for its endgame: at once where it runs in USER mode and is not frozen, by a mark
otherwise (R306, R307). -/
theorem Gang.askEndgame_asked {g : Gang} (hreason : g.egReason = 0) (hmark : g.egMark = none) (hstop : g.stopping = false)
    (hhalted : g.halted = false) (r : Nat) :
    (g.drain = .none → (g.place.running = true → g.inSys = false → g.frozen = false →
        g.askEndgame r = { g with drain := .endgame r }) ∧
      (g.place.running = false ∨ g.inSys = true ∨ g.frozen = true → g.askEndgame r = { g with egMark := some r })) ∧
    ((∃ since a, g.drain = .preempt since a) ∨ (∃ since a, g.drain = .suspend since a) →
      g.askEndgame r = { g with egMark := some r }) := by
  have hopen : ¬(g.egReason ≠ 0 ∨ g.stopping = true ∨ g.halted = true ∨ g.egMark.isSome = true) := by
    simp [hreason, hstop, hhalted, hmark]
  rw [Gang.askEndgame, if_neg hopen]
  refine ⟨fun hdrain => ⟨fun hrun hsys hfrozen => ?_, fun hkept => ?_⟩, ?_⟩
  · simp [hdrain, hrun, hsys, hfrozen]
  · rw [hdrain]
    exact if_neg (by rcases hkept with h | h | h <;> simp [h])
  · rintro (⟨since, a, hdrain⟩ | ⟨since, a, hdrain⟩) <;> rw [hdrain]

/-- A context that is in its endgame, or drains to it, is left alone (R306). -/
theorem Gang.askEndgame_inEndgame {g : Gang} (h : g.egReason ≠ 0 ∨ ∃ r, g.drain = .endgame r) (r : Nat) :
    g.askEndgame r = g := by
  rcases h with hreason | ⟨r', hdrain⟩
  · exact if_pos (.inl hreason)
  · rw [Gang.askEndgame, hdrain]
    exact ite_self _

/-- The trigger on one die: nothing more of the launch is taken, and the contexts that are there or away are asked. -/
theorem State.passTrigger_one (s : State) (lid r die : Nat) : s.passTrigger lid r false [die] =
    ({ s with launches := s.launches.map fun x =>
        let all := x.info.nx * x.info.ny * x.info.nz * x.info.stages
        if x.info.lid = lid then { x with
          trig := (x.trig ++ [die]).eraseDups, taken := all,
          tally := { x.tally with never := x.tally.never + (all - x.taken) } } else x } : State).mapGangs fun c =>
      if c.info.lid = lid ∧ (c.place.die = die ∨ c.place.running = false) then c.askEndgame r else c := by
  simp [State.passTrigger, State.updLaunch]

/-- A deadline launch's trigger passes on a die once its time is there (R306). -/
theorem execDeadlineTrigger_due {s : State} {lid die : Nat} {l : Launch} (hl : s.launch lid = some l) (hstage : l.stage ≠ .waiting)
    (hdline : l.info.dline = true) (hdue : l.info.trigger ≤ s.now die) (hdie : die < 4) :
    execDeadlineTrigger die lid s = .next (s.triggerOn die l) := by
  rw [execDeadlineTrigger, hl]
  exact congrArg Host.Outcome.next (if_pos ⟨hstage, hdline, hdue, hdie⟩)

/-- A launch without a deadline is not stopped (R310). -/
theorem execDeadlineStop_none {s : State} {lid : Nat} {l : Launch} (hl : s.launch lid = some l) (hdline : l.info.dline = false)
    (die : Nat) : execDeadlineStop die lid s = .next s := by
  rw [execDeadlineStop, hl]
  exact congrArg Host.Outcome.next (if_pos (.inr (.inl (by rw [hdline]; rfl))))

/-- A context that the deadline of a launch stops on a die (R310). -/
def Gang.missesOn (g : Gang) (lid die : Nat) : Bool :=
  g.info.lid == lid && g.onDie die && !g.stopping && !g.haltIssued && g.drain != Drain.stop

/-- The machine once the deadline of a launch has stopped what has not ended on a die (R310). -/
def State.missed (s : State) (lid die : Nat) : State :=
  (s.mapGangs fun g => if g.missesOn lid die then g.atDeadline else g).updLaunch lid fun l =>
    { l with tally := { l.tally with missed := true } }

theorem execDeadlineStop_due {s : State} {lid die : Nat} {l : Launch} (hl : s.launch lid = some l) (hstage : l.stage ≠ .waiting)
    (hdline : l.info.dline = true) (hdue : l.info.deadline ≤ s.now die) (hdie : die < 4) (htrig : l.trig.contains die = true)
    {g : Gang} (hg : g ∈ s.gangs) (hmiss : g.missesOn lid die = true) :
    execDeadlineStop die lid s = .next (s.missed lid die) := by
  have hopen : ¬(l.stage = LStage.waiting ∨ (!l.info.dline) = true ∨ s.now die < l.info.deadline ∨ 4 ≤ die) := by
    simpa [hstage, hdline] using And.intro hdue hdie
  have hpassed : s.triggerOn die l = s := if_pos htrig
  have hany : s.gangs.any (fun g => g.missesOn lid die) = true := List.any_eq_true.2 ⟨g, hg, hmiss⟩
  rw [execDeadlineStop, hl]
  refine congrArg Host.Outcome.next ((if_neg hopen).trans ?_)
  rw [hpassed]
  exact if_neg fun hnone => Bool.false_ne_true ((congrArg (!·) hany).symm.trans hnone)

theorem State.mem_gangs_mapGangs {s : State} {g : Gang} (hg : g ∈ s.gangs) (f : Gang → Gang) : f g ∈ (s.mapGangs f).gangs :=
  List.mem_map_of_mem (f := f) hg

theorem State.mem_gangs_missed {s : State} {g : Gang} (hg : g ∈ s.gangs) (lid die : Nat) :
    (if g.missesOn lid die then g.atDeadline else g) ∈ (s.missed lid die).gangs :=
  State.mem_gangs_mapGangs hg fun g => if g.missesOn lid die then g.atDeadline else g

end Sys2Proof.Machine
end

section
/-! The entry of the endgame (R307 to R309). -/

namespace Sys2Proof.Machine

/-- A gang whose sequencers' blocks may have been abandoned, with what its abandoned FENCEs owe. -/
def Gang.relieved (g : Gang) (wake : Nat) (fences : List (Nat × BitVec 16)) (b0 b1 : Block) : Gang :=
  { g with wake := wake, fences := fences, q0 := { g.q0 with block := b0 }, q1 := { g.q1 with block := b1 } }

/-- What abandoning may do to a block. -/
def Block.Relieved (b b' : Block) : Prop := b' = b ∨ b.abandoned = true ∧ b' = .none

theorem Block.Relieved.ne_halted {b b' : Block} (h : b.Relieved b') (hb : b ≠ .halted) : b' ≠ .halted := by
  rcases h with rfl | ⟨-, rfl⟩
  · exact hb
  · nofun

/-- A sequencer that runs no fragment any more is not blocked in what the endgame abandons. -/
theorem Block.Relieved.fragmentOver {b b' : Block} (h : b.Relieved b') (hb : b = .fragmentOver) : b' = .fragmentOver := by
  subst hb
  rcases h with rfl | ⟨habandoned, -⟩
  · rfl
  · cases habandoned

theorem State.updG_of {s : State} {g : Gang} (h : s.g = g) (f : Gang → Gang) : (s.updG f).g = f g := congrArg f h

theorem State.wakeSlot_g (s : State) : ∃ w, s.wakeSlot.g = { s.g with wake := w } := by
  unfold State.wakeSlot
  split
  · show ∃ w, (if s.slotMate s.g then { s.g with wake := 60 } else s.g) = _
    split
    · exact ⟨60, rfl⟩
    · exact ⟨s.g.wake, rfl⟩
  · exact ⟨s.g.wake, rfl⟩

theorem State.wakeSlot_mem (s : State) : s.wakeSlot.mem = s.mem := by
  unfold State.wakeSlot
  split <;> rfl

theorem State.abandon_mem (s : State) (q : Nat) : (s.abandon q).mem = s.mem := by
  unfold State.abandon
  dsimp only
  split
  · rfl
  · exact s.wakeSlot_mem

theorem State.abandon_kept {s : State} {q : Nat} (h : (s.g.seq q).block.abandoned = false) : s.abandon q = s :=
  if_pos (.inr (.inr (by rw [h]; rfl)))

/-- What abandoning the block of a sequencer changes of its gang: the block, the wake count and the FENCEs that are owed. -/
theorem State.abandon_g (s : State) (q : Nat) : ∃ w fs b, (s.g.seq q).block.Relieved b ∧
    (s.abandon q).g = { s.g with wake := w, fences := fs }.updSeq q fun x => { x with block := b } := by
  obtain ⟨w, hw⟩ := s.wakeSlot_g
  unfold State.abandon
  dsimp only
  split
  · exact ⟨s.g.wake, s.g.fences, (s.g.seq q).block, .inl rfl, (Gang.updSeq_self rfl).symm⟩
  · rename_i hnot
    have habandoned : (s.g.seq q).block.abandoned = true := by simpa using (not_or.1 (not_or.1 hnot).2).2
    exact ⟨w, _, .none, .inr ⟨habandoned, rfl⟩, State.updG_of hw _⟩

theorem State.abandons_g (s : State) : ∃ w fs b0 b1, s.g.q0.block.Relieved b0 ∧ s.g.q1.block.Relieved b1 ∧
    ((s.abandon 0).abandon 1).g = s.g.relieved w fs b0 b1 := by
  obtain ⟨w, fs, b0, hb0, h0⟩ := s.abandon_g 0
  obtain ⟨w', fs', b1, hb1, h1⟩ := (s.abandon 0).abandon_g 1
  rw [h0] at hb1 h1
  exact ⟨w', fs', b0, b1, hb0, hb1, h1⟩

theorem Gang.entryReady_iff {g : Gang} : g.entryReady = true ↔ g.place.running = true ∧ g.inSys = false ∧ g.frozen = false ∧
    g.stopping = false ∧ g.deferred = [] ∧ g.fl = [] ∧ g.quiet = true ∧ g.halted = false ∧ g.q0.atDrain = true ∧
    g.q0.ends = none ∧ (g.split = true → g.q1.stopped = true) := by
  simp [Gang.entryReady, and_assoc, imp_iff_not_or]

theorem Gang.mode_of_not_inSys {g : Gang} (h : g.inSys = false) : g.mode = .user := by
  unfold Gang.inSys at h
  split at h
  · assumption
  · cases h

/-- A gang that is ready for its endgame stays so when what its sequencers are blocked in is abandoned. -/
theorem Gang.entryReady_relieved {g : Gang} (h : g.entryReady = true) (w : Nat) (fs : List (Nat × BitVec 16)) {b0 b1 : Block}
    (hb0 : g.q0.block.Relieved b0) (hb1 : g.q1.block.Relieved b1) : (g.relieved w fs b0 b1).entryReady = true := by
  obtain ⟨hrun, hsys, hfrozen, hstop, hdeferred, hfl, hquiet, hhalted, hdrain, hends, hstopped⟩ := Gang.entryReady_iff.1 h
  have hmode := Gang.mode_of_not_inSys hsys
  refine Gang.entryReady_iff.2 ⟨hrun, hsys, hfrozen, hstop, hdeferred, hfl, hquiet, ?_, hdrain, hends, fun hsplit => ?_⟩
  · rw [Gang.halted_of_user hmode, beq_eq_false_iff_ne] at hhalted
    exact (Gang.halted_of_user (g := g.relieved w fs b0 b1) hmode).trans (beq_eq_false_iff_ne.2 (hb0.ne_halted hhalted))
  · have hold := hstopped hsplit
    simp only [Seq.stopped, Bool.or_eq_true, beq_iff_eq] at hold ⊢
    exact hold.imp id hb1.fragmentOver

/-- A gang without its fragment: what was the fragment's is gone, and the gang's pts is the greater of the two (R307). -/
def State.unsplit (s : State) : State := if s.g.split then s.updG Gang.joinFragment else s

theorem State.unsplit_mem (s : State) : s.unsplit.mem = s.mem := by
  unfold State.unsplit
  split <;> rfl

/-- The pts of a gang's sequencers, the greater of the two while a split runs. -/
def Gang.topPts (g : Gang) : Nat := if g.split then max g.q0.pts g.q1.pts else g.q0.pts

theorem State.unsplit_g (s : State) : ∃ fl q1, s.unsplit.g =
    { s.g with split := false, fl := fl, q1 := q1, q0 := { s.g.q0 with pts := s.g.topPts } } := by
  unfold State.unsplit Gang.topPts
  split
  · exact ⟨_, _, rfl⟩
  · rename_i h
    refine ⟨s.g.fl, s.g.q1, ?_⟩
    rw [← Bool.eq_false_iff.2 h]

/-! Publication changes of the gang in focus its records of copies and its program time alone (R171). -/

theorem State.noteBars_g (s : State) (bs : List Nat) (t : Nat) : (s.noteBars bs t).g = s.g := by
  unfold State.noteBars
  split
  · rfl
  · refine State.foldl_same (·.g) _ ?_ _ _
    intro _ _
    rfl

theorem State.publishLines_g (s : State) (p : Nat) (ls : List Nat) : (s.publishLines p ls).1.g = s.g := State.writeLines_g ls _

theorem State.notifyRanges_g (xs : List Unseen) (s : State) :
    (xs.foldl (fun t x => t.notifyRange x.key x.old.length) s).g = s.g :=
  State.foldl_same (·.g) _ (fun _ _ => State.notifyAll_g _ _) _ _

theorem State.publish_g (s : State) (c p : Nat) (f : Wrote → Bool) (own : Bool) :
    ∃ w, (s.publish c p f own).1.g = { s.g with wrote := w } := by
  unfold State.publish
  split
  · exact ⟨s.g.wrote, rfl⟩
  · dsimp only
    split
    · simp only [State.notifyRanges_g, State.updG, State.noteBars_g, State.publishLines_g]
      exact ⟨_, rfl⟩
    · simp only [State.updG, State.noteBars_g, State.publishLines_g]
      exact ⟨_, rfl⟩

theorem State.publishBatches_g (s : State) (c : Nat) (n : BitVec 16) :
    ∃ w p, (s.publishBatches c 0 n).g = { s.g with wrote := w, q0 := { s.g.q0 with pts := p } } := by
  obtain ⟨w, hw⟩ := s.publish_g c (s.g.seq 0).pts (Wrote.upTo n) true
  exact ⟨w, _, State.updG_of hw _⟩

/-- The machine once what abandoned FENCEs were to publish is published (R307). -/
def State.payFences (s : State) (fs : List (Nat × BitVec 16)) : State := fs.foldl (fun s f => s.publishBatches f.1 0 f.2) s

theorem State.payFences_mem (s : State) (fs : List (Nat × BitVec 16)) : (s.payFences fs).mem = s.mem :=
  State.foldl_same (·.mem) _ (fun (s : State) (f : Nat × BitVec 16) => s.publishBatches_mem f.1 0 f.2) fs s

theorem State.payFences_g : ∀ (fs : List (Nat × BitVec 16)) (s : State),
    ∃ w p, (s.payFences fs).g = { s.g with wrote := w, q0 := { s.g.q0 with pts := p } }
  | [], s => ⟨s.g.wrote, s.g.q0.pts, rfl⟩
  | f :: fs, s => by
    obtain ⟨w, p, h⟩ := s.publishBatches_g f.1 f.2
    obtain ⟨w', p', h'⟩ := State.payFences_g fs (s.publishBatches f.1 0 f.2)
    rw [h] at h'
    exact ⟨w', p', h'⟩

/-- The machine whose gang in focus has entered its endgame (R307, R309). -/
def State.entered (s : State) (r : Nat) : State :=
  let t := (s.payFences s.g.fences).updG fun g => g.enterEndgame r
  t.updLaunch t.g.info.lid fun l => { l with tally := { l.tally with inEndgame := true } }

theorem State.entered_mem (s : State) (r : Nat) : (s.entered r).mem = s.mem := s.payFences_mem s.g.fences

theorem State.entered_g (s : State) (r : Nat) :
    ∃ w p, (s.entered r).g = Gang.enterEndgame { s.g with wrote := w, q0 := { s.g.q0 with pts := p } } r := by
  obtain ⟨w, p, h⟩ := s.payFences_g s.g.fences
  exact ⟨w, p, congrArg (Gang.enterEndgame · r) h⟩

/-- The machine whose gang in focus has left what the endgame abandons and its fragment (R307). -/
def State.gathered (s : State) : State := ((s.abandon 0).abandon 1).unsplit

theorem State.gathered_mem (s : State) : s.gathered.mem = s.mem := by
  rw [State.gathered, State.unsplit_mem, State.abandon_mem, State.abandon_mem]

/-- What a gang keeps of itself up to its entry in the endgame. -/
theorem State.gathered_g (s : State) : ∃ w fs b0 fl q1 p, s.gathered.g =
    { s.g with
      wake := w, fences := fs, split := false, fl := fl, q1 := q1, q0 := { s.g.q0 with block := b0, pts := p } } := by
  obtain ⟨w, fs, b0, b1, -, -, habandons⟩ := s.abandons_g
  obtain ⟨fl, q1, hunsplit⟩ := State.unsplit_g ((s.abandon 0).abandon 1)
  rw [habandons] at hunsplit
  exact ⟨w, fs, b0, fl, q1, _, hunsplit⟩

theorem State.gathered_of_kept {s : State} (h0 : s.g.q0.block.abandoned = false) (h1 : s.g.q1.block.abandoned = false) :
    s.gathered = s.unsplit := by
  have habandon : s.abandon 0 = s := State.abandon_kept h0
  rw [State.gathered, habandon, State.abandon_kept (q := 1) h1]

/-- Once a gang is ready, its endgame begins at its entry, or with a trap while an engine is parked (R307, R308). -/
theorem State.entryStep_ready {s : State} {r : Nat} (hdrain : s.g.drain = .endgame r) (hready : s.g.entryReady = true) :
    s.entryStep = if s.g.pmask = 0 then s.gathered.entered r else s.gathered.converge s.g.info.egEntry true := by
  obtain ⟨w, fs, b0, b1, hb0, hb1, habandons⟩ := s.abandons_g
  obtain ⟨_, _, _, _, _, _, hgathered⟩ := s.gathered_g
  have hstill : ((s.abandon 0).abandon 1).g.entryReady = true := by
    rw [habandons]
    exact Gang.entryReady_relieved hready w fs hb0 hb1
  have hpmask : s.gathered.g.pmask = s.g.pmask := by rw [hgathered]
  have hinfo : s.gathered.g.info = s.g.info := by rw [hgathered]
  rw [← hpmask, ← hinfo, State.entryStep, hdrain]
  refine (if_neg (by rw [hstill]; nofun)).trans ?_
  exact ite_not ..

/-- The entry state of R309, and what the entry leaves of the gang. -/
theorem State.entered_gathered (s : State) (r : Nat) : let u := s.gathered.entered r
    u.g.egReason = r ∧ u.g.q0.pc = s.g.info.egEntry ∧ u.g.q0.frames = [] ∧ u.g.q0.ds = [] ∧
    u.g.q0.exec = s.g.epres &&& ~~~ s.g.xmask ∧ u.g.split = false ∧ u.g.drain = .none ∧ u.g.q0.s = s.g.q0.s ∧
    u.g.lanes = s.g.lanes ∧ u.mem = s.mem := by
  obtain ⟨_, _, hentered⟩ := s.gathered.entered_g r
  obtain ⟨_, _, _, _, _, _, hgathered⟩ := s.gathered_g
  rw [hgathered] at hentered
  dsimp only
  rw [hentered, State.entered_mem, State.gathered_mem]
  exact ⟨rfl, rfl, rfl, rfl, rfl, rfl, rfl, rfl, rfl, rfl⟩

/-- With no FENCE owed the gang enters its endgame at the greater of its sequencers' pts (R307). -/
theorem State.entered_pts {s : State} (hfences : s.g.fences = []) (h0 : s.g.q0.block.abandoned = false)
    (h1 : s.g.q1.block.abandoned = false) (r : Nat) : (s.gathered.entered r).g.q0.pts = s.g.topPts := by
  obtain ⟨_, _, hunsplit⟩ := s.unsplit_g
  have hnone : s.unsplit.g.fences = [] := by rw [hunsplit]; exact hfences
  have hpay : s.unsplit.payFences s.unsplit.g.fences = s.unsplit := by rw [hnone]; rfl
  rw [State.gathered_of_kept h0 h1, State.entered, hpay]
  show s.unsplit.g.q0.pts = _
  rw [hunsplit]

/-- A convergence at the entry of the endgame is always a trap, of the primary (R308, R332). -/
theorem State.converge_entry (s : State) (pc : Nat) : ∃ e, s.converge pc true = s.trapEnter 0 e pc :=
  ⟨_, if_neg (by simp)⟩

/-- What a trap of the primary in USER mode leaves of its gang (R321). -/
theorem State.trapEnter_primary {s : State} (hmode : s.g.mode = .user) (e : Exc) (pc : Nat) : let u := s.trapEnter 0 e pc
    u.g.split = s.g.split ∧ u.g.q0.pts = s.g.q0.pts ∧ u.g.drain = s.g.drain ∧ u.g.egReason = s.g.egReason ∧ u.g.inSys = true ∧
    u.g.trapPc = BitVec.ofNat 64 pc := by
  simp only [State.trapEnter, hmode]
  exact ⟨rfl, rfl, rfl, rfl, rfl, rfl⟩

/-- With an engine parked the gang traps at its entry, and the drain stays (R308). -/
theorem State.converge_gathered {s : State} (hready : s.g.entryReady = true) (h0 : s.g.q0.block.abandoned = false)
    (h1 : s.g.q1.block.abandoned = false) (pc : Nat) : let u := s.gathered.converge pc true
    u.g.split = false ∧ u.g.q0.pts = s.g.topPts ∧ u.g.drain = s.g.drain ∧ u.g.egReason = s.g.egReason ∧ u.g.inSys = true ∧
    u.g.trapPc = BitVec.ofNat 64 pc := by
  obtain ⟨-, hsys, -⟩ := Gang.entryReady_iff.1 hready
  obtain ⟨e, htrap⟩ := s.gathered.converge_entry pc
  obtain ⟨_, _, hunsplit⟩ := s.unsplit_g
  have hmode : s.unsplit.g.mode = .user := by rw [hunsplit]; exact Gang.mode_of_not_inSys hsys
  dsimp only
  rw [htrap, State.gathered_of_kept h0 h1]
  obtain ⟨hsplit, hpts, hdrain, hreason, hinSys, htrapPc⟩ := State.trapEnter_primary hmode e pc
  rw [hsplit, hpts, hdrain, hreason, hunsplit]
  exact ⟨rfl, rfl, rfl, rfl, hinSys, htrapPc⟩

/-- A gang that has halted does not enter its endgame (R307). -/
theorem Gang.entryReady_of_halted {g : Gang} (h : g.q0.block = .halted) : g.entryReady = false := by
  have hhalted : g.halted = true := by rw [Gang.halted, h]; rfl
  simp [Gang.entryReady, hhalted]

end Sys2Proof.Machine
end

section
/-! The obligation: contexts are saved, frozen, resumed and ended. -/

open Sys2Proof Sys2Proof.Machine

/-- Settles O46: each event by what it does to the gang it names, or to the launch, where its condition holds. -/
theorem contextsMove : Obligations.ContextsMove := by
  unfold Obligations.ContextsMove
  intro s gid die l t back
  refine ⟨fun d sl h since hgang hplace hdrained hheld => ?toShadow, fun hgang hrun hfrozen hflight => ?matrix,
    fun d sl h since hgang hplace hdrain hmovable huntargeted => ?toSpill,
    fun hgang hrun hmode hstop hblock hlate => execPreemptFreeze_overran hgang hrun hmode hstop hblock (Gang.overran_of hlate),
    fun g sl h hfind hplace hdrain hslot hfree => ?restore, fun hl hstage hdline hdue hdie => ?trigger,
    fun c hreason hmark hstop hhalted => Gang.askEndgame_asked hreason hmark hstop hhalted 1,
    fun c hc => Gang.askEndgame_inEndgame hc 1, fun hl hdline => execDeadlineStop_none hl hdline die,
    fun hl hstage hdline hdue hdie htrig g hg hlid hon hstop hhalt hdrain hmode => ?deadline,
    fun r hgang hdrain hready hpmask => ?enters, fun r hgang hdrain hready hpmask h0 h1 => ?traps,
    fun _ => Gang.entryReady_of_halted⟩
  case toShadow =>
    have hready : t.g.saveReady = true := by rw [Gang.saveReady, hdrained, hheld]; rfl
    obtain ⟨hlive, hother, hsuspend⟩ := State.saveStep_run (since := since) hplace hready
    exact ⟨fun hdrain => State.withGang_next hgang (hlive hdrain), fun hdrain => State.withGang_next hgang (hother hdrain),
      fun a hdrain => State.withGang_next hgang (hsuspend a hdrain)⟩
  case matrix =>
    have hdrained := Gang.drained_of_matrix hfrozen hflight
    exact ⟨hdrained, State.withGang_next hgang (State.saveStep_undrained hrun hdrained)⟩
  case toSpill =>
    obtain ⟨hfull, hmoves⟩ := State.saveStep_spill hplace hdrain hmovable huntargeted
    exact ⟨fun hnone => State.withGang_next hgang (hfull hnone), fun e u hfree hsave =>
      State.withGang_next hgang ((hmoves e hfree).trans (State.moveAway_one hsave))⟩
  case restore =>
    have hexec := execContextRestore_shadow hfind hplace hdrain hslot hfree
    intro first
    refine ⟨fun hnone => hexec.trans (congrArg Host.Outcome.next (if_neg fun houtranked => ?_)), fun y x hy hx =>
      hexec.trans (congrArg Host.Outcome.next (if_pos (State.outranked_iff.2 ⟨y, hy, x, hx⟩)))⟩
    obtain ⟨y, hy, x, hx⟩ := State.outranked_iff.1 houtranked
    exact hnone y hy x hx
  case trigger =>
    have hexec := execDeadlineTrigger_due hl hstage hdline hdue hdie
    refine ⟨fun hpassed => hexec.trans (congrArg Host.Outcome.next (if_pos (List.contains_iff_mem.2 hpassed))), fun hnot =>
      hexec.trans (congrArg Host.Outcome.next ((if_neg (by simpa using hnot)).trans ?_))⟩
    rw [State.launch_lid hl, State.passTrigger_one]
  case deadline =>
    have hmiss : g.missesOn gid die = true := by simp [Gang.missesOn, hlid, hon, hstop, hhalt, hdrain]
    have hstopped : g.atDeadline = g.stop := if_neg (by rw [Gang.inSys_of_user hmode]; nofun)
    refine ⟨s.missed gid die, execDeadlineStop_due hl hstage hdline hdue hdie htrig hg hmiss, ?_, fun x hx hne => ?_, rfl⟩
    · have hmem := State.mem_gangs_missed hg gid die
      rwa [if_pos hmiss, hstopped] at hmem
    · have hmem := State.mem_gangs_missed hx gid die
      rwa [if_neg (by simp [Gang.missesOn, hne])] at hmem
  case enters =>
    have hstep := (State.entryStep_ready hdrain hready).trans (if_pos hpmask)
    obtain ⟨hreason, hpc, hframes, hds, hlanes, hsplit, hnone, hregs, hengines, hmem⟩ := t.entered_gathered r
    exact ⟨_, State.withGang_next hgang hstep, hreason, hpc, hframes, hds, hlanes, hsplit, hnone, hregs, hengines, hmem,
      fun hfences h0 h1 => State.entered_pts hfences h0 h1 r⟩
  case traps =>
    have hstep := (State.entryStep_ready hdrain hready).trans (if_neg hpmask)
    obtain ⟨hsplit, hpts, hkept, hreason, hsys, htrapPc⟩ := State.converge_gathered hready h0 h1 t.g.info.egEntry
    exact ⟨_, State.withGang_next hgang hstep, hsplit, hpts, hkept.trans hdrain, hreason, hsys, htrapPc⟩

end

section
/-! A RINS at a bucket that the shared TLB maps twice, by a page of 128 KiB and, after it, by the page of 1 GiB around it: the
translation of the table, which only the greater page serves, comes to stand first once it has been used (R140). -/

open Sys2Proof Sys2Proof.Machine

namespace Sys2Proof.Machine

/-- RINS of the one record at local offset 0, under ticket 1. -/
def Part.insertOne : Part :=
  { pid := 16, q := 0, tok := 0, slot := 4, head := 0, lane := 0, kind := .rins, bar := none, block := leBytes 8 (2 ^ 32),
    off := 0, batch := none, started := false, got := [], done := [], phase := 0, done2 := [], lost := false, of := 1 }

/-- The 128 KiB page 1, at the frame at 0x40000. -/
def TlbEnt.bucketPage : TlbEnt := ⟨0, 1, false, 0x40000, true, true, true, false, true⟩

/-- The 1 GiB page 0, at physical address 0. -/
def TlbEnt.giantPage : TlbEnt := ⟨0, 0, true, 0, true, true, true, false, true⟩

/-- Table 0 stands at 0x1000, with 16 buckets from 0x20000 on and policy 0. By the 128 KiB page its bucket 0 holds row id 1 and
15 ids 0; by the 1 GiB page it holds ids 0 alone. The record asks for row id 1 in bucket 0 of table 0. -/
def State.mappedTwice : State :=
  { State.reset with
    g := { Gang.empty with
      info := { LInfo.empty with spBytes := 4096, tabList := 0x400 }, parts := [Part.insertOne] }
    dies := [{ Die.reset 0 with tlb := [TlbEnt.bucketPage, TlbEnt.giantPage] }, Die.reset 1, Die.reset 2, Die.reset 3]
    mem := [(0x401, 0x10), (0x1002, 2), (0x1030, 4), (0x40000, 1), (2 ^ 55, 1)] }

/-- Table 0 as the operation reads it. -/
def Table.mappedTwice : Table :=
  { lva := 0x400, va := 0x1000, pa := 0x1000, entry := 0x400, a := ⟨0x20000, 0, 4⟩, b := ⟨0, 0, 0⟩, pool := 0, pooln := 0,
    free := 0, policy := 0, state := 0, cursor := 0 }

theorem State.mappedTwice_table : State.mappedTwice.table 0 2 = .ok Table.mappedTwice := by decide

/-- The bucket is found by the 128 KiB page until the table has been read, and by the 1 GiB page from then on. -/
theorem State.mappedTwice_chain :
    State.mappedTwice.chain Table.mappedTwice 0 0 2 = .ok [(0x40000, 1 :: List.replicate 15 0)] ∧
    (State.mappedTwice.rTable 0 Table.mappedTwice 2).chain Table.mappedTwice 0 0 2 =
      .ok [(0x20000, List.replicate 16 0)] := by decide

/-- What the operation leaves as the status of its record. -/
theorem State.mappedTwice_status :
    (match exec (.retrievalPartComplete 0 16) State.mappedTwice with
      | .next u => u.mem.get (2 ^ 55 + 10)
      | _ => 0) = 2 := by decide

end Sys2Proof.Machine

/-- Refutes O42: RINS finds its bucket when it has read its table, which the statement has it find before. In the
counterexample's state that reading changes by which of two cached translations the bucket is found: the statement's chain
holds the row id already (status 1), and the operation's neither holds it nor has an empty entry (status 2). -/
theorem not_partsAreCarriedOut : ¬ Obligations.PartsAreCarriedOut := by
  unfold Obligations.PartsAreCarriedOut
  intro h
  obtain ⟨-, hparts⟩ := h
  obtain ⟨-, -, -, -, hretrieval⟩ := hparts State.mappedTwice 0 16 Part.insertOne rfl
  obtain ⟨-, hupdate, -⟩ := hretrieval (by decide) (by decide) rfl
  obtain ⟨-, -, hchain⟩ := hupdate Table.mappedTwice (.inl rfl) rfl (by decide) (by decide) (by decide) (by decide)
    State.mappedTwice_table
  obtain ⟨hpresent, -⟩ := hchain _ (by decide) (.inl (by decide)) (by decide) (by decide) State.mappedTwice_chain.1
  obtain ⟨u, hnext, hmem⟩ := hpresent rfl 0x40000 (by decide)
  have hstatus : u.mem.get (2 ^ 55 + 10) = 2 := by
    simpa only [hnext, State.focus_mem, State.tookPoint_mem, State.lower_mem, State.updG_mem]
      using State.mappedTwice_status
  rw [hmem] at hstatus
  exact absurd hstatus (by decide)

end
